-- ==== Sys2Proof/Word.lean ====
section
/-! DEFINITION. The word types of the IF768 and the sparse table that every indexed piece of state uses. -/
namespace Sys2Proof

/-- A byte. -/
abbrev Byte := BitVec 8
/-- A 24-bit data word (R61). -/
abbrev W24 := BitVec 24
/-- A 36-bit address register (R61). -/
abbrev W36 := BitVec 36
/-- A register slot (R17). -/
abbrev Slot := BitVec 32
/-- A 64-byte Granary line; byte 0 is bits [7:0] (R12). -/
abbrev Line := BitVec 512

/-- A sparse table by number: keys strictly rising, and no entry equal to what an absent key reads as. -/
abbrev Tab (α : Type) := List (Nat × α)

end Sys2Proof
end

