-- ==== Sys2Proof/Syntax.lean ====
section
/-! DEFINITION. The commands of the IF768 block: one constructor of `Instr` per row of
spec/opcode_table.json, in its order (an undefined word beside the words of its kind), with the operands that the rules of spec/ give the row.
Times, analogue readings and the answers of devices outside the block reach the model as operands. -/
namespace Sys2Proof

/-- The access masters of the register arbiter, in the order of R36. -/
inductive Master where | host | core | board
  deriving DecidableEq, Repr

/-- A port of R18: the PCIe host, one shuttle context (R99), or the board port (R452). -/
inductive Port where
  | host
  | ctx (c : Fin 10240)
  | board
  deriving DecidableEq, Repr

/-- The master through which a port reaches the arbiter (R36, R98). -/
def Port.master : Port → Master
  | .host => .host
  | .ctx _ => .core
  | .board => .board

/-- The units that have an enable bit (R51, R57, R60, R207, R286). -/
inductive UnitId where
  | shuttle (n : Fin 24)
  | pattern (n : Fin 24)
  | mill (n : Fin 24)
  | capture (n : Fin 24)
  | tme (n : Fin 24)
  | dma (i : Fin 8)
  | tap (o : Fin 2)
  | scrub
  deriving DecidableEq, Repr

/-- Who in a loom draws its shared credits (R37). -/
inductive SharedUser where
  | failLog
  | capture
  | mill
  | shuttle
  /-- the waveform source of channel `k` of the loom. -/
  | wave (k : Fin 32)
  deriving DecidableEq, Repr

/-- The partitions of the Granary credit pool (R37), a loom's shared one with the requester that draws from it. -/
inductive Partition where
  | refill (n : Fin 24)
  | shared (n : Fin 24) (u : SharedUser)
  | dma (i : Fin 8)
  | bar2
  | tap (o : Fin 2)
  | coreShuttle
  | scrub
  | security
  deriving DecidableEq, Repr

/-- What the error correction finds in one 32-byte half of a line (R380). -/
inductive Ecc where | good | corr | uncorr
  deriving DecidableEq, Repr

/-- What the arrival of a Mill image meets: what the correction finds in its first half, and the words and operations of the
Mill's memories that hold an error from then on, until they are written (R333, R347). -/
structure ImageRead where
  gran : Ecc := .good
  dm : List (BitVec 15 × Ecc) := []
  pm : List (BitVec 11) := []
  deriving DecidableEq, Repr

/-- What a line access does (R378): a read, or a write of the bytes that `be` enables. -/
inductive LineOp where
  | read
  | write (data : BitVec 512) (be : BitVec 64)
  deriving DecidableEq, Repr

/-- A run of the patrol scrub inside one group: lines read, and what the correction finds, by half from the first. -/
structure ScrubRun where
  lines : Fin 257
  found : List (Nat × Ecc)
  deriving DecidableEq, Repr

/-- The fields of an RR or X word below the opcode (R69), without the function bits that name the mnemonic. -/
structure RRX where
  d : BitVec 4
  s : BitVec 4
  x : Bool
  ext : BitVec 24
  deriving DecidableEq, Repr

/-- The fields of an RI word (R69). -/
structure RI where
  d : BitVec 4
  imm : BitVec 15
  deriving DecidableEq, Repr

/-- A context number (R20). -/
abbrev CtxId := Fin 10240

/-- A channel (ball pair) number (R20). -/
abbrev ChanId := Fin 768
/-- A loom number (R20). -/
abbrev LoomId := Fin 24

/-- A monitor: MON_A or MON_B of a channel, or a loom monitor (R197). -/
inductive MonId where
  | chan (c : Fin 768) (b : Bool)
  | loom (n : Fin 24) (m : Fin 8)
  deriving DecidableEq, Repr

/-- A write of 1 to the enable bit of a unit, or of a monitor (R206); `clash`: a write of 0 to it falls in the same arbitration
step (R53). -/
inductive EnableReq where
  | unit (u : UnitId) (clash : Bool)
  | mon (id : MonId) (clash : Bool)
  deriving DecidableEq, Repr

/-- Who writes a segment descriptor (R250). -/
inductive DescSrc where | dma | bar2 | shuttle | window
  deriving DecidableEq, Repr

/-- What a monitor sees at its tick: the voltages of CH_S and CH_F of its ball pair, divided as R198 lays down, in 1/256 of a
threshold code; the fixed input of a loom monitor stands in `sense` (R197). -/
structure MonIn where
  sense : Nat
  force : Nat
  deriving DecidableEq, Repr

/-- A trigger source event that reaches a capture unit (R302). -/
inductive TrigEvent where
  | cmp (k : Fin 32) (lo rising : Bool)
  /-- a channel monitor edge into 3 INSIDE, 4 ABOVE or 2 BELOW (codes of R207). -/
  | mon (k : Fin 32) (b : Bool) (into : Nat)
  | lmon (m : Fin 8) (into : Nat)
  | vflag (one : Bool)
  | reed (code : BitVec 8)
  | mill
  deriving DecidableEq, Repr

/-- What the host side answers to a DMA engine's request (R404, R409). -/
inductive HostCpl where
  /-- a read completion with its bytes (dir = 0). -/
  | data (bytes : List (BitVec 8))
  /-- a posted write of so many bytes of the descriptor has left (dir = 1). -/
  | sent (len : Nat)
  | fail
  | poison
  deriving DecidableEq, Repr

/-- What the calibration engine finds at the end of a phase (R470, R471). Records are slot values. -/
inductive PhaseRes where
  /-- V_REF as measured, in units of 10 nV (R460). -/
  | check (vref : Nat)
  /-- one loom's ladder transfer: the taps as read, in slots 0 to 5, and the voltage between CAL_REF_HI_S and CAL_REF_HI while
  the loom sinks its reference current, in units of 10 nV (R458); `ok`: the tap at 0 V, of which no fraction can be taken, is
  inside its bounds. -/
  | ladder (n : Fin 24) (ok : Bool) (taps : List (BitVec 24)) (drop : Nat)
  /-- edges found at CAL_TIME_IN, with each loom's time offset and segment selection. -/
  | timing (ok : Bool) (offs segLo segHi : List (BitVec 32))
  | cores
  deriving DecidableEq, Repr

/-- What an uncorrectable error of the context store strikes (R548). -/
inductive StoreHit where
  /-- the record of context `c`; `issued`: the class 0xF microword of the instruction in flight has issued. -/
  | ctx (c : Fin 10240) (issued : Bool)
  | site (i : Fin 1024)
  deriving DecidableEq, Repr

/-- What VERIFY reads from the flash (R600 to R602): both directory copies, the manifests that the
directory names, and whether every strobe edge of a manifest read arrived (R439). -/
structure BootFlash where
  dir0 : List (BitVec 8)
  dir1 : List (BitVec 8)
  manA : List (BitVec 8)
  manB : List (BitVec 8)
  dqsA : Bool
  dqsB : Bool
  deriving DecidableEq, Repr

/-- The commands and events of the device (spec/opcode_table.json). -/
inductive Instr where
  /-- REGISTER_WRITE (R617). -/
  | registerWrite (p : Port) (addr : BitVec 20) (k : Nat) (v : BitVec 32) (be : BitVec 4)
  /-- RC_REGISTER_READ (R15). -/
  | rcRegisterRead (p : Port) (addr : BitVec 20) (k : Nat)
  /-- WIDE_LOW_SLOT_READ (R18). -/
  | wideLowSlotRead (p : Port) (addr : BitVec 20)
  /-- UNIT_ENABLE (R53). -/
  | unitEnable (p : Port) (u : EnableReq)
  /-- DRAIN_REQUEST (R51). -/
  | drainRequest (p : Port) (u : UnitId)
  /-- DRAIN_COMPLETE (R51). -/
  | drainComplete (u : UnitId)
  /-- GRANARY_LINE_ACCESS (R378). -/
  | granaryLineAccess (q : Partition) (line : BitVec 27) (op : LineOp) (e0 e1 : Ecc)
  /-- GRANARY_TRANSACTION_COMPLETE (R33). -/
  | granaryTransactionComplete (q : Partition)
  /-- DRAM_TRAINING_COMPLETE (R377). -/
  | dramTrainingComplete
  /-- GRANARY_INIT_COMPLETE (R377). -/
  | granaryInitComplete
  /-- SCRUB_GROUP (R383). -/
  | scrubGroup (found : ScrubRun)
  /-- SCRUB_REVISIT (R380). -/
  | scrubRevisit
  /-- ICACHE_LINE_FILL (R66). -/
  | icacheLineFill (sh : Fin 25) (c : Fin 10240) (evict : Nat)
  /-- CAPTURE_RECORD_CLOSE (R310). -/
  | captureRecordClose (n : LoomId)
  /-- MILL_IMAGE_LOADED (R347). -/
  | millImageLoaded (n : LoomId) (r : ImageRead)
  /-- MILL_GWR (R344). -/
  | millGwr (n : LoomId) (w : BitVec 19)
  /-- MILL_GRD_COMPLETE (R344). -/
  | millGrdComplete (n : LoomId) (e : Ecc)
  /-- PIXEL_LINE_ARRIVES (R370). -/
  | pixelLineArrives (o : Fin 2) (l : Fin 4) (e : Ecc × Ecc)
  /-- BAR2_READ (R391). -/
  | bar2Read (addr : BitVec 33) (len : Nat)
  /-- BAR2_WRITE (R391). -/
  | bar2Write (addr : BitVec 33) (bytes : List (BitVec 8)) (be : List Bool)
  /-- DMA_DESCRIPTOR_FETCHED (R406). -/
  | dmaDescriptorFetched (i : Fin 8) (ok : Bool) (bytes : BitVec 256)
  /-- DMA_HOST_COMPLETION (R409). -/
  | dmaHostCompletion (i : Fin 8) (r : HostCpl)
  /-- DMA_DESCRIPTOR_COMPLETE (R408). -/
  | dmaDescriptorComplete (i : Fin 8)
  /-- DMA_SKIP (R410). -/
  | dmaSkip (m : Master) (i : Fin 8)
  /-- FLASH_TRANSACTION_COMPLETE (R438). -/
  | flashTransactionComplete (bytes : List (BitVec 8))
  /-- FLASH_DQS_TIMEOUT (R439). -/
  | flashDqsTimeout (bytes : List (BitVec 8))
  /-- CAL_DUMP_COMPLETE (R481). -/
  | calDumpComplete
  /-- CAL_LOAD_COMPLETE (R482). -/
  | calLoadComplete
  /-- UCODE_LOAD_COMPLETE (R523). -/
  | ucodeLoadComplete
  /-- ATTEST (R609). -/
  | attest (m : Master) (badReads : Fin 3)
  /-- ATTEST_COMPLETE (R609). -/
  | attestComplete
  /-- PUBKEY_COMPLETE (R611). -/
  | pubkeyComplete
  /-- ADD (R78). -/
  | add (c : CtxId) (i : RRX)
  /-- SUB (R78). -/
  | sub (c : CtxId) (i : RRX)
  /-- AND (R78). -/
  | andI (c : CtxId) (i : RRX)
  /-- OR (R78). -/
  | orI (c : CtxId) (i : RRX)
  /-- XOR (R78). -/
  | xorI (c : CtxId) (i : RRX)
  /-- MOV (R78). -/
  | mov (c : CtxId) (i : RRX)
  /-- CMP (R78). -/
  | cmp (c : CtxId) (i : RRX)
  /-- TST (R78). -/
  | tst (c : CtxId) (i : RRX)
  /-- SHL (R79). -/
  | shl (c : CtxId) (i : RRX)
  /-- SHR (R79). -/
  | shr (c : CtxId) (i : RRX)
  /-- SAR (R79). -/
  | sar (c : CtxId) (i : RRX)
  /-- MUL (R78). -/
  | mul (c : CtxId) (i : RRX)
  /-- MULH (R78). -/
  | mulh (c : CtxId) (i : RRX)
  /-- MULHU (R78). -/
  | mulhu (c : CtxId) (i : RRX)
  /-- NOT (R78). -/
  | notI (c : CtxId) (i : RRX)
  /-- NEG (R78). -/
  | neg (c : CtxId) (i : RRX)
  /-- MIN (R78). -/
  | minI (c : CtxId) (i : RRX)
  /-- MAX (R78). -/
  | maxI (c : CtxId) (i : RRX)
  /-- ABS (R78). -/
  | abs (c : CtxId) (i : RRX)
  /-- ADDI (R80). -/
  | addi (c : CtxId) (i : RI)
  /-- MOVI (R80). -/
  | movi (c : CtxId) (i : RI)
  /-- CMPI (R80). -/
  | cmpi (c : CtxId) (i : RI)
  /-- ANDI (R80). -/
  | andi (c : CtxId) (i : RI)
  /-- ORI (R80). -/
  | ori (c : CtxId) (i : RI)
  /-- ALEA (R81). -/
  | alea (c : CtxId) (i : RRX)
  /-- AADD (R81). -/
  | aadd (c : CtxId) (i : RRX)
  /-- AHI (R81). -/
  | ahi (c : CtxId) (i : RRX)
  /-- ASITE (R81). -/
  | asite (c : CtxId) (i : RRX)
  /-- ARDL (R81). -/
  | ardl (c : CtxId) (i : RRX)
  /-- ARDH (R81). -/
  | ardh (c : CtxId) (i : RRX)
  /-- AWL (R81). -/
  | awl (c : CtxId) (i : RRX)
  /-- AWH (R81). -/
  | awh (c : CtxId) (i : RRX)
  /-- ACMP (R81). -/
  | acmp (c : CtxId) (i : RRX)
  /-- LD (R82). -/
  | ld (c : CtxId) (i : RRX) (width : BitVec 3) (post : Bool) (rsv : BitVec 6)
  /-- ST (R82). -/
  | st (c : CtxId) (i : RRX) (width : BitVec 3) (post : Bool) (rsv : BitVec 6)
  /-- XADD (R85). -/
  | xadd (c : CtxId) (i : RRX) (width : BitVec 3) (post : Bool) (rsv : BitVec 6)
  /-- BR (R88). -/
  | br (c : CtxId) (i : RI)
  /-- JMP (R89). -/
  | jmp (c : CtxId) (i : RRX)
  /-- CALL (R89). -/
  | call (c : CtxId) (i : RRX)
  /-- LSETI (R90). -/
  | lseti (c : CtxId) (i : RI)
  /-- LSET (R90). -/
  | lset (c : CtxId) (i : RRX)
  /-- LGET (R90). -/
  | lget (c : CtxId) (i : RRX)
  /-- LEND (R90). -/
  | lend (c : CtxId) (i : RI)
  /-- WAITD (R92). -/
  | waitd (c : CtxId) (i : RRX) (tmo : Bool) (rsv : BitVec 6)
  /-- WAITU (R92). -/
  | waitu (c : CtxId) (i : RRX) (tmo : Bool) (rsv : BitVec 6)
  /-- WAITE (R92). -/
  | waite (c : CtxId) (i : RRX) (tmo : Bool) (rsv : BitVec 6)
  /-- SPAWN (R95). -/
  | spawn (c : CtxId) (i : RRX)
  /-- SPAWNL (R95). -/
  | spawnl (c : CtxId) (i : RRX)
  /-- JOIN (R95). -/
  | join (c : CtxId) (i : RRX)
  /-- SELF (R95). -/
  | self (c : CtxId) (i : RRX)
  /-- NOP (R95). -/
  | nop (c : CtxId) (i : RRX)
  /-- HALT (R95). -/
  | halt (c : CtxId) (i : RRX)
  /-- YIELD (R95). -/
  | yield (c : CtxId) (i : RRX)
  /-- FENCE (R95). -/
  | fence (c : CtxId) (i : RRX)
  /-- PAUSE (R95). -/
  | pause (c : CtxId) (i : RRX)
  /-- FCLR (R95). -/
  | fclr (c : CtxId) (i : RRX)
  /-- TCLR (R95). -/
  | tclr (c : CtxId) (i : RRX)
  /-- RDTIME (R95). -/
  | rdtime (c : CtxId) (i : RRX)
  /-- BRK (R95). -/
  | brk (c : CtxId) (i : RRX)
  /-- RDFLG (R95). -/
  | rdflg (c : CtxId) (i : RRX)
  /-- WRFLG (R95). -/
  | wrflg (c : CtxId) (i : RRX)
  /-- RDREG (R97). -/
  | rdreg (c : CtxId) (i : RRX)
  /-- WRREG (R97). -/
  | wrreg (c : CtxId) (i : RRX)
  /-- CHAN_MODE (R150). -/
  | chanMode (c : CtxId) (i : RRX) (sub rsv : BitVec 3)
  /-- CHAN_RANGE (R157). -/
  | chanRange (c : CtxId) (i : RRX) (sub rsv : BitVec 3)
  /-- CHAN_FORCE (R100). -/
  | chanForce (c : CtxId) (i : RRX) (sub rsv : BitVec 3)
  /-- CHAN_CLAMP (R163). -/
  | chanClamp (c : CtxId) (i : RRX) (sub rsv : BitVec 3)
  /-- CHAN_LEVEL (R100). -/
  | chanLevel (c : CtxId) (i : RRX) (sub rsv : BitVec 3)
  /-- CHAN_CONN (R151). -/
  | chanConn (c : CtxId) (i : RRX) (sub rsv : BitVec 3)
  /-- MEAS (R161). -/
  | meas (c : CtxId) (i : RRX) (sub rsv : BitVec 3)
  /-- BURST (R105). -/
  | burst (c : CtxId) (i : RRX) (blk : Bool) (rsv : BitVec 5)
  /-- SJMP (R260). -/
  | sjmp (c : CtxId) (i : RRX) (blk : Bool) (rsv : BitVec 5)
  /-- MLOOP (R266). -/
  | mloop (c : CtxId) (i : RRX) (blk : Bool) (rsv : BitVec 5)
  /-- STOP (R105). -/
  | stop (c : CtxId) (i : RRX) (blk : Bool) (rsv : BitVec 5)
  /-- ARM (R297). -/
  | arm (c : CtxId) (i : RRX)
  /-- DISARM (R309). -/
  | disarm (c : CtxId) (i : RRX)
  /-- TRIG (R304). -/
  | trig (c : CtxId) (i : RRX)
  /-- MLOAD (R347). -/
  | mload (c : CtxId) (i : RRX)
  /-- MSTART (R348). -/
  | mstart (c : CtxId) (i : RRX)
  /-- MWAIT (R109). -/
  | mwait (c : CtxId) (i : RRX)
  /-- SEND (R427). -/
  | send (c : CtxId) (i : RRX) (tmo lane : Bool) (rsv : BitVec 5)
  /-- RECV (R109). -/
  | recv (c : CtxId) (i : RRX) (tmo lane : Bool) (rsv : BitVec 5)
  /-- UNDEFINED_INSTRUCTION (R77). -/
  | undefinedInstruction (c : CtxId) (w : BitVec 24)
  /-- QUEUED_BURST_START (R106). -/
  | queuedBurstStart (n : Fin 24)
  /-- CONTEXT_RELEASE (R132). -/
  | contextRelease
  /-- WAKE_TIME_REACHED (R133). -/
  | wakeTimeReached (c : CtxId)
  /-- DEADLINE_MISS (R137). -/
  | deadlineMiss (c : CtxId)
  /-- PAUSE_INTERVAL_START (R493). -/
  | pauseIntervalStart
  /-- PAUSE_INTERVAL_END (R493). -/
  | pauseIntervalEnd
  /-- CLAIM (R122). -/
  | claim (m : Master) (lost : Bool)
  /-- START (R124). -/
  | start (m : Master) (lost : Bool)
  /-- RESUME (R125). -/
  | resume (m : Master) (lost : Bool)
  /-- PARK (R123). -/
  | park (m : Master)
  /-- KILL (R123). -/
  | kill (m : Master)
  /-- CTX_COMMAND_END (R626). -/
  | ctxCommandEnd
  /-- PARK_TAKES_EFFECT (R123). -/
  | parkTakesEffect (c : CtxId)
  /-- CONTEXT_WINDOW_WRITE (R144). -/
  | contextWindowWrite (p : Port) (slot : Fin 32) (v : BitVec 32)
  /-- SITE_WINDOW_WRITE (R140). -/
  | siteWindowWrite (p : Port) (slot : Fin 4) (v : BitVec 32)
  /-- SITE_MAP_WRITE (R140). -/
  | siteMapWrite (p : Port) (c : Fin 768) (v : BitVec 32)
  /-- RESIDENCE_MOVE (R128). -/
  | residenceMove (sh : Fin 25) (slot : Fin 4)
  /-- QUANTUM_EXPIRY (R130). -/
  | quantumExpiry (sh : Fin 25)
  /-- CHAN_CTRL_WRITE (R622). -/
  | chanCtrlWrite (m : Master) (c : ChanId) (v : BitVec 32)
  /-- FORCE_CODE_WRITE (R171). -/
  | forceCodeWrite (m : Master) (c : ChanId) (v : BitVec 32)
  /-- CLAMP_SLOT_WRITE (R164). -/
  | clampSlotWrite (m : Master) (c : ChanId) (current : Bool) (v : BitVec 32)
  /-- HUSK_FLAG_CLEAR (R172). -/
  | huskFlagClear (m : Master) (c : ChanId) (v : BitVec 32) (holds : BitVec 5)
  /-- CONVERSION_INSTANT (R160). -/
  | conversionInstant (c : ChanId) (v i : BitVec 24)
  /-- RAMP_COMPLETE (R55). -/
  | rampComplete (c : ChanId)
  /-- SETTLE_TIME_END (R186). -/
  | settleTimeEnd (c : ChanId)
  /-- HUSK_OVERSTRESS (R170). -/
  | huskOverstress (c : ChanId)
  /-- HUSK_SHORT (R170). -/
  | huskShort (c : ChanId)
  /-- HUSK_OPEN (R170). -/
  | huskOpen (c : ChanId)
  /-- HUSK_REVERSAL (R170). -/
  | huskReversal (c : ChanId)
  /-- BOOSTER_LOOP_SAMPLE (R178). -/
  | boosterLoopSample (i : Fin 384) (v sh : BitVec 24)
  /-- BOOSTER_UPDATE_APPLY (R179). -/
  | boosterUpdateApply (i : Fin 384)
  /-- BOOSTER_RAMP_PHASE_END (R182). -/
  | boosterRampPhaseEnd (i : Fin 384)
  /-- CMP_EDGE (R194). -/
  | cmpEdge (c : ChanId) (v : BitVec 24) (sub : Fin 10240)
  /-- MONITOR_TICK (R201). -/
  | monitorTick (id : MonId) (v : MonIn)
  /-- MON_CTRL_WRITE (R212). -/
  | monCtrlWrite (m : Master) (id : MonId) (v : BitVec 32)
  /-- MON_WIN_WRITE (R205). -/
  | monWinWrite (m : Master) (id : MonId) (v : BitVec 32)
  /-- SELVEDGE_PERIOD_BOUNDARY (R231). -/
  | selvedgePeriodBoundary (n : LoomId) (late : Bool)
  /-- BURST_PREFILL_COMPLETE (R43). -/
  | burstPrefillComplete (n : LoomId)
  /-- COMPARE_STROBE (R232). -/
  | compareStrobe (n : LoomId) (hi lo mid : BitVec 32)
  /-- BURST_END (R233). -/
  | burstEnd (n : LoomId)
  /-- FAIL_COUNT_UPDATE (R245). -/
  | failCountUpdate (n : LoomId)
  /-- FAIL_LOG_LINE_WRITE (R244). -/
  | failLogLineWrite (n : LoomId)
  /-- FAIL_LOG_FLUSH_TIMEOUT (R244). -/
  | failLogFlushTimeout (n : LoomId)
  /-- SERVICE_WINDOW_END (R47). -/
  | serviceWindowEnd (n : LoomId) (stop : BitVec 48)
  /-- REFILL_LINE_ARRIVES (R48). -/
  | refillLineArrives (n : LoomId) (e0 e1 : Ecc)
  /-- PLL_LOCK_LOSS (R237). -/
  | pllLockLoss (n : LoomId)
  /-- DLL_LOCK_LOSS (R237). -/
  | dllLockLoss (n : LoomId)
  /-- LOCK_ACQUIRED (R237). -/
  | lockAcquired (n : LoomId) (dll : Bool) (ctrl : BitVec 10)
  /-- TSET_COMMIT (R230). -/
  | tsetCommit (m : Master) (n : LoomId)
  /-- TSET_WINDOW_WRITE (R247). -/
  | tsetWindowWrite (m : Master) (slot : Fin 320) (v : BitVec 32)
  /-- FLOG_CTRL_WRITE (R248). -/
  | flogCtrlWrite (m : Master) (n : LoomId) (v : BitVec 32)
  /-- SEGMENT_DESCRIPTOR_WRITE (R250). -/
  | segmentDescriptorWrite (src : DescSrc) (seg : Fin 32768) (bytes : BitVec 128) (be : BitVec 16)
  /-- SEGT_WIN_STAGE_WRITE (R270). -/
  | segtWinStageWrite (m : Master) (slot : Fin 3) (v : BitVec 32)
  /-- SEGT_WIN3_WRITE (R270). -/
  | segtWin3Write (m : Master) (v : BitVec 32)
  /-- SEGT_BASE_WRITE (R257). -/
  | segtBaseWrite (m : Master) (v : BitVec 32)
  /-- DESCRIPTOR_FETCH_COMPLETE (R254). -/
  | descriptorFetchComplete (n : LoomId) (e : Ecc)
  /-- PIN_LOAD (R259). -/
  | pinLoad (m : Master) (n : LoomId) (v : BitVec 32)
  /-- PIN_FLUSH (R259). -/
  | pinFlush (m : Master) (n : LoomId)
  /-- PIN_LOAD_COMPLETE (R259). -/
  | pinLoadComplete (n : LoomId) (e : Ecc)
  /-- MLOOP_VERDICT (R266). -/
  | mloopVerdict (n : LoomId)
  /-- TWILL_WINDOW_WRITE (R269). -/
  | twillWindowWrite (m : Master) (n : LoomId) (slot : Fin 256) (v : BitVec 32)
  /-- WFM_ENABLE (R274). -/
  | wfmEnable (m : Master) (c : ChanId)
  /-- WFM_RATE_COMMIT (R283). -/
  | wfmRateCommit (m : Master) (c : ChanId)
  /-- WFM_PREFILL_COMPLETE (R282). -/
  | wfmPrefillComplete (c : ChanId)
  /-- WFM_OUTPUT_INSTANT (R279). -/
  | wfmOutputInstant (c : ChanId)
  /-- WFM_SAMPLE_LINE_ARRIVES (R288). -/
  | wfmSampleLineArrives (c : ChanId) (e : Ecc)
  /-- CAP_ARM_WRITE (R297). -/
  | capArmWrite (m : Master) (n : LoomId) (v : BitVec 32)
  /-- CAP_CMD_TRIG (R304). -/
  | capCmdTrig (m : Master) (n : LoomId)
  /-- CAP_CMD_DISARM (R309). -/
  | capCmdDisarm (m : Master) (n : LoomId)
  /-- ARMING_COMPLETE (R299). -/
  | armingComplete (n : LoomId)
  /-- CAPTURE_SAMPLE_INSTANT (R293). -/
  | captureSampleInstant (n : LoomId) (codes : List (BitVec 24))
  /-- TRIGGER_DECISION (R305). -/
  | triggerDecision (n : LoomId) (ev : TrigEvent) (place : Nat)
  /-- CAPTURE_FRAME_RELEASE (R311). -/
  | captureFrameRelease (n : LoomId) (e : Ecc)
  /-- REARM_COMPLETE (R307). -/
  | rearmComplete (n : LoomId)
  /-- TME_CMD_ARM (R321). -/
  | tmeCmdArm (m : Master) (d : Fin 192) (stop : Bool)
  /-- TME_CMD_STOP (R326). -/
  | tmeCmdStop (m : Master) (d : Fin 192)
  /-- TME_ARM_COMPLETE (R321). -/
  | tmeArmComplete (d : Fin 192)
  /-- TME_START_TIME (R322). -/
  | tmeStartTime (d : Fin 192)
  /-- TME_TIMESTAMP (R317). -/
  | tmeTimestamp (d : Fin 192) (b rising : Bool) (t : Nat)
  /-- TME_GATE_CLOSE (R318). -/
  | tmeGateClose (d : Fin 192)
  /-- TME_SAMPLE_TIMEOUT (R320). -/
  | tmeSampleTimeout (d : Fin 192)
  /-- MILL_CMD_START (R348). -/
  | millCmdStart (m : Master) (n : LoomId) (entry : BitVec 11) (stop : Bool)
  /-- MILL_CMD_STOP (R350). -/
  | millCmdStop (m : Master) (n : LoomId)
  /-- QUEUED_MILL_START (R348). -/
  | queuedMillStart (n : LoomId)
  /-- MILL_LANE_SAMPLE (R338). -/
  | millLaneSample (n : LoomId) (src : Fin 34) (code : BitVec 24)
  /-- SPARE_CONVERSION (R337). -/
  | spareConversion (n : LoomId) (s33 : Bool) (code : BitVec 24)
  /-- MILL_NOP (R341). -/
  | millNop (n : LoomId) (w : BitVec 19)
  /-- MILL_MAC (R341). -/
  | millMac (n : LoomId) (w : BitVec 19)
  /-- MILL_MSU (R341). -/
  | millMsu (n : LoomId) (w : BitVec 19)
  /-- MILL_MPY (R341). -/
  | millMpy (n : LoomId) (w : BitVec 19)
  /-- MILL_AADD (R341). -/
  | millAadd (n : LoomId) (w : BitVec 19)
  /-- MILL_ALD (R341). -/
  | millAld (n : LoomId) (w : BitVec 19)
  /-- MILL_ARD (R332). -/
  | millArd (n : LoomId) (w : BitVec 19)
  /-- MILL_ALDM (R341). -/
  | millAldm (n : LoomId) (w : BitVec 19)
  /-- MILL_ASAV (R341). -/
  | millAsav (n : LoomId) (w : BitVec 19)
  /-- MILL_VLD (R341). -/
  | millVld (n : LoomId) (w : BitVec 19)
  /-- MILL_VST (R341). -/
  | millVst (n : LoomId) (w : BitVec 19)
  /-- MILL_VSET (R341). -/
  | millVset (n : LoomId) (w : BitVec 19)
  /-- MILL_VSETH (R341). -/
  | millVseth (n : LoomId) (w : BitVec 19)
  /-- MILL_VALU (R341). -/
  | millValu (n : LoomId) (w : BitVec 19)
  /-- MILL_VADDI (R341). -/
  | millVaddi (n : LoomId) (w : BitVec 19)
  /-- MILL_AGSET (R341). -/
  | millAgset (n : LoomId) (w : BitVec 19)
  /-- MILL_AGMOD (R341). -/
  | millAgmod (n : LoomId) (w : BitVec 19)
  /-- MILL_AGMOV (R341). -/
  | millAgmov (n : LoomId) (w : BitVec 19)
  /-- MILL_AGSTEP (R334). -/
  | millAgstep (n : LoomId) (w : BitVec 19)
  /-- MILL_JMP (R341). -/
  | millJmp (n : LoomId) (w : BitVec 19)
  /-- MILL_LOOP (R342). -/
  | millLoop (n : LoomId) (w : BitVec 19)
  /-- MILL_WAITIN (R343). -/
  | millWaitin (n : LoomId) (w : BitVec 19)
  /-- MILL_GADR (R341). -/
  | millGadr (n : LoomId) (w : BitVec 19)
  /-- MILL_GRD (R344). -/
  | millGrd (n : LoomId) (w : BitVec 19)
  /-- MILL_GSYNC (R341). -/
  | millGsync (n : LoomId) (w : BitVec 19)
  /-- MILL_TRIG (R345). -/
  | millTrig (n : LoomId) (w : BitVec 19)
  /-- MILL_HALT (R341). -/
  | millHalt (n : LoomId) (w : BitVec 19)
  /-- MILL_UNDEFINED_OPERATION (R340). -/
  | millUndefinedOperation (n : LoomId) (w : BitVec 24)
  /-- MILL_IDLE (R350). -/
  | millIdle (n : LoomId)
  /-- MILL_WINDOW_WRITE (R356). -/
  | millWindowWrite (m : Master) (i : Fin 8192) (v : BitVec 32)
  /-- TIM_COMMIT (R362). -/
  | timCommit (m : Master) (o : Fin 2)
  /-- LAYER_COMMIT (R364). -/
  | layerCommit (m : Master) (o : Fin 2)
  /-- RASTER_SLOT (R359). -/
  | rasterSlot (o : Fin 2)
  /-- PCIE_CONFIG_REQUEST (R388). -/
  | pcieConfigRequest (write : Bool) (reg : BitVec 10) (v : BitVec 32)
  /-- CFG_COMMIT (R388). -/
  | cfgCommit (m : Master)
  /-- PCIE_CONVENTIONAL_RESET (R389). -/
  | pcieConventionalReset
  /-- HOT_RESET (R389). -/
  | hotReset
  /-- LINK_DOWN (R389). -/
  | linkDown
  /-- FUNCTION_LEVEL_RESET (R389). -/
  | functionLevelReset
  /-- BUS_MASTER_ENABLE_CHANGE (R390). -/
  | busMasterEnableChange (bme d3 : Bool)
  /-- MSIX_UNMASK (R400). -/
  | msixUnmask (v : Fin 64)
  /-- IRQ_SW_SET (R402). -/
  | irqSwSet (m : Master) (v : BitVec 32)
  /-- DMA_TAIL_WRITE (R406). -/
  | dmaTailWrite (m : Master) (i : Fin 8) (v : BitVec 32)
  /-- DMA_RESET_RING (R412). -/
  | dmaResetRing (m : Master) (i : Fin 8)
  /-- REED_ENABLE (R421). -/
  | reedEnable (m : Master)
  /-- REED_DISABLE (R431). -/
  | reedDisable (m : Master)
  /-- REED_RESYNC (R425). -/
  | reedResync (m : Master)
  /-- ECHO_NOW (R423). -/
  | echoNow (m : Master)
  /-- DELAY_TRIM_WRITE (R424). -/
  | delayTrimWrite (m : Master) (v : BitVec 32)
  /-- CLOCK_CLEANER_LOCK (R421). -/
  | clockCleanerLock
  /-- REED_CLOCK_LOSS (R430). -/
  | reedClockLoss
  /-- EVENT_FRAME (R419). -/
  | eventFrame (f : BitVec 64) (lane : Bool)
  /-- SYNC_FRAME (R425). -/
  | syncFrame (f : BitVec 64) (taps : Fin 10240)
  /-- POLL_FRAME (R422). -/
  | pollFrame (f : BitVec 64)
  /-- DELAY_FRAME (R424). -/
  | delayFrame (f : BitVec 64)
  /-- UP_EVENT (R427). -/
  | upEvent (f : BitVec 64)
  /-- REPLY (R422). -/
  | reply (f : BitVec 64) (rtt : BitVec 32)
  /-- REED_FRAME_EMIT (R420). -/
  | reedFrameEmit (lane : Bool)
  /-- SYNC_EMISSION (R425). -/
  | syncEmission
  /-- ECHO_POLL_TIMER (R423). -/
  | echoPollTimer
  /-- BACKGROUND_ECHO_ROUND (R423). -/
  | backgroundEchoRound
  /-- UPLINK_SLOT (R427). -/
  | uplinkSlot
  /-- REED_EVENT_ACT (R428). -/
  | reedEventAct (t : BitVec 48)
  /-- DELAY_SLEW_STEP (R424). -/
  | delaySlewStep
  /-- FLASH_DIRECT_COMMAND (R438). -/
  | flashDirectCommand (m : Master) (v : BitVec 32)
  /-- XIP_CACHE_FILL_COMPLETE (R442). -/
  | xipCacheFillComplete (raw : BitVec 32768) (dqs : Bool)
  /-- FL_XIP_WRITE (R440). -/
  | flXipWrite (m : Master) (v : BitVec 32)
  /-- BOARD_PORT_FRAME_START (R449). -/
  | boardPortFrameStart (sckHigh : Bool)
  /-- BOARD_PORT_WORD_READ (R450). -/
  | boardPortWordRead (word0 : BitVec 24) (arrived : Bool)
  /-- BOARD_PORT_FRAME_END (R447). -/
  | boardPortFrameEnd (din : List (BitVec 24)) (rising falling : Nat) (sckHigh : Bool)
  /-- BOARD_PORT_WRITE_APPLY (R452). -/
  | boardPortWriteApply
  /-- CAL_FULL (R469). -/
  | calFull (m : Master) (stop : Bool)
  /-- CAL_STOP (R472). -/
  | calStop (m : Master)
  /-- CAL_COMMIT (R466). -/
  | calCommit (m : Master)
  /-- CAL_DISCARD (R468). -/
  | calDiscard (m : Master)
  /-- CAL_DUMP (R481). -/
  | calDump (m : Master)
  /-- CAL_LOAD (R482). -/
  | calLoad (m : Master)
  /-- CAL_ROLL_ENABLE (R475). -/
  | calRollEnable (m : Master) (v : Bool)
  /-- CAL_TIME_ARM (R461). -/
  | calTimeArm (m : Master)
  /-- CAL_TIME_EDGE (R461). -/
  | calTimeEdge (t : Nat)
  /-- CAL_WINDOW_WRITE (R465). -/
  | calWindowWrite (m : Master) (off : BitVec 12) (v : BitVec 32)
  /-- CAL_PHASE_COMPLETE (R470). -/
  | calPhaseComplete (r : PhaseRes)
  /-- CORE_CALIBRATION_COMPLETE (R477). -/
  | coreCalibrationComplete (n : LoomId) (ok : Bool) (rec : List (BitVec 32))
  /-- ROLLING_CYCLE_START (R475). -/
  | rollingCycleStart (n : LoomId)
  /-- CORE_EXCHANGE (R479). -/
  | coreExchange (n : LoomId)
  /-- EXCHANGE_COMPLETE (R485). -/
  | exchangeComplete (n : LoomId)
  /-- CAL_HASH_READY (R483). -/
  | calHashReady
  /-- SENSOR_UPDATE (R492). -/
  | sensorUpdate (readings : List (Option Int))
  /-- POWER_UPDATE (R496). -/
  | powerUpdate (avg : Nat)
  /-- SAFE_STATE_RAMPS_END (R501). -/
  | safeStateRampsEnd
  /-- SAFE (R500). -/
  | safe (m : Master)
  /-- CLEAR_SAFE (R500). -/
  | clearSafe (m : Master)
  /-- THERMAL_ACK (R502). -/
  | thermalAck (m : Master)
  /-- RESUME_TIMER (R502). -/
  | resumeTimer
  /-- LOG_HOST_RECORD (R507). -/
  | logHostRecord (p : Port) (v : BitVec 32)
  /-- LOG_RECORD_WRITE (R504). -/
  | logRecordWrite
  /-- LIFETIME_HOUR_UPDATE (R508). -/
  | lifetimeHourUpdate
  /-- MACHINE_CHECK (R518). -/
  | machineCheck (sh : Fin 25) (c : CtxId)
  /-- CONTROL_STORE_REFILL_COMPLETE (R518). -/
  | controlStoreRefillComplete (sh : Fin 25) (sourceBad : Bool)
  /-- SURE_MODE_MISMATCH (R530). -/
  | sureModeMismatch (sh : Fin 25) (c : CtxId)
  /-- UCODE_LOAD (R522). -/
  | ucodeLoad (m : Master)
  /-- UCODE_SWAP (R524). -/
  | ucodeSwap (m : Master)
  /-- SWAP_ABORT (R527). -/
  | swapAbort (m : Master)
  /-- SURE_ENTER (R531). -/
  | sureEnter (m : Master)
  /-- SURE_EXIT (R531). -/
  | sureExit (m : Master)
  /-- SHUTTLE_SWAP (R526). -/
  | shuttleSwap (sh : Fin 25) (mismatches : Fin 3)
  /-- SWAP_TIMEOUT (R527). -/
  | swapTimeout (sh : Fin 25)
  /-- OWNER_WRITE (R537). -/
  | ownerWrite (m : Master) (slot : Fin 3) (v : BitVec 32)
  /-- SEIZE (R539). -/
  | seize (m : Master) (v : BitVec 32)
  /-- QUARANTINE_COMMAND (R543). -/
  | quarantineCommand (m : Master) (n : LoomId)
  /-- DIE_HUB_LINK_FAILURE (R543). -/
  | dieHubLinkFailure (d : Fin 4)
  /-- QUARANTINE_BEGIN (R544). -/
  | quarantineBegin (n : LoomId)
  /-- QUARANTINE_RELEASE (R547). -/
  | quarantineRelease (m : Master) (n : LoomId)
  /-- CONTEXT_STORE_ERROR (R548). -/
  | contextStoreError (h : StoreHit)
  /-- SPARE_OUT (R554). -/
  | spareOut (m : Master) (n : LoomId) (k : Fin 32)
  /-- SPARE_RETURN (R554). -/
  | spareReturn (m : Master) (n : LoomId) (k : Fin 32)
  /-- MARK_FAILED (R552). -/
  | markFailed (m : Master) (n : LoomId) (j : Fin 34)
  /-- EVC_SOURCE_WRITE (R556). -/
  | evcSourceWrite (m : Master) (loom : Option LoomId) (i : Fin 16) (v : BitVec 32)
  /-- EVC_RUN_WRITE (R558). -/
  | evcRunWrite (m : Master) (v : BitVec 32)
  /-- EVC_SYNC_START (R558). -/
  | evcSyncStart
  /-- CLEAR_ALL (R563). -/
  | clearAll (m : Master)
  /-- POWER_GOOD (R575). -/
  | powerGood
  /-- BROWN_OUT (R577). -/
  | brownOut (torn : Fin 16)
  /-- VHI_VLO_BROWN_OUT (R578). -/
  | vhiVloBrownOut
  /-- AVS_VCORE_STEP (R576). -/
  | avsVcoreStep (target : Nat) (answered : Bool)
  /-- TAP_RESET (R591). -/
  | tapReset
  /-- EXTEST (R589). -/
  | extest (balls shifted : BitVec 43)
  /-- IDCODE (R590). -/
  | idcode
  /-- SAMPLE_PRELOAD (R589). -/
  | samplePreload (balls shifted : BitVec 43)
  /-- CLAMP (R589). -/
  | clamp
  /-- HIGHZ (R589). -/
  | highz
  /-- BYPASS (R589). -/
  | bypass
  /-- PIN_RESET (R594). -/
  | pinReset (torn : Fin 16)
  /-- RESET_RELEASE (R598). -/
  | resetRelease
  /-- INTERNAL_RESET_RELEASE (R596). -/
  | internalResetRelease
  /-- BOOT_VERIFY_COMPLETE (R602). -/
  | bootVerifyComplete (flash : BootFlash)
  /-- BOOT_WATCHDOG_EXPIRY (R599). -/
  | bootWatchdogExpiry
  /-- LOCK (R607). -/
  | lock (m : Master)
  /-- PUBKEY (R611). -/
  | pubkey (m : Master)
  /-- DEV_RESET (R615). -/
  | devReset (m : Master) (v : BitVec 32)
  /-- READY (R606). -/
  | ready (m : Master)
  /-- ICACHE_INVALIDATE_COMPLETE (R67). -/
  | icacheInvalidateComplete (sh : Fin 25)
  /-- REED_BAD_FRAME (R419). -/
  | reedBadFrame (f : BitVec 64) (lane : Fin 3)
  /-- PCIE_LINK_UP (R403). -/
  | pcieLinkUp (speed : BitVec 4) (width : BitVec 6)
  /-- DIE_HUB_LINK_RESTORED (R547). -/
  | dieHubLinkRestored (d : Fin 4)
  /-- TRIM_STORE_ERROR (R552). -/
  | trimStoreError (n : LoomId) (j : Fin 34)
  /-- TME_COUNT_SNAPSHOT_READ (R324). -/
  | tmeCountSnapshotRead (p : Port) (d : Fin 192)
  deriving DecidableEq, Repr

end Sys2Proof
end

