-- ==== Sys2Proof/Decode.lean ====
section
/-! DEFINITION. The command table gives no row any bits, so no word spells a command to the queue. The words of the spec's
own programs are here: a shuttle's instructions (R69 to R72, R77) and a Mill's operations (R340, R341), both ways. -/
namespace Sys2Proof

/-- The command that a word spells by the table's bits: the table gives no row any. -/
def decodeTableWord (_nbits _w : Nat) : Option Instr := none

/-! The fields of an instruction word (R69). -/

def opOf (w : BitVec 24) : BitVec 5 := w.extractLsb' 19 5
def dOf (w : BitVec 24) : BitVec 4 := w.extractLsb' 15 4
def sOf (w : BitVec 24) : BitVec 4 := w.extractLsb' 11 4
def xOf (w : BitVec 24) : Bool := w.getLsbD 10
def fOf (w : BitVec 24) : BitVec 10 := w.extractLsb' 0 10
def immOf (w : BitVec 24) : BitVec 15 := w.extractLsb' 0 15

/-- An RR or X word (R72). -/
def rrWord (op : BitVec 5) (d s : BitVec 4) (x : Bool) (f : BitVec 10) : BitVec 24 := op ++ d ++ s ++ BitVec.ofBool x ++ f

/-- Whether the opcode of `w` has a function field (R77): no reserved opcode and no RI opcode has one. -/
def hasFunction (w : BitVec 24) : Bool :=
  ([0x00, 0x06, 0x07, 0x08, 0x09, 0x0B, 0x0D, 0x0F, 0x10, 0x11, 0x12, 0x13, 0x14, 0x15, 0x16, 0x17] : List Nat).contains (opOf w).toNat

/-- Whether an extension word follows `w` (R69, R77): bit 10 of a word that has a function field. -/
def hasExt (w : BitVec 24) : Bool := xOf w && hasFunction w

/-- The entry of the dispatch table by which `w` enters its sequence of microwords (R514): opcode × 32 + function[4:0]; an opcode
of RI form uses function 0. -/
def dispatchIndex (w : BitVec 24) : Nat := 32 * (opOf w).toNat + (if hasFunction w then (fOf w).toNat % 32 else 0)

/-- An RI word (R72). -/
def riWord (op : BitVec 5) (d : BitVec 4) (imm : BitVec 15) : BitVec 24 := op ++ d ++ imm

/-! Instructions by opcode and function; none where the function is undefined (R77). -/

/-- Opcode 0x00. -/
def decodeAlu (c : CtxId) (i : RRX) : Nat → Option Instr
  | 1 => some (.add c i)
  | 2 => some (.sub c i)
  | 3 => some (.andI c i)
  | 4 => some (.orI c i)
  | 5 => some (.xorI c i)
  | 6 => some (.mov c i)
  | 7 => some (.cmp c i)
  | 8 => some (.tst c i)
  | 9 => some (.shl c i)
  | 10 => some (.shr c i)
  | 11 => some (.sar c i)
  | 12 => some (.mul c i)
  | 13 => some (.mulh c i)
  | 14 => some (.mulhu c i)
  | 15 => some (.notI c i)
  | 16 => some (.neg c i)
  | 17 => some (.minI c i)
  | 18 => some (.maxI c i)
  | 19 => some (.abs c i)
  | _ => none

/-- Opcode 0x06. -/
def decodeAdr (c : CtxId) (i : RRX) : Nat → Option Instr
  | 1 => some (.alea c i)
  | 2 => some (.aadd c i)
  | 3 => some (.ahi c i)
  | 4 => some (.asite c i)
  | 5 => some (.ardl c i)
  | 6 => some (.ardh c i)
  | 7 => some (.awl c i)
  | 8 => some (.awh c i)
  | 9 => some (.acmp c i)
  | _ => none

/-- Opcode 0x0B. -/
def decodeJmp (c : CtxId) (i : RRX) : Nat → Option Instr
  | 1 => some (.jmp c i)
  | 2 => some (.call c i)
  | _ => none

/-- Opcode 0x0D. -/
def decodeLreg (c : CtxId) (i : RRX) : Nat → Option Instr
  | 1 => some (.lset c i)
  | 2 => some (.lget c i)
  | _ => none

/-- Opcode 0x10. -/
def decodeThread (c : CtxId) (i : RRX) : Nat → Option Instr
  | 1 => some (.spawn c i)
  | 2 => some (.spawnl c i)
  | 3 => some (.join c i)
  | 4 => some (.self c i)
  | _ => none

/-- Opcode 0x11. -/
def decodeSys (c : CtxId) (i : RRX) : Nat → Option Instr
  | 1 => some (.nop c i)
  | 2 => some (.halt c i)
  | 3 => some (.yield c i)
  | 4 => some (.fence c i)
  | 5 => some (.pause c i)
  | 6 => some (.fclr c i)
  | 7 => some (.tclr c i)
  | 8 => some (.rdtime c i)
  | 9 => some (.brk c i)
  | 10 => some (.rdflg c i)
  | 11 => some (.wrflg c i)
  | _ => none

/-- Opcode 0x12. -/
def decodeReg (c : CtxId) (i : RRX) : Nat → Option Instr
  | 1 => some (.rdreg c i)
  | 2 => some (.wrreg c i)
  | _ => none

/-- Opcode 0x15. -/
def decodeCap (c : CtxId) (i : RRX) : Nat → Option Instr
  | 1 => some (.arm c i)
  | 2 => some (.disarm c i)
  | 3 => some (.trig c i)
  | _ => none

/-- Opcode 0x16. -/
def decodeMill (c : CtxId) (i : RRX) : Nat → Option Instr
  | 1 => some (.mload c i)
  | 2 => some (.mstart c i)
  | 3 => some (.mwait c i)
  | _ => none

/-- Opcode 0x0F: kind, timeout enable, reserved bits (R92). -/
def decodeWait (c : CtxId) (i : RRX) (f : BitVec 10) : Option Instr :=
  match (f.extractLsb' 0 3).toNat with
  | 0 => some (.waitd c i (f.getLsbD 3) (f.extractLsb' 4 6))
  | 1 => some (.waitu c i (f.getLsbD 3) (f.extractLsb' 4 6))
  | 2 => some (.waite c i (f.getLsbD 3) (f.extractLsb' 4 6))
  | _ => none

/-- Opcode 0x13: operation, sub-field, reserved bits (R100). -/
def decodeChan (c : CtxId) (i : RRX) (f : BitVec 10) : Option Instr :=
  match (f.extractLsb' 0 4).toNat with
  | 0 => some (.chanMode c i (f.extractLsb' 4 3) (f.extractLsb' 7 3))
  | 1 => some (.chanRange c i (f.extractLsb' 4 3) (f.extractLsb' 7 3))
  | 2 => some (.chanForce c i (f.extractLsb' 4 3) (f.extractLsb' 7 3))
  | 3 => some (.chanClamp c i (f.extractLsb' 4 3) (f.extractLsb' 7 3))
  | 4 => some (.chanLevel c i (f.extractLsb' 4 3) (f.extractLsb' 7 3))
  | 5 => some (.chanConn c i (f.extractLsb' 4 3) (f.extractLsb' 7 3))
  | 6 => some (.meas c i (f.extractLsb' 4 3) (f.extractLsb' 7 3))
  | _ => none

/-- Opcode 0x14: operation, blocking, reserved bits (R105). -/
def decodePat (c : CtxId) (i : RRX) (f : BitVec 10) : Option Instr :=
  match (f.extractLsb' 0 4).toNat with
  | 1 => some (.burst c i (f.getLsbD 4) (f.extractLsb' 5 5))
  | 2 => some (.sjmp c i (f.getLsbD 4) (f.extractLsb' 5 5))
  | 3 => some (.mloop c i (f.getLsbD 4) (f.extractLsb' 5 5))
  | 4 => some (.stop c i (f.getLsbD 4) (f.extractLsb' 5 5))
  | _ => none

/-- Opcode 0x17: operation, timeout, lane, reserved bits (R109). -/
def decodeReed (c : CtxId) (i : RRX) (f : BitVec 10) : Option Instr :=
  match (f.extractLsb' 0 3).toNat with
  | 1 => some (.send c i (f.getLsbD 3) (f.getLsbD 4) (f.extractLsb' 5 5))
  | 2 => some (.recv c i (f.getLsbD 3) (f.getLsbD 4) (f.extractLsb' 5 5))
  | _ => none

/-- The instruction of a word whose opcode is defined and whose function the group defines. `e` is the word after it. -/
def decodeDefined (c : CtxId) (w e : BitVec 24) : Option Instr :=
  let i : RRX := ⟨dOf w, sOf w, xOf w, if xOf w then e else 0⟩
  let r : RI := ⟨dOf w, immOf w⟩
  let f := fOf w
  match (opOf w).toNat with
  | 0x00 => decodeAlu c i f.toNat
  | 0x01 => some (.addi c r)
  | 0x02 => some (.movi c r)
  | 0x03 => some (.cmpi c r)
  | 0x04 => some (.andi c r)
  | 0x05 => some (.ori c r)
  | 0x06 => decodeAdr c i f.toNat
  | 0x07 => some (.ld c i (f.extractLsb' 0 3) (f.getLsbD 3) (f.extractLsb' 4 6))
  | 0x08 => some (.st c i (f.extractLsb' 0 3) (f.getLsbD 3) (f.extractLsb' 4 6))
  | 0x09 => some (.xadd c i (f.extractLsb' 0 3) (f.getLsbD 3) (f.extractLsb' 4 6))
  | 0x0A => some (.br c r)
  | 0x0B => decodeJmp c i f.toNat
  | 0x0C => some (.lseti c r)
  | 0x0D => decodeLreg c i f.toNat
  | 0x0E => some (.lend c r)
  | 0x0F => decodeWait c i f
  | 0x10 => decodeThread c i f.toNat
  | 0x11 => decodeSys c i f.toNat
  | 0x12 => decodeReg c i f.toNat
  | 0x13 => decodeChan c i f
  | 0x14 => decodePat c i f
  | 0x15 => decodeCap c i f.toNat
  | 0x16 => decodeMill c i f.toNat
  | 0x17 => decodeReed c i f
  | _ => none

/-- The instruction that context `c` meets at a word `w` followed by `e`: total, undefined words by name (R77). -/
def decodeShuttle (c : CtxId) (w e : BitVec 24) : Instr := (decodeDefined c w e).getD (.undefinedInstruction c w)

/-- The words of an instruction: its context, its first word, and the word after it (0 where it has none). -/
def encodeShuttle : Instr → Option (CtxId × BitVec 24 × BitVec 24)
  | .add c i => some (c, rrWord 0x00 i.d i.s i.x 0x001, i.ext)
  | .sub c i => some (c, rrWord 0x00 i.d i.s i.x 0x002, i.ext)
  | .andI c i => some (c, rrWord 0x00 i.d i.s i.x 0x003, i.ext)
  | .orI c i => some (c, rrWord 0x00 i.d i.s i.x 0x004, i.ext)
  | .xorI c i => some (c, rrWord 0x00 i.d i.s i.x 0x005, i.ext)
  | .mov c i => some (c, rrWord 0x00 i.d i.s i.x 0x006, i.ext)
  | .cmp c i => some (c, rrWord 0x00 i.d i.s i.x 0x007, i.ext)
  | .tst c i => some (c, rrWord 0x00 i.d i.s i.x 0x008, i.ext)
  | .shl c i => some (c, rrWord 0x00 i.d i.s i.x 0x009, i.ext)
  | .shr c i => some (c, rrWord 0x00 i.d i.s i.x 0x00A, i.ext)
  | .sar c i => some (c, rrWord 0x00 i.d i.s i.x 0x00B, i.ext)
  | .mul c i => some (c, rrWord 0x00 i.d i.s i.x 0x00C, i.ext)
  | .mulh c i => some (c, rrWord 0x00 i.d i.s i.x 0x00D, i.ext)
  | .mulhu c i => some (c, rrWord 0x00 i.d i.s i.x 0x00E, i.ext)
  | .notI c i => some (c, rrWord 0x00 i.d i.s i.x 0x00F, i.ext)
  | .neg c i => some (c, rrWord 0x00 i.d i.s i.x 0x010, i.ext)
  | .minI c i => some (c, rrWord 0x00 i.d i.s i.x 0x011, i.ext)
  | .maxI c i => some (c, rrWord 0x00 i.d i.s i.x 0x012, i.ext)
  | .abs c i => some (c, rrWord 0x00 i.d i.s i.x 0x013, i.ext)
  | .alea c i => some (c, rrWord 0x06 i.d i.s i.x 0x001, i.ext)
  | .aadd c i => some (c, rrWord 0x06 i.d i.s i.x 0x002, i.ext)
  | .ahi c i => some (c, rrWord 0x06 i.d i.s i.x 0x003, i.ext)
  | .asite c i => some (c, rrWord 0x06 i.d i.s i.x 0x004, i.ext)
  | .ardl c i => some (c, rrWord 0x06 i.d i.s i.x 0x005, i.ext)
  | .ardh c i => some (c, rrWord 0x06 i.d i.s i.x 0x006, i.ext)
  | .awl c i => some (c, rrWord 0x06 i.d i.s i.x 0x007, i.ext)
  | .awh c i => some (c, rrWord 0x06 i.d i.s i.x 0x008, i.ext)
  | .acmp c i => some (c, rrWord 0x06 i.d i.s i.x 0x009, i.ext)
  | .jmp c i => some (c, rrWord 0x0B i.d i.s i.x 0x001, i.ext)
  | .call c i => some (c, rrWord 0x0B i.d i.s i.x 0x002, i.ext)
  | .lset c i => some (c, rrWord 0x0D i.d i.s i.x 0x001, i.ext)
  | .lget c i => some (c, rrWord 0x0D i.d i.s i.x 0x002, i.ext)
  | .spawn c i => some (c, rrWord 0x10 i.d i.s i.x 0x001, i.ext)
  | .spawnl c i => some (c, rrWord 0x10 i.d i.s i.x 0x002, i.ext)
  | .join c i => some (c, rrWord 0x10 i.d i.s i.x 0x003, i.ext)
  | .self c i => some (c, rrWord 0x10 i.d i.s i.x 0x004, i.ext)
  | .nop c i => some (c, rrWord 0x11 i.d i.s i.x 0x001, i.ext)
  | .halt c i => some (c, rrWord 0x11 i.d i.s i.x 0x002, i.ext)
  | .yield c i => some (c, rrWord 0x11 i.d i.s i.x 0x003, i.ext)
  | .fence c i => some (c, rrWord 0x11 i.d i.s i.x 0x004, i.ext)
  | .pause c i => some (c, rrWord 0x11 i.d i.s i.x 0x005, i.ext)
  | .fclr c i => some (c, rrWord 0x11 i.d i.s i.x 0x006, i.ext)
  | .tclr c i => some (c, rrWord 0x11 i.d i.s i.x 0x007, i.ext)
  | .rdtime c i => some (c, rrWord 0x11 i.d i.s i.x 0x008, i.ext)
  | .brk c i => some (c, rrWord 0x11 i.d i.s i.x 0x009, i.ext)
  | .rdflg c i => some (c, rrWord 0x11 i.d i.s i.x 0x00A, i.ext)
  | .wrflg c i => some (c, rrWord 0x11 i.d i.s i.x 0x00B, i.ext)
  | .rdreg c i => some (c, rrWord 0x12 i.d i.s i.x 0x001, i.ext)
  | .wrreg c i => some (c, rrWord 0x12 i.d i.s i.x 0x002, i.ext)
  | .arm c i => some (c, rrWord 0x15 i.d i.s i.x 0x001, i.ext)
  | .disarm c i => some (c, rrWord 0x15 i.d i.s i.x 0x002, i.ext)
  | .trig c i => some (c, rrWord 0x15 i.d i.s i.x 0x003, i.ext)
  | .mload c i => some (c, rrWord 0x16 i.d i.s i.x 0x001, i.ext)
  | .mstart c i => some (c, rrWord 0x16 i.d i.s i.x 0x002, i.ext)
  | .mwait c i => some (c, rrWord 0x16 i.d i.s i.x 0x003, i.ext)
  | .addi c r => some (c, riWord 0x01 r.d r.imm, 0)
  | .movi c r => some (c, riWord 0x02 r.d r.imm, 0)
  | .cmpi c r => some (c, riWord 0x03 r.d r.imm, 0)
  | .andi c r => some (c, riWord 0x04 r.d r.imm, 0)
  | .ori c r => some (c, riWord 0x05 r.d r.imm, 0)
  | .br c r => some (c, riWord 0x0A r.d r.imm, 0)
  | .lseti c r => some (c, riWord 0x0C r.d r.imm, 0)
  | .lend c r => some (c, riWord 0x0E r.d r.imm, 0)
  | .ld c i width post rsv => some (c, rrWord 0x07 i.d i.s i.x (rsv ++ BitVec.ofBool post ++ width), i.ext)
  | .st c i width post rsv => some (c, rrWord 0x08 i.d i.s i.x (rsv ++ BitVec.ofBool post ++ width), i.ext)
  | .xadd c i width post rsv => some (c, rrWord 0x09 i.d i.s i.x (rsv ++ BitVec.ofBool post ++ width), i.ext)
  | .waitd c i tmo rsv => some (c, rrWord 0x0F i.d i.s i.x (rsv ++ BitVec.ofBool tmo ++ (0 : BitVec 3)), i.ext)
  | .waitu c i tmo rsv => some (c, rrWord 0x0F i.d i.s i.x (rsv ++ BitVec.ofBool tmo ++ (1 : BitVec 3)), i.ext)
  | .waite c i tmo rsv => some (c, rrWord 0x0F i.d i.s i.x (rsv ++ BitVec.ofBool tmo ++ (2 : BitVec 3)), i.ext)
  | .chanMode c i sub rsv => some (c, rrWord 0x13 i.d i.s i.x (rsv ++ sub ++ (0 : BitVec 4)), i.ext)
  | .chanRange c i sub rsv => some (c, rrWord 0x13 i.d i.s i.x (rsv ++ sub ++ (1 : BitVec 4)), i.ext)
  | .chanForce c i sub rsv => some (c, rrWord 0x13 i.d i.s i.x (rsv ++ sub ++ (2 : BitVec 4)), i.ext)
  | .chanClamp c i sub rsv => some (c, rrWord 0x13 i.d i.s i.x (rsv ++ sub ++ (3 : BitVec 4)), i.ext)
  | .chanLevel c i sub rsv => some (c, rrWord 0x13 i.d i.s i.x (rsv ++ sub ++ (4 : BitVec 4)), i.ext)
  | .chanConn c i sub rsv => some (c, rrWord 0x13 i.d i.s i.x (rsv ++ sub ++ (5 : BitVec 4)), i.ext)
  | .meas c i sub rsv => some (c, rrWord 0x13 i.d i.s i.x (rsv ++ sub ++ (6 : BitVec 4)), i.ext)
  | .burst c i blk rsv => some (c, rrWord 0x14 i.d i.s i.x (rsv ++ BitVec.ofBool blk ++ (1 : BitVec 4)), i.ext)
  | .sjmp c i blk rsv => some (c, rrWord 0x14 i.d i.s i.x (rsv ++ BitVec.ofBool blk ++ (2 : BitVec 4)), i.ext)
  | .mloop c i blk rsv => some (c, rrWord 0x14 i.d i.s i.x (rsv ++ BitVec.ofBool blk ++ (3 : BitVec 4)), i.ext)
  | .stop c i blk rsv => some (c, rrWord 0x14 i.d i.s i.x (rsv ++ BitVec.ofBool blk ++ (4 : BitVec 4)), i.ext)
  | .send c i tmo lane rsv => some (c, rrWord 0x17 i.d i.s i.x (rsv ++ BitVec.ofBool lane ++ BitVec.ofBool tmo ++ (1 : BitVec 3)), i.ext)
  | .recv c i tmo lane rsv => some (c, rrWord 0x17 i.d i.s i.x (rsv ++ BitVec.ofBool lane ++ BitVec.ofBool tmo ++ (2 : BitVec 3)), i.ext)
  | _ => none

/-- An instruction without an extension word carries none. -/
def RRX.canon (i : RRX) : Bool := i.x || i.ext == 0

/-! Mill operations (R340, R341). -/

/-- The operation at word `w` of a Mill's program: total, undefined opcodes by name. -/
def decodeMillOp (n : LoomId) (w : BitVec 24) : Instr :=
  let k : BitVec 19 := w.extractLsb' 0 19
  match (opOf w).toNat with
  | 0x01 => .millNop n k
  | 0x02 => .millMac n k
  | 0x03 => .millMsu n k
  | 0x04 => .millMpy n k
  | 0x05 => .millAadd n k
  | 0x06 => .millAld n k
  | 0x07 => .millArd n k
  | 0x08 => .millAldm n k
  | 0x09 => .millAsav n k
  | 0x0A => .millVld n k
  | 0x0B => .millVst n k
  | 0x0C => .millVset n k
  | 0x0D => .millVseth n k
  | 0x0E => .millValu n k
  | 0x0F => .millVaddi n k
  | 0x10 => .millAgset n k
  | 0x11 => .millAgmod n k
  | 0x12 => .millAgmov n k
  | 0x13 => .millAgstep n k
  | 0x14 => .millJmp n k
  | 0x15 => .millLoop n k
  | 0x16 => .millWaitin n k
  | 0x17 => .millGadr n k
  | 0x18 => .millGwr n k
  | 0x19 => .millGrd n k
  | 0x1A => .millGsync n k
  | 0x1B => .millTrig n k
  | 0x1C => .millHalt n k
  | _ => .millUndefinedOperation n w

/-- The word of a Mill operation, with its loom. -/
def encodeMill : Instr → Option (LoomId × BitVec 24)
  | .millNop n w => some (n, (0x01 : BitVec 5) ++ w)
  | .millMac n w => some (n, (0x02 : BitVec 5) ++ w)
  | .millMsu n w => some (n, (0x03 : BitVec 5) ++ w)
  | .millMpy n w => some (n, (0x04 : BitVec 5) ++ w)
  | .millAadd n w => some (n, (0x05 : BitVec 5) ++ w)
  | .millAld n w => some (n, (0x06 : BitVec 5) ++ w)
  | .millArd n w => some (n, (0x07 : BitVec 5) ++ w)
  | .millAldm n w => some (n, (0x08 : BitVec 5) ++ w)
  | .millAsav n w => some (n, (0x09 : BitVec 5) ++ w)
  | .millVld n w => some (n, (0x0A : BitVec 5) ++ w)
  | .millVst n w => some (n, (0x0B : BitVec 5) ++ w)
  | .millVset n w => some (n, (0x0C : BitVec 5) ++ w)
  | .millVseth n w => some (n, (0x0D : BitVec 5) ++ w)
  | .millValu n w => some (n, (0x0E : BitVec 5) ++ w)
  | .millVaddi n w => some (n, (0x0F : BitVec 5) ++ w)
  | .millAgset n w => some (n, (0x10 : BitVec 5) ++ w)
  | .millAgmod n w => some (n, (0x11 : BitVec 5) ++ w)
  | .millAgmov n w => some (n, (0x12 : BitVec 5) ++ w)
  | .millAgstep n w => some (n, (0x13 : BitVec 5) ++ w)
  | .millJmp n w => some (n, (0x14 : BitVec 5) ++ w)
  | .millLoop n w => some (n, (0x15 : BitVec 5) ++ w)
  | .millWaitin n w => some (n, (0x16 : BitVec 5) ++ w)
  | .millGadr n w => some (n, (0x17 : BitVec 5) ++ w)
  | .millGwr n w => some (n, (0x18 : BitVec 5) ++ w)
  | .millGrd n w => some (n, (0x19 : BitVec 5) ++ w)
  | .millGsync n w => some (n, (0x1A : BitVec 5) ++ w)
  | .millTrig n w => some (n, (0x1B : BitVec 5) ++ w)
  | .millHalt n w => some (n, (0x1C : BitVec 5) ++ w)
  | _ => none

end Sys2Proof
end

