-- ==== Sys2Proof/Machine/Num.lean ====
section
/-! DEFINITION. Bit fields, signed readings, byte order and rounding, as the rules of spec/ use them. -/
namespace Sys2Proof.Machine
open Sys2Proof

/-- Bits [lo + w − 1 : lo] of `v`. -/
def bits (v lo w : Nat) : Nat := v / 2 ^ lo % 2 ^ w

/-- Bit `i` of `v`. -/
def bit (v i : Nat) : Bool := v / 2 ^ i % 2 == 1

/-- 1 for true. -/
def b2n (b : Bool) : Nat := if b then 1 else 0

/-- `v` with bits [lo + w − 1 : lo] replaced by `x`. -/
def putBits (v lo w x : Nat) : Nat :=
  v % 2 ^ lo + (x % 2 ^ w) * 2 ^ lo + v / 2 ^ (lo + w) * 2 ^ (lo + w)

/-- The signed reading of a `w`-bit value. -/
def sext (w v : Nat) : Int :=
  if v % 2 ^ w < 2 ^ (w - 1) then Int.ofNat (v % 2 ^ w) else Int.ofNat (v % 2 ^ w) - Int.ofNat (2 ^ w)

/-- The `w`-bit two's complement code of `i`. -/
def toCode (w : Nat) (i : Int) : Nat := (i % Int.ofNat (2 ^ w)).toNat

/-- `i` held within `lo` and `hi`. -/
def clampI (lo hi i : Int) : Int := if i < lo then lo else if hi < i then hi else i

/-- `i ÷ k` to nearest, ties away from zero, for k > 0 (R102, R279). -/
def roundDiv (i : Int) (k : Nat) : Int :=
  if 0 ≤ i then (2 * i + Int.ofNat k) / Int.ofNat (2 * k) else - ((2 * (-i) + Int.ofNat k) / Int.ofNat (2 * k))

/-- The integer square root of `v` above `r`, from bit `b − 1` down. -/
def isqrtFrom (v : Nat) : Nat → Nat → Nat
  | 0, r => r
  | b + 1, r => isqrtFrom v b (if (r + 2 ^ b) * (r + 2 ^ b) ≤ v then r + 2 ^ b else r)

/-- √(p ÷ q) to nearest, for q > 0 and a root below 2^63 (R323). -/
def roundSqrt (p q : Nat) : Nat := (isqrtFrom (4 * p / q) 64 0 + 1) / 2

/-- Little-endian value of a list of bytes (R12). -/
def leVal : List Byte → Nat
  | [] => 0
  | b :: t => b.toNat + 256 * leVal t

/-- The `n` little-endian bytes of `v` (R12). -/
def leBytes : Nat → Nat → List Byte
  | 0, _ => []
  | n + 1, v => BitVec.ofNat 8 v :: leBytes n (v / 256)

/-- Big-endian value of a list of bytes. -/
def beVal (l : List Byte) : Nat := leVal l.reverse

/-- Increment that stops at 2^w − 1. -/
def satInc (w v : Nat) : Nat := if v + 1 < 2 ^ w then v + 1 else 2 ^ w - 1

/-- The sum of `f` over 0 … n − 1. -/
def sumTo (f : Nat → Nat) : Nat → Nat
  | 0 => 0
  | n + 1 => sumTo f n + f n

/-- The mask of the numbers below `n` that satisfy `p`. -/
def maskTo (p : Nat → Bool) : Nat → Nat
  | 0 => 0
  | n + 1 => maskTo p n + (if p n then 2 ^ n else 0)

/-- The number of ones among the low `n` bits. -/
def popcount (v : Nat) (n : Nat) : Nat := sumTo (fun i => b2n (bit v i)) n

/-- Applies `f` for 0, 1, … n − 1 in turn. -/
def iter {σ : Type} (f : Nat → σ → σ) : Nat → σ → σ
  | 0, s => s
  | n + 1, s => f n (iter f n s)

/-- The first of `k`, `k + 1`, … (`n` of them) that satisfies `p`. -/
def findFrom (p : Nat → Bool) : Nat → Nat → Option Nat
  | _, 0 => none
  | k, n + 1 => if p k then some k else findFrom p (k + 1) n

/-- The least number below `n` that satisfies `p`. -/
def findTo (p : Nat → Bool) (n : Nat) : Option Nat := findFrom p 0 n

end Sys2Proof.Machine
end

