-- ==== Sys2Proof/Config.lean ====
section
/-! DEFINITION. What the device fixes and the spec leaves open: constants without a body, so that no proof can
see their value. Every claim holds whatever they are. -/
namespace Sys2Proof.Config
open Sys2Proof

/-- Whether the device is of the speed grade IF768-16, from the fuses (R4, R403, R605). -/
opaque isGrade16 : Bool
/-- GLB_ID.grade: 0x10 for the IF768-16, 0x08 for the IF768-08 (R4). -/
def grade : BitVec 8 := if isGrade16 then 0x10 else 0x08
/-- GLB_ID.rev, the silicon revision (R403). -/
opaque revision : BitVec 8
/-- GLB_SERIAL, from the fuses (R403, R605). -/
opaque serial : BitVec 48
/-- UCODE_ROM_VER, the version of the base microcode (R516, R534). -/
opaque romVersion : BitVec 24
/-- The microword address that entry k of the dispatch table of the base image holds (R514, R516). -/
opaque romDispatch : Nat → BitVec 12
/-- next_index of the HSS state as the device was made (R615 gives 'per device'). -/
opaque hssIndex : BitVec 26
/-- The identity hash written to the MRAM at manufacture (R503). -/
opaque identityHash : BitVec 256
/-- Whether the fuse array passes its check code (R605). -/
opaque fuseOk : Bool
/-- The flash key of the fuses (R441, R605). -/
opaque flashKey : BitVec 256
/-- The microcode key of the fuses (R521, R605). -/
opaque ucodeKey : BitVec 256
/-- The firmware signer hash of the fuses (R602 check 3). -/
opaque fwSigner : BitVec 256
/-- The microcode signer hash of the fuses (R522 check 3). -/
opaque ucodeSigner : BitVec 256
/-- The 60-byte HSS public key that the fused seed and identifier give (R608). -/
opaque hssPublic : BitVec 480
/-- The 5,236-byte HSS signature with index `i` over a message (R608). -/
opaque hssSign : Nat → List Byte → BitVec 41888
/-- Coefficient t of phase φ of the resampling filter, for φ from 1 to 31 and t from 0 to 14 (R279):
the spec fixes phase 0 and the sum of every phase only. -/
opaque filterTap : Nat → Nat → Int

/-- The n-th free value: whatever a code that the spec leaves open turns out to be. -/
opaque freeCode : Nat → BitVec 24
/-- The n-th free sample of a time measurement engine whose value no 40-bit sample holds (R318). -/
opaque freeSample : Nat → BitVec 40
/-- The n-th free time, in taps, of a hold h whose end the spec bounds and does not place (R422, R423). -/
opaque freeTaps : Nat → Nat
/-- Whether a start reaches a loom's command arbiter in the same step as a STOP of the same Reed tick, at the n-th free value
(R106, R618): which of two happenings at nearly the same instant comes first is not defined. -/
opaque sameStep : Nat → Bool
/-- Whether the 2 ms of R454 have passed, at the n-th free value: nothing measures them before the Granary is trained. -/
opaque portUp : Nat → Bool
/-- Whether an odd sum is rounded up when R422 halves it: the spec gives no rounding. -/
opaque halfUp : Int → Bool
/-- How many of the two read-backs of a reservation fail, at the n-th free value (R609): 2 ends the attest. -/
opaque freeReads : Nat → Fin 3

end Sys2Proof.Config
end

