-- ==== Sys2Proof/Machine/Fld.lean ====
section
/-! DEFINITION. A register field: where it lies on BAR0, its access code and its reset value. -/
namespace Sys2Proof.Machine

/-- The access codes of R13. -/
inductive Acc where | rw | ro | wo | w1c | rc | rwc
  deriving DecidableEq, Repr

/-- A field: slot address, lowest bit, width, access code, reset value (R13). -/
structure Fld where
  addr : Nat
  lo : Nat
  w : Nat
  acc : Acc
  rst : Nat
  deriving DecidableEq, Repr

/-- The key of a field in the register table: the bit address of its lowest bit. -/
def Fld.key (f : Fld) : Nat := 8 * f.addr + f.lo

end Sys2Proof.Machine
end

