-- ==== Sys2Proof/Machine/Regs.lean ====
section
/-! DEFINITION. The fields of the BAR0 registers: one `Fld` per row of the register tables of spec/ (R57 to R615),
with its slot address, its bits, its access code (R13) and its reset value. A quantity wider than 32 bits (R18) is
one field at its low slot. The selection registers (R620) carry the master that owns the copy.
Windows whose slots are views of unit storage (timing sets, segment descriptors, Mill memory, context records,
calibration arrays, the log) are not listed here: RegBus.lean gives their slots. -/
namespace Sys2Proof.Machine

/-- GLB_UNIT_ENABLE (R57). -/
def Reg.GLB_UNIT_ENABLE.dma_en : Fld := ⟨0x400, 0, 8, .rw, 0⟩
/-- GLB_UNIT_ENABLE (R57). -/
def Reg.GLB_UNIT_ENABLE.tap0_en : Fld := ⟨0x400, 8, 1, .rw, 0⟩
/-- GLB_UNIT_ENABLE (R57). -/
def Reg.GLB_UNIT_ENABLE.tap1_en : Fld := ⟨0x400, 9, 1, .rw, 0⟩
/-- GLB_UNIT_ENABLE (R57). -/
def Reg.GLB_UNIT_ENABLE.scrub_en : Fld := ⟨0x400, 10, 1, .rw, 1⟩
/-- GLB_UNIT_STATE (R58). -/
def Reg.GLB_UNIT_STATE.dma_state : Fld := ⟨0x404, 0, 16, .ro, 0⟩
/-- GLB_UNIT_STATE (R58). -/
def Reg.GLB_UNIT_STATE.tap0_state : Fld := ⟨0x404, 16, 2, .ro, 0⟩
/-- GLB_UNIT_STATE (R58). -/
def Reg.GLB_UNIT_STATE.tap1_state : Fld := ⟨0x404, 18, 2, .ro, 0⟩
/-- GLB_UNIT_STATE (R58). -/
def Reg.GLB_UNIT_STATE.scrub_state : Fld := ⟨0x404, 20, 2, .ro, 0⟩
/-- GLB_UNIT_STATE (R58). -/
def Reg.GLB_UNIT_STATE.start_reject : Fld := ⟨0x404, 31, 1, .w1c, 0⟩
/-- GLB_POOL (R59). -/
def Reg.GLB_POOL.in_use : Fld := ⟨0x408, 0, 13, .ro, 0⟩
/-- GLB_POOL (R59). -/
def Reg.GLB_POOL.reserve_in_use : Fld := ⟨0x408, 13, 9, .ro, 0⟩
/-- GLB_POOL_PEAK (R59). -/
def Reg.GLB_POOL_PEAK.peak : Fld := ⟨0x40C, 0, 13, .rc, 0⟩
/-- LOOM.ENABLE (R60). -/
def Reg.LOOM.ENABLE.shuttle_en (n : Nat) : Fld := ⟨0x10000 + 0x100 * n + 0x0, 0, 1, .rw, 0⟩
/-- LOOM.ENABLE (R60). -/
def Reg.LOOM.ENABLE.pattern_en (n : Nat) : Fld := ⟨0x10000 + 0x100 * n + 0x0, 1, 1, .rw, 0⟩
/-- LOOM.ENABLE (R60). -/
def Reg.LOOM.ENABLE.mill_en (n : Nat) : Fld := ⟨0x10000 + 0x100 * n + 0x0, 2, 1, .rw, 0⟩
/-- LOOM.ENABLE (R60). -/
def Reg.LOOM.ENABLE.capture_en (n : Nat) : Fld := ⟨0x10000 + 0x100 * n + 0x0, 3, 1, .rw, 0⟩
/-- LOOM.ENABLE (R60). -/
def Reg.LOOM.ENABLE.tme_en (n : Nat) : Fld := ⟨0x10000 + 0x100 * n + 0x0, 4, 1, .rw, 0⟩
/-- LOOM.UNIT_STATE (R60). -/
def Reg.LOOM.UNIT_STATE.shuttle_state (n : Nat) : Fld := ⟨0x10000 + 0x100 * n + 0x4, 0, 2, .ro, 0⟩
/-- LOOM.UNIT_STATE (R60). -/
def Reg.LOOM.UNIT_STATE.pattern_state (n : Nat) : Fld := ⟨0x10000 + 0x100 * n + 0x4, 2, 2, .ro, 0⟩
/-- LOOM.UNIT_STATE (R60). -/
def Reg.LOOM.UNIT_STATE.mill_state (n : Nat) : Fld := ⟨0x10000 + 0x100 * n + 0x4, 4, 2, .ro, 0⟩
/-- LOOM.UNIT_STATE (R60). -/
def Reg.LOOM.UNIT_STATE.capture_state (n : Nat) : Fld := ⟨0x10000 + 0x100 * n + 0x4, 6, 2, .ro, 0⟩
/-- LOOM.UNIT_STATE (R60). -/
def Reg.LOOM.UNIT_STATE.tme_state (n : Nat) : Fld := ⟨0x10000 + 0x100 * n + 0x4, 8, 2, .ro, 0⟩
/-- LOOM.UNIT_STATE (R60). -/
def Reg.LOOM.UNIT_STATE.start_reject (n : Nat) : Fld := ⟨0x10000 + 0x100 * n + 0x4, 31, 1, .w1c, 0⟩
/-- LOOM.CREDIT (R60). -/
def Reg.LOOM.CREDIT.refill_in_use (n : Nat) : Fld := ⟨0x10000 + 0x100 * n + 0x8, 0, 7, .ro, 0⟩
/-- LOOM.CREDIT (R60). -/
def Reg.LOOM.CREDIT.shared_in_use (n : Nat) : Fld := ⟨0x10000 + 0x100 * n + 0x8, 7, 6, .ro, 0⟩
/-- LOOM.CREDIT_PEAK (R60). -/
def Reg.LOOM.CREDIT_PEAK.refill_peak (n : Nat) : Fld := ⟨0x10000 + 0x100 * n + 0xC, 0, 7, .rc, 0⟩
/-- LOOM.CREDIT_PEAK (R60). -/
def Reg.LOOM.CREDIT_PEAK.shared_peak (n : Nat) : Fld := ⟨0x10000 + 0x100 * n + 0xC, 7, 6, .rc, 0⟩
/-- LOOM.SERVICE_MISS (R60). -/
def Reg.LOOM.SERVICE_MISS.count (n : Nat) : Fld := ⟨0x10000 + 0x100 * n + 0x10, 0, 24, .rc, 0⟩
/-- GLB_PROG_BASE (R118). -/
def Reg.GLB_PROG_BASE.base : Fld := ⟨0x440, 0, 9, .rw, 0⟩
/-- GLB_PROG_BASE (R118). -/
def Reg.GLB_PROG_BASE.base_reject : Fld := ⟨0x440, 31, 1, .w1c, 0⟩
/-- GLB_ICACHE_INV (R118). -/
def Reg.GLB_ICACHE_INV.inv : Fld := ⟨0x444, 0, 25, .wo, 0⟩
/-- GLB_ICACHE_BUSY (R118). -/
def Reg.GLB_ICACHE_BUSY.busy : Fld := ⟨0x448, 0, 25, .ro, 0⟩
/-- GLB_CSHU_LASTFAULT (R118). -/
def Reg.GLB_CSHU_LASTFAULT.fault : Fld := ⟨0x44C, 0, 24, .ro, 0⟩
/-- GLB_CSHU_LASTCTX (R118). -/
def Reg.GLB_CSHU_LASTCTX.context : Fld := ⟨0x450, 0, 14, .ro, 0⟩
/-- GLB_CSHU_LASTCTX (R118). -/
def Reg.GLB_CSHU_LASTCTX.new : Fld := ⟨0x450, 31, 1, .rc, 0⟩
/-- LOOM.SHU_LASTFAULT (R119). -/
def Reg.LOOM.SHU_LASTFAULT.fault (n : Nat) : Fld := ⟨0x10000 + 0x100 * n + 0x20, 0, 24, .ro, 0⟩
/-- LOOM.SHU_LASTCTX (R119). -/
def Reg.LOOM.SHU_LASTCTX.context (n : Nat) : Fld := ⟨0x10000 + 0x100 * n + 0x24, 0, 14, .ro, 0⟩
/-- LOOM.SHU_LASTCTX (R119). -/
def Reg.LOOM.SHU_LASTCTX.new (n : Nat) : Fld := ⟨0x10000 + 0x100 * n + 0x24, 31, 1, .rc, 0⟩
/-- CTX_SEL (R143). -/
def Reg.CTX_SEL.context (m : Nat) : Fld := ⟨0x480 + 0x1000000 * m, 0, 14, .rw, 0⟩
/-- CTX_CMD (R143). -/
def Reg.CTX_CMD.cmd : Fld := ⟨0x484, 0, 3, .wo, 0⟩
/-- CTX_STATUS (R143). -/
def Reg.CTX_STATUS.state : Fld := ⟨0x488, 0, 3, .ro, 0⟩
/-- CTX_STATUS (R143). -/
def Reg.CTX_STATUS.resident : Fld := ⟨0x488, 3, 1, .ro, 0⟩
/-- CTX_STATUS (R143). -/
def Reg.CTX_STATUS.busy : Fld := ⟨0x488, 4, 1, .ro, 0⟩
/-- CTX_STATUS (R143). -/
def Reg.CTX_STATUS.reject_code : Fld := ⟨0x488, 5, 3, .ro, 0⟩
/-- CTX_STATUS (R143). -/
def Reg.CTX_STATUS.write_reject : Fld := ⟨0x488, 30, 1, .w1c, 0⟩
/-- CTX_STATUS (R143). -/
def Reg.CTX_STATUS.cmd_reject : Fld := ⟨0x488, 31, 1, .w1c, 0⟩
/-- CTX_PARKED (R143). -/
def Reg.CTX_PARKED.count : Fld := ⟨0x48C, 0, 14, .ro, 0⟩
/-- CTX_PARKED (R143). -/
def Reg.CTX_PARKED.new : Fld := ⟨0x48C, 31, 1, .rc, 0⟩
/-- CTX_QUANTUM (R143). -/
def Reg.CTX_QUANTUM.ticks : Fld := ⟨0x490, 0, 24, .rw, 1000⟩
/-- CTX_DLMISS (R143). -/
def Reg.CTX_DLMISS.count : Fld := ⟨0x494, 0, 24, .rc, 0⟩
/-- SITE_SEL (R143). -/
def Reg.SITE_SEL.site (m : Nat) : Fld := ⟨0x498 + 0x1000000 * m, 0, 10, .rw, 0⟩
/-- CHAN.CTRL (R189). -/
def Reg.CHAN.CTRL.mode (c : Nat) : Fld := ⟨0x20000 + 0x20 * c + 0x0, 0, 3, .rw, 0⟩
/-- CHAN.CTRL (R189). -/
def Reg.CHAN.CTRL.range (c : Nat) : Fld := ⟨0x20000 + 0x20 * c + 0x0, 3, 3, .rw, 0⟩
/-- CHAN.CTRL (R189). -/
def Reg.CHAN.CTRL.gang (c : Nat) : Fld := ⟨0x20000 + 0x20 * c + 0x0, 6, 2, .rw, 0⟩
/-- CHAN.CTRL (R189). -/
def Reg.CHAN.CTRL.conn (c : Nat) : Fld := ⟨0x20000 + 0x20 * c + 0x0, 8, 1, .rw, 0⟩
/-- CHAN.CTRL (R189). -/
def Reg.CHAN.CTRL.meas_v (c : Nat) : Fld := ⟨0x20000 + 0x20 * c + 0x0, 9, 1, .rw, 0⟩
/-- CHAN.CTRL (R189). -/
def Reg.CHAN.CTRL.short_time (c : Nat) : Fld := ⟨0x20000 + 0x20 * c + 0x0, 10, 4, .rw, 8⟩
/-- CHAN.CTRL (R189). -/
def Reg.CHAN.CTRL.rev_check (c : Nat) : Fld := ⟨0x20000 + 0x20 * c + 0x0, 14, 1, .rw, 0⟩
/-- CHAN.FORCE_CODE (R189). -/
def Reg.CHAN.FORCE_CODE.code (c : Nat) : Fld := ⟨0x20000 + 0x20 * c + 0x4, 0, 24, .rw, 0xB8E38E⟩
/-- CHAN.VCLAMP (R189). -/
def Reg.CHAN.VCLAMP.lo (c : Nat) : Fld := ⟨0x20000 + 0x20 * c + 0x8, 0, 16, .rw, 0x8000⟩
/-- CHAN.VCLAMP (R189). -/
def Reg.CHAN.VCLAMP.hi (c : Nat) : Fld := ⟨0x20000 + 0x20 * c + 0x8, 16, 16, .rw, 0x7FFF⟩
/-- CHAN.ICLAMP (R189). -/
def Reg.CHAN.ICLAMP.lo (c : Nat) : Fld := ⟨0x20000 + 0x20 * c + 0xC, 0, 16, .rw, 0x8000⟩
/-- CHAN.ICLAMP (R189). -/
def Reg.CHAN.ICLAMP.hi (c : Nat) : Fld := ⟨0x20000 + 0x20 * c + 0xC, 16, 16, .rw, 0x7FFF⟩
/-- CHAN.LVL_DRV (R189). -/
def Reg.CHAN.LVL_DRV.vil (c : Nat) : Fld := ⟨0x20000 + 0x20 * c + 0x10, 0, 16, .rw, 0xB8E4⟩
/-- CHAN.LVL_DRV (R189). -/
def Reg.CHAN.LVL_DRV.vih (c : Nat) : Fld := ⟨0x20000 + 0x20 * c + 0x10, 16, 16, .rw, 0xB8E4⟩
/-- CHAN.LVL_CMP (R189). -/
def Reg.CHAN.LVL_CMP.vol (c : Nat) : Fld := ⟨0x20000 + 0x20 * c + 0x14, 0, 16, .rw, 0xB8E4⟩
/-- CHAN.LVL_CMP (R189). -/
def Reg.CHAN.LVL_CMP.voh (c : Nat) : Fld := ⟨0x20000 + 0x20 * c + 0x14, 16, 16, .rw, 0xB8E4⟩
/-- CHAN.RATE (R189). -/
def Reg.CHAN.RATE.vt (c : Nat) : Fld := ⟨0x20000 + 0x20 * c + 0x18, 0, 16, .rw, 0xB8E4⟩
/-- CHAN.RATE (R189). -/
def Reg.CHAN.RATE.rate (c : Nat) : Fld := ⟨0x20000 + 0x20 * c + 0x18, 16, 16, .rw, 500⟩
/-- CHAN.STATUS (R189). -/
def Reg.CHAN.STATUS.vclamp_act (c : Nat) : Fld := ⟨0x20000 + 0x20 * c + 0x1C, 0, 1, .ro, 0⟩
/-- CHAN.STATUS (R189). -/
def Reg.CHAN.STATUS.iclamp_act (c : Nat) : Fld := ⟨0x20000 + 0x20 * c + 0x1C, 1, 1, .ro, 0⟩
/-- CHAN.STATUS (R189). -/
def Reg.CHAN.STATUS.settled (c : Nat) : Fld := ⟨0x20000 + 0x20 * c + 0x1C, 2, 1, .ro, 1⟩
/-- CHAN.STATUS (R189). -/
def Reg.CHAN.STATUS.cv_active (c : Nat) : Fld := ⟨0x20000 + 0x20 * c + 0x1C, 3, 1, .ro, 0⟩
/-- CHAN.STATUS (R189). -/
def Reg.CHAN.STATUS.husk_short (c : Nat) : Fld := ⟨0x20000 + 0x20 * c + 0x1C, 4, 1, .w1c, 0⟩
/-- CHAN.STATUS (R189). -/
def Reg.CHAN.STATUS.husk_open (c : Nat) : Fld := ⟨0x20000 + 0x20 * c + 0x1C, 5, 1, .w1c, 0⟩
/-- CHAN.STATUS (R189). -/
def Reg.CHAN.STATUS.husk_reverse (c : Nat) : Fld := ⟨0x20000 + 0x20 * c + 0x1C, 6, 1, .w1c, 0⟩
/-- CHAN.STATUS (R189). -/
def Reg.CHAN.STATUS.husk_over (c : Nat) : Fld := ⟨0x20000 + 0x20 * c + 0x1C, 7, 1, .w1c, 0⟩
/-- CHAN.STATUS (R189). -/
def Reg.CHAN.STATUS.boost_trip (c : Nat) : Fld := ⟨0x20000 + 0x20 * c + 0x1C, 8, 1, .w1c, 0⟩
/-- CHAN.STATUS (R189). -/
def Reg.CHAN.STATUS.over_range (c : Nat) : Fld := ⟨0x20000 + 0x20 * c + 0x1C, 9, 1, .w1c, 0⟩
/-- CHAN.STATUS (R189). -/
def Reg.CHAN.STATUS.set_reject (c : Nat) : Fld := ⟨0x20000 + 0x20 * c + 0x1C, 10, 1, .w1c, 0⟩
/-- CHAN.STATUS (R189). -/
def Reg.CHAN.STATUS.reject_code (c : Nat) : Fld := ⟨0x20000 + 0x20 * c + 0x1C, 11, 3, .ro, 0⟩
/-- CHAN.STATUS (R189). -/
def Reg.CHAN.STATUS.role (c : Nat) : Fld := ⟨0x20000 + 0x20 * c + 0x1C, 14, 2, .ro, 0⟩
/-- CHAN.STATUS (R189). -/
def Reg.CHAN.STATUS.core (c : Nat) : Fld := ⟨0x20000 + 0x20 * c + 0x1C, 16, 6, .ro, c % 32⟩
/-- CHAN.STATUS (R189). -/
def Reg.CHAN.STATUS.exchanging (c : Nat) : Fld := ⟨0x20000 + 0x20 * c + 0x1C, 22, 1, .ro, 0⟩
/-- MON.CTRL (R212). -/
def Reg.MON.CTRL.en (base : Nat) : Fld := ⟨base + 0x0, 0, 1, .rw, 0⟩
/-- MON.CTRL (R212). -/
def Reg.MON.CTRL.src (base : Nat) : Fld := ⟨base + 0x0, 1, 1, .rw, 0⟩
/-- MON.CTRL (R212). -/
def Reg.MON.CTRL.hyst (base : Nat) : Fld := ⟨base + 0x0, 2, 2, .rw, 0⟩
/-- MON.CTRL (R212). -/
def Reg.MON.CTRL.div (base : Nat) : Fld := ⟨base + 0x0, 4, 12, .rw, 4⟩
/-- MON.CTRL (R212). -/
def Reg.MON.CTRL.guard_block (base : Nat) : Fld := ⟨base + 0x0, 16, 1, .rw, 0⟩
/-- MON.CTRL (R212). -/
def Reg.MON.CTRL.guard_trip (base : Nat) : Fld := ⟨base + 0x0, 17, 1, .rw, 0⟩
/-- MON.CTRL (R212). -/
def Reg.MON.CTRL.evt_mask (base : Nat) : Fld := ⟨base + 0x0, 18, 3, .rw, 0⟩
/-- MON.WIN (R212). -/
def Reg.MON.WIN.lo (base : Nat) : Fld := ⟨base + 0x4, 0, 12, .rw, 0⟩
/-- MON.WIN (R212). -/
def Reg.MON.WIN.hi (base : Nat) : Fld := ⟨base + 0x4, 16, 12, .rw, 0xFFF⟩
/-- MON.STATE (R212). -/
def Reg.MON.STATE.state (base : Nat) : Fld := ⟨base + 0x8, 0, 3, .ro, 0⟩
/-- MON.STATE (R212). -/
def Reg.MON.STATE.trip_armed (base : Nat) : Fld := ⟨base + 0x8, 3, 1, .ro, 0⟩
/-- MON.STATE (R212). -/
def Reg.MON.STATE.enter (base : Nat) : Fld := ⟨base + 0x8, 4, 1, .w1c, 0⟩
/-- MON.STATE (R212). -/
def Reg.MON.STATE.rise_out (base : Nat) : Fld := ⟨base + 0x8, 5, 1, .w1c, 0⟩
/-- MON.STATE (R212). -/
def Reg.MON.STATE.fall_out (base : Nat) : Fld := ⟨base + 0x8, 6, 1, .w1c, 0⟩
/-- MON.STATE (R212). -/
def Reg.MON.STATE.guard_trip (base : Nat) : Fld := ⟨base + 0x8, 7, 1, .w1c, 0⟩
/-- MON.STATE (R212). -/
def Reg.MON.STATE.set_reject (base : Nat) : Fld := ⟨base + 0x8, 8, 1, .w1c, 0⟩
/-- MON.STATE (R212). -/
def Reg.MON.STATE.reject_code (base : Nat) : Fld := ⟨base + 0x8, 9, 2, .ro, 0⟩
/-- MON.COUNT (R212). -/
def Reg.MON.COUNT.edges (base : Nat) : Fld := ⟨base + 0xC, 0, 24, .rc, 0⟩
/-- TSET_SEL (R246). -/
def Reg.TSET_SEL.loom (m : Nat) : Fld := ⟨0x4C0 + 0x1000000 * m, 0, 5, .rw, 0⟩
/-- TSET_SEL (R246). -/
def Reg.TSET_SEL.set (m : Nat) : Fld := ⟨0x4C0 + 0x1000000 * m, 8, 5, .rw, 0⟩
/-- TSET_SEL (R246). -/
def Reg.TSET_SEL.view (m : Nat) : Fld := ⟨0x4C0 + 0x1000000 * m, 16, 1, .rw, 0⟩
/-- TSET_SEL (R246). -/
def Reg.TSET_SEL.write_reject (m : Nat) : Fld := ⟨0x4C0 + 0x1000000 * m, 31, 1, .w1c, 0⟩
/-- LOOM.FLOG_UNLOGGED (R248). -/
def Reg.LOOM.FLOG_UNLOGGED.count (n : Nat) : Fld := ⟨0x10000 + 0x100 * n + 0x14, 0, 32, .ro, 0⟩
/-- LOOM.SELVEDGE (R248). -/
def Reg.LOOM.SELVEDGE.pll_lock (n : Nat) : Fld := ⟨0x10000 + 0x100 * n + 0x28, 0, 1, .ro, 0⟩
/-- LOOM.SELVEDGE (R248). -/
def Reg.LOOM.SELVEDGE.dll_lock (n : Nat) : Fld := ⟨0x10000 + 0x100 * n + 0x28, 1, 1, .ro, 0⟩
/-- LOOM.SELVEDGE (R248). -/
def Reg.LOOM.SELVEDGE.pll_lost (n : Nat) : Fld := ⟨0x10000 + 0x100 * n + 0x28, 2, 1, .w1c, 0⟩
/-- LOOM.SELVEDGE (R248). -/
def Reg.LOOM.SELVEDGE.dll_lost (n : Nat) : Fld := ⟨0x10000 + 0x100 * n + 0x28, 3, 1, .w1c, 0⟩
/-- LOOM.SELVEDGE (R248). -/
def Reg.LOOM.SELVEDGE.dll_ctrl (n : Nat) : Fld := ⟨0x10000 + 0x100 * n + 0x28, 8, 10, .ro, 0⟩
/-- LOOM.TSET_COMMIT (R248). -/
def Reg.LOOM.TSET_COMMIT.commit (n : Nat) : Fld := ⟨0x10000 + 0x100 * n + 0x2C, 0, 1, .wo, 0⟩
/-- LOOM.TSET_COMMIT (R248). -/
def Reg.LOOM.TSET_COMMIT.pending (n : Nat) : Fld := ⟨0x10000 + 0x100 * n + 0x2C, 1, 1, .ro, 0⟩
/-- LOOM.TSET_COMMIT (R248). -/
def Reg.LOOM.TSET_COMMIT.commit_reject (n : Nat) : Fld := ⟨0x10000 + 0x100 * n + 0x2C, 2, 1, .w1c, 0⟩
/-- LOOM.TSET_COMMIT (R248). -/
def Reg.LOOM.TSET_COMMIT.bad_set (n : Nat) : Fld := ⟨0x10000 + 0x100 * n + 0x2C, 3, 5, .ro, 0⟩
/-- LOOM.TSET_COMMIT (R248). -/
def Reg.LOOM.TSET_COMMIT.bad_pin (n : Nat) : Fld := ⟨0x10000 + 0x100 * n + 0x2C, 8, 5, .ro, 0⟩
/-- LOOM.TSET_COMMIT (R248). -/
def Reg.LOOM.TSET_COMMIT.reason (n : Nat) : Fld := ⟨0x10000 + 0x100 * n + 0x2C, 13, 3, .ro, 0⟩
/-- LOOM.TSET_COMMIT (R248). -/
def Reg.LOOM.TSET_COMMIT.dirty (n : Nat) : Fld := ⟨0x10000 + 0x100 * n + 0x2C, 16, 1, .ro, 0⟩
/-- LOOM.FLOG_BASE (R248). -/
def Reg.LOOM.FLOG_BASE.line (n : Nat) : Fld := ⟨0x10000 + 0x100 * n + 0x30, 0, 27, .rw, 0⟩
/-- LOOM.FLOG_CTRL (R248). -/
def Reg.LOOM.FLOG_CTRL.size_log2 (n : Nat) : Fld := ⟨0x10000 + 0x100 * n + 0x34, 0, 5, .rw, 8⟩
/-- LOOM.FLOG_CTRL (R248). -/
def Reg.LOOM.FLOG_CTRL.stop_full (n : Nat) : Fld := ⟨0x10000 + 0x100 * n + 0x34, 5, 1, .rw, 0⟩
/-- LOOM.FLOG_CTRL (R248). -/
def Reg.LOOM.FLOG_CTRL.log_en (n : Nat) : Fld := ⟨0x10000 + 0x100 * n + 0x34, 6, 1, .rw, 0⟩
/-- LOOM.FLOG_WPTR (R248). -/
def Reg.LOOM.FLOG_WPTR.index (n : Nat) : Fld := ⟨0x10000 + 0x100 * n + 0x38, 0, 24, .ro, 0⟩
/-- LOOM.FLOG_WPTR (R248). -/
def Reg.LOOM.FLOG_WPTR.lap (n : Nat) : Fld := ⟨0x10000 + 0x100 * n + 0x38, 24, 1, .ro, 1⟩
/-- LOOM.FLOG_RPTR (R248). -/
def Reg.LOOM.FLOG_RPTR.index (n : Nat) : Fld := ⟨0x10000 + 0x100 * n + 0x3C, 0, 24, .rw, 0⟩
/-- LOOM.FLOG_RPTR (R248). -/
def Reg.LOOM.FLOG_RPTR.lap (n : Nat) : Fld := ⟨0x10000 + 0x100 * n + 0x3C, 24, 1, .rw, 1⟩
/-- LOOM.FLOG_LOST (R248). -/
def Reg.LOOM.FLOG_LOST.count (n : Nat) : Fld := ⟨0x10000 + 0x100 * n + 0x40, 0, 24, .rc, 0⟩
/-- LOOM.FLOG_CAP (R248). -/
def Reg.LOOM.FLOG_CAP.cap (n : Nat) : Fld := ⟨0x10000 + 0x100 * n + 0x44, 0, 24, .rw, 0⟩
/-- LOOM.VIDX (R248). -/
def Reg.LOOM.VIDX.index (n : Nat) : Fld := ⟨0x10000 + 0x100 * n + 0x48, 0, 40, .ro, 0⟩
/-- LOOM.SEL_STATUS (R248). -/
def Reg.LOOM.SEL_STATUS.running (n : Nat) : Fld := ⟨0x10000 + 0x100 * n + 0x50, 0, 1, .ro, 0⟩
/-- LOOM.SEL_STATUS (R248). -/
def Reg.LOOM.SEL_STATUS.dr08 (n : Nat) : Fld := ⟨0x10000 + 0x100 * n + 0x50, 1, 1, .w1c, 0⟩
/-- LOOM.SEL_STATUS (R248). -/
def Reg.LOOM.SEL_STATUS.strobe_shift (n : Nat) : Fld := ⟨0x10000 + 0x100 * n + 0x50, 2, 1, .w1c, 0⟩
/-- LOOM.SEL_STATUS (R248). -/
def Reg.LOOM.SEL_STATUS.flog_overflow (n : Nat) : Fld := ⟨0x10000 + 0x100 * n + 0x50, 3, 1, .w1c, 0⟩
/-- LOOM.SEL_STATUS (R248). -/
def Reg.LOOM.SEL_STATUS.flog_capped (n : Nat) : Fld := ⟨0x10000 + 0x100 * n + 0x50, 4, 1, .w1c, 0⟩
/-- LOOM.SEL_STATUS (R248). -/
def Reg.LOOM.SEL_STATUS.idx_wrap (n : Nat) : Fld := ⟨0x10000 + 0x100 * n + 0x50, 5, 1, .w1c, 0⟩
/-- LOOM.SEL_STATUS (R248). -/
def Reg.LOOM.SEL_STATUS.cfg_reject (n : Nat) : Fld := ⟨0x10000 + 0x100 * n + 0x50, 6, 1, .w1c, 0⟩
/-- LOOM.SEL_STATUS (R248). -/
def Reg.LOOM.SEL_STATUS.dp_unmapped (n : Nat) : Fld := ⟨0x10000 + 0x100 * n + 0x50, 7, 1, .w1c, 0⟩
/-- LOOM.SEL_STATUS (R248). -/
def Reg.LOOM.SEL_STATUS.last_end (n : Nat) : Fld := ⟨0x10000 + 0x100 * n + 0x50, 8, 3, .ro, 0⟩
/-- LOOM.STROBE_SHIFT (R248). -/
def Reg.LOOM.STROBE_SHIFT.count (n : Nat) : Fld := ⟨0x10000 + 0x100 * n + 0x54, 0, 24, .rc, 0⟩
/-- LOOM.FAIL_PINS (R248). -/
def Reg.LOOM.FAIL_PINS.pins (n : Nat) : Fld := ⟨0x10000 + 0x100 * n + 0x58, 0, 32, .rc, 0⟩
/-- GLB_SEGT_BASE (R270). -/
def Reg.GLB_SEGT_BASE.base : Fld := ⟨0x500, 0, 14, .rw, 0⟩
/-- GLB_SEGT_BASE (R270). -/
def Reg.GLB_SEGT_BASE.base_reject : Fld := ⟨0x500, 31, 1, .w1c, 0⟩
/-- GLB_SEGT_SEL (R270). -/
def Reg.GLB_SEGT_SEL.segment (m : Nat) : Fld := ⟨0x504 + 0x1000000 * m, 0, 15, .rw, 0⟩
/-- GLB_SEGT_STATUS (R270). -/
def Reg.GLB_SEGT_STATUS.last_seg : Fld := ⟨0x508, 0, 15, .ro, 0⟩
/-- GLB_SEGT_STATUS (R270). -/
def Reg.GLB_SEGT_STATUS.reason : Fld := ⟨0x508, 16, 3, .ro, 0⟩
/-- GLB_SEGT_STATUS (R270). -/
def Reg.GLB_SEGT_STATUS.refused : Fld := ⟨0x508, 31, 1, .w1c, 0⟩
/-- GLB_SEGT_REFUSED (R270). -/
def Reg.GLB_SEGT_REFUSED.count : Fld := ⟨0x50C, 0, 24, .rc, 0⟩
/-- LOOM.BOB_CTRL (R271). -/
def Reg.LOOM.BOB_CTRL.starve (n : Nat) : Fld := ⟨0x10000 + 0x100 * n + 0x5C, 0, 1, .rw, 0⟩
/-- LOOM.BOB_FILL (R271). -/
def Reg.LOOM.BOB_FILL.stream (n : Nat) : Fld := ⟨0x10000 + 0x100 * n + 0x60, 0, 15, .ro, 0⟩
/-- LOOM.BOB_FILL (R271). -/
def Reg.LOOM.BOB_FILL.fifo (n : Nat) : Fld := ⟨0x10000 + 0x100 * n + 0x60, 15, 8, .ro, 0⟩
/-- LOOM.PIN_CMD (R271). -/
def Reg.LOOM.PIN_CMD.segment (n : Nat) : Fld := ⟨0x10000 + 0x100 * n + 0x64, 0, 15, .wo, 0⟩
/-- LOOM.PIN_CMD (R271). -/
def Reg.LOOM.PIN_CMD.load (n : Nat) : Fld := ⟨0x10000 + 0x100 * n + 0x64, 15, 1, .wo, 0⟩
/-- LOOM.PIN_CMD (R271). -/
def Reg.LOOM.PIN_CMD.flush (n : Nat) : Fld := ⟨0x10000 + 0x100 * n + 0x64, 16, 1, .wo, 0⟩
/-- LOOM.PIN_STATUS (R271). -/
def Reg.LOOM.PIN_STATUS.used (n : Nat) : Fld := ⟨0x10000 + 0x100 * n + 0x68, 0, 14, .ro, 0⟩
/-- LOOM.PIN_STATUS (R271). -/
def Reg.LOOM.PIN_STATUS.segs (n : Nat) : Fld := ⟨0x10000 + 0x100 * n + 0x68, 14, 6, .ro, 0⟩
/-- LOOM.PIN_STATUS (R271). -/
def Reg.LOOM.PIN_STATUS.busy (n : Nat) : Fld := ⟨0x10000 + 0x100 * n + 0x68, 20, 1, .ro, 0⟩
/-- LOOM.PIN_STATUS (R271). -/
def Reg.LOOM.PIN_STATUS.pin_full (n : Nat) : Fld := ⟨0x10000 + 0x100 * n + 0x68, 21, 1, .w1c, 0⟩
/-- LOOM.PIN_STATUS (R271). -/
def Reg.LOOM.PIN_STATUS.pin_reject (n : Nat) : Fld := ⟨0x10000 + 0x100 * n + 0x68, 22, 1, .w1c, 0⟩
/-- LOOM.HOLD_COUNT (R271). -/
def Reg.LOOM.HOLD_COUNT.count (n : Nat) : Fld := ⟨0x10000 + 0x100 * n + 0x6C, 0, 32, .rc, 0⟩
/-- LOOM.BOB_STATUS (R271). -/
def Reg.LOOM.BOB_STATUS.starved (n : Nat) : Fld := ⟨0x10000 + 0x100 * n + 0x70, 0, 1, .w1c, 0⟩
/-- LOOM.BOB_STATUS (R271). -/
def Reg.LOOM.BOB_STATUS.jump_gap (n : Nat) : Fld := ⟨0x10000 + 0x100 * n + 0x70, 1, 1, .w1c, 0⟩
/-- LOOM.BOB_STATUS (R271). -/
def Reg.LOOM.BOB_STATUS.bad_next (n : Nat) : Fld := ⟨0x10000 + 0x100 * n + 0x70, 2, 1, .w1c, 0⟩
/-- LOOM.BOB_STATUS (R271). -/
def Reg.LOOM.BOB_STATUS.sjmp_replaced (n : Nat) : Fld := ⟨0x10000 + 0x100 * n + 0x70, 3, 1, .w1c, 0⟩
/-- LOOM.BOB_STATUS (R271). -/
def Reg.LOOM.BOB_STATUS.bad_seg (n : Nat) : Fld := ⟨0x10000 + 0x100 * n + 0x70, 4, 15, .ro, 0⟩
/-- LOOM.SEG_NOW (R271). -/
def Reg.LOOM.SEG_NOW.segment (n : Nat) : Fld := ⟨0x10000 + 0x100 * n + 0x74, 0, 15, .ro, 0⟩
/-- LOOM.LOOP_NOW (R271). -/
def Reg.LOOM.LOOP_NOW.pass (n : Nat) : Fld := ⟨0x10000 + 0x100 * n + 0x78, 0, 24, .ro, 0⟩
/-- LOOM.SJMP_STATE (R271). -/
def Reg.LOOM.SJMP_STATE.target (n : Nat) : Fld := ⟨0x10000 + 0x100 * n + 0x7C, 0, 15, .ro, 0⟩
/-- LOOM.SJMP_STATE (R271). -/
def Reg.LOOM.SJMP_STATE.pending (n : Nat) : Fld := ⟨0x10000 + 0x100 * n + 0x7C, 15, 1, .ro, 0⟩
/-- TW.X (R272). -/
def Reg.TW.X.x (n : Nat) : Fld := ⟨0xB0000 + 0x400 * n + 0x0, 0, 24, .rw, 0⟩
/-- TW.XMIN (R272). -/
def Reg.TW.XMIN.xmin (n : Nat) : Fld := ⟨0xB0000 + 0x400 * n + 0x4, 0, 24, .rw, 0⟩
/-- TW.XMAX (R272). -/
def Reg.TW.XMAX.xmax (n : Nat) : Fld := ⟨0xB0000 + 0x400 * n + 0x8, 0, 24, .rw, 0xFFFFFF⟩
/-- TW.XCMASK (R272). -/
def Reg.TW.XCMASK.xcmask (n : Nat) : Fld := ⟨0xB0000 + 0x400 * n + 0xC, 0, 24, .rw, 0xFFFFFF⟩
/-- TW.Y (R272). -/
def Reg.TW.Y.y (n : Nat) : Fld := ⟨0xB0000 + 0x400 * n + 0x10, 0, 24, .rw, 0⟩
/-- TW.YMIN (R272). -/
def Reg.TW.YMIN.ymin (n : Nat) : Fld := ⟨0xB0000 + 0x400 * n + 0x14, 0, 24, .rw, 0⟩
/-- TW.YMAX (R272). -/
def Reg.TW.YMAX.ymax (n : Nat) : Fld := ⟨0xB0000 + 0x400 * n + 0x18, 0, 24, .rw, 0xFFFFFF⟩
/-- TW.YCMASK (R272). -/
def Reg.TW.YCMASK.ycmask (n : Nat) : Fld := ⟨0xB0000 + 0x400 * n + 0x1C, 0, 24, .rw, 0xFFFFFF⟩
/-- TW.BG (R272). -/
def Reg.TW.BG.bg (n : Nat) : Fld := ⟨0xB0000 + 0x400 * n + 0x20, 0, 24, .rw, 0⟩
/-- TW.SCR_SEL (R272). -/
def Reg.TW.SCR_SEL.sel (n : Nat) : Fld := ⟨0xB0000 + 0x400 * n + 0x24, 0, 30, .rw, 0⟩
/-- TW.STATUS (R272). -/
def Reg.TW.STATUS.cfg_reject (n : Nat) : Fld := ⟨0xB0000 + 0x400 * n + 0x28, 0, 1, .w1c, 0⟩
/-- TW.OP (R272). -/
def Reg.TW.OP.xact (n : Nat) (i : Nat) : Fld := ⟨0xB0000 + 0x400 * n + 0x40 + 4 * i, 0, 2, .rw, 0⟩
/-- TW.OP (R272). -/
def Reg.TW.OP.yact (n : Nat) (i : Nat) : Fld := ⟨0xB0000 + 0x400 * n + 0x40 + 4 * i, 2, 2, .rw, 0⟩
/-- TW.OP (R272). -/
def Reg.TW.OP.ylink (n : Nat) (i : Nat) : Fld := ⟨0xB0000 + 0x400 * n + 0x40 + 4 * i, 4, 1, .rw, 0⟩
/-- TW.OP (R272). -/
def Reg.TW.OP.xload (n : Nat) (i : Nat) : Fld := ⟨0xB0000 + 0x400 * n + 0x40 + 4 * i, 5, 1, .rw, 0⟩
/-- TW.OP (R272). -/
def Reg.TW.OP.yload (n : Nat) (i : Nat) : Fld := ⟨0xB0000 + 0x400 * n + 0x40 + 4 * i, 6, 1, .rw, 0⟩
/-- TW.OP (R272). -/
def Reg.TW.OP.dmode (n : Nat) (i : Nat) : Fld := ⟨0xB0000 + 0x400 * n + 0x40 + 4 * i, 7, 2, .rw, 0⟩
/-- TW.OP (R272). -/
def Reg.TW.OP.p_m1 (n : Nat) (i : Nat) : Fld := ⟨0xB0000 + 0x400 * n + 0x40 + 4 * i, 9, 4, .rw, 0⟩
/-- TW.OP (R272). -/
def Reg.TW.OP.dinv (n : Nat) (i : Nat) : Fld := ⟨0xB0000 + 0x400 * n + 0x40 + 4 * i, 13, 16, .rw, 0⟩
/-- TW.PINMAP (R272). -/
def Reg.TW.PINMAP.map (n : Nat) (q : Nat) : Fld := ⟨0xB0000 + 0x400 * n + 0x80 + 4 * q, 0, 32, .rw, 0⟩
/-- TW.SCR (R272). -/
def Reg.TW.SCR.word (n : Nat) (i : Nat) : Fld := ⟨0xB0000 + 0x400 * n + 0x100 + 4 * i, 0, 24, .rw, 0⟩
/-- WFM.CTRL (R290). -/
def Reg.WFM.CTRL.en (c : Nat) : Fld := ⟨0xD0000 + 0x20 * c + 0x0, 0, 1, .rw, 0⟩
/-- WFM.CTRL (R290). -/
def Reg.WFM.CTRL.filter (c : Nat) : Fld := ⟨0xD0000 + 0x20 * c + 0x0, 1, 1, .rw, 0⟩
/-- WFM.CTRL (R290). -/
def Reg.WFM.CTRL.uflow_strict (c : Nat) : Fld := ⟨0xD0000 + 0x20 * c + 0x0, 2, 1, .rw, 0⟩
/-- WFM.CTRL (R290). -/
def Reg.WFM.CTRL.start_at (c : Nat) : Fld := ⟨0xD0000 + 0x20 * c + 0x0, 3, 1, .rw, 0⟩
/-- WFM.CTRL (R290). -/
def Reg.WFM.CTRL.end_hold (c : Nat) : Fld := ⟨0xD0000 + 0x20 * c + 0x0, 4, 1, .rw, 0⟩
/-- WFM.CTRL (R290). -/
def Reg.WFM.CTRL.end_evt (c : Nat) : Fld := ⟨0xD0000 + 0x20 * c + 0x0, 5, 1, .rw, 0⟩
/-- WFM.CTRL (R290). -/
def Reg.WFM.CTRL.end_code (c : Nat) : Fld := ⟨0xD0000 + 0x20 * c + 0x0, 6, 8, .rw, 0⟩
/-- WFM.CTRL (R290). -/
def Reg.WFM.CTRL.rate_commit (c : Nat) : Fld := ⟨0xD0000 + 0x20 * c + 0x0, 14, 1, .wo, 0⟩
/-- WFM.DESC (R290). -/
def Reg.WFM.DESC.addr (c : Nat) : Fld := ⟨0xD0000 + 0x20 * c + 0x4, 0, 29, .rw, 0⟩
/-- WFM.OUT_DIV (R290). -/
def Reg.WFM.OUT_DIV.div (c : Nat) : Fld := ⟨0xD0000 + 0x20 * c + 0x8, 0, 25, .rw, 0x7D00⟩
/-- WFM.STEP (R290). -/
def Reg.WFM.STEP.step (c : Nat) : Fld := ⟨0xD0000 + 0x20 * c + 0xC, 0, 32, .rw, 0x1000000⟩
/-- WFM.START (R290). -/
def Reg.WFM.START.time (c : Nat) : Fld := ⟨0xD0000 + 0x20 * c + 0x10, 0, 48, .rw, 0⟩
/-- WFM.UFLOW (R290). -/
def Reg.WFM.UFLOW.count (c : Nat) : Fld := ⟨0xD0000 + 0x20 * c + 0x18, 0, 24, .rc, 0⟩
/-- WFM.STATUS (R290). -/
def Reg.WFM.STATUS.state (c : Nat) : Fld := ⟨0xD0000 + 0x20 * c + 0x1C, 0, 3, .ro, 0⟩
/-- WFM.STATUS (R290). -/
def Reg.WFM.STATUS.end_cause (c : Nat) : Fld := ⟨0xD0000 + 0x20 * c + 0x1C, 3, 3, .ro, 0⟩
/-- WFM.STATUS (R290). -/
def Reg.WFM.STATUS.rate_pending (c : Nat) : Fld := ⟨0xD0000 + 0x20 * c + 0x1C, 6, 1, .ro, 0⟩
/-- WFM.STATUS (R290). -/
def Reg.WFM.STATUS.clip (c : Nat) : Fld := ⟨0xD0000 + 0x20 * c + 0x1C, 7, 1, .w1c, 0⟩
/-- WFM.STATUS (R290). -/
def Reg.WFM.STATUS.uflow (c : Nat) : Fld := ⟨0xD0000 + 0x20 * c + 0x1C, 8, 1, .w1c, 0⟩
/-- WFM.STATUS (R290). -/
def Reg.WFM.STATUS.force_ignored (c : Nat) : Fld := ⟨0xD0000 + 0x20 * c + 0x1C, 9, 1, .w1c, 0⟩
/-- WFM.STATUS (R290). -/
def Reg.WFM.STATUS.late_start (c : Nat) : Fld := ⟨0xD0000 + 0x20 * c + 0x1C, 10, 1, .w1c, 0⟩
/-- WFM.STATUS (R290). -/
def Reg.WFM.STATUS.start_reject (c : Nat) : Fld := ⟨0xD0000 + 0x20 * c + 0x1C, 11, 1, .w1c, 0⟩
/-- WFM.STATUS (R290). -/
def Reg.WFM.STATUS.set_reject (c : Nat) : Fld := ⟨0xD0000 + 0x20 * c + 0x1C, 12, 1, .w1c, 0⟩
/-- WFM.STATUS (R290). -/
def Reg.WFM.STATUS.reject_code (c : Nat) : Fld := ⟨0xD0000 + 0x20 * c + 0x1C, 13, 2, .ro, 0⟩
/-- WFM.STATUS (R290). -/
def Reg.WFM.STATUS.bad_desc (c : Nat) : Fld := ⟨0xD0000 + 0x20 * c + 0x1C, 16, 16, .ro, 0⟩
/-- LOOM.CAP_ARM (R314). -/
def Reg.LOOM.CAP_ARM.desc (n : Nat) : Fld := ⟨0x10000 + 0x100 * n + 0x80, 0, 29, .wo, 0⟩
/-- LOOM.CAP_CMD (R314). -/
def Reg.LOOM.CAP_CMD.trig (n : Nat) : Fld := ⟨0x10000 + 0x100 * n + 0x84, 0, 1, .wo, 0⟩
/-- LOOM.CAP_CMD (R314). -/
def Reg.LOOM.CAP_CMD.disarm (n : Nat) : Fld := ⟨0x10000 + 0x100 * n + 0x84, 1, 1, .wo, 0⟩
/-- LOOM.CAP_STATUS (R314). -/
def Reg.LOOM.CAP_STATUS.state (n : Nat) : Fld := ⟨0x10000 + 0x100 * n + 0x88, 0, 3, .ro, 0⟩
/-- LOOM.CAP_STATUS (R314). -/
def Reg.LOOM.CAP_STATUS.queued (n : Nat) : Fld := ⟨0x10000 + 0x100 * n + 0x88, 3, 1, .ro, 0⟩
/-- LOOM.CAP_STATUS (R314). -/
def Reg.LOOM.CAP_STATUS.arm_status (n : Nat) : Fld := ⟨0x10000 + 0x100 * n + 0x88, 4, 4, .ro, 0⟩
/-- LOOM.CAP_STATUS (R314). -/
def Reg.LOOM.CAP_STATUS.gap (n : Nat) : Fld := ⟨0x10000 + 0x100 * n + 0x88, 8, 1, .w1c, 0⟩
/-- LOOM.CAP_STATUS (R314). -/
def Reg.LOOM.CAP_STATUS.lost (n : Nat) : Fld := ⟨0x10000 + 0x100 * n + 0x88, 9, 1, .w1c, 0⟩
/-- LOOM.CAP_STATUS (R314). -/
def Reg.LOOM.CAP_STATUS.closed (n : Nat) : Fld := ⟨0x10000 + 0x100 * n + 0x88, 10, 1, .w1c, 0⟩
/-- LOOM.CAP_STATUS (R314). -/
def Reg.LOOM.CAP_STATUS.cmd_reject (n : Nat) : Fld := ⟨0x10000 + 0x100 * n + 0x88, 11, 1, .w1c, 0⟩
/-- LOOM.CAP_STATUS (R314). -/
def Reg.LOOM.CAP_STATUS.arm_reject (n : Nat) : Fld := ⟨0x10000 + 0x100 * n + 0x88, 12, 1, .w1c, 0⟩
/-- LOOM.CAP_INDEX (R314). -/
def Reg.LOOM.CAP_INDEX.capture (n : Nat) : Fld := ⟨0x10000 + 0x100 * n + 0x8C, 0, 16, .ro, 0⟩
/-- LOOM.CAP_SLOT (R314). -/
def Reg.LOOM.CAP_SLOT.slot (n : Nat) : Fld := ⟨0x10000 + 0x100 * n + 0x90, 0, 24, .ro, 0⟩
/-- LOOM.CAP_LOST (R314). -/
def Reg.LOOM.CAP_LOST.count (n : Nat) : Fld := ⟨0x10000 + 0x100 * n + 0x94, 0, 24, .rc, 0⟩
/-- LOOM.CAP_DROP (R314). -/
def Reg.LOOM.CAP_DROP.count (n : Nat) : Fld := ⟨0x10000 + 0x100 * n + 0x98, 0, 24, .rc, 0⟩
/-- TME.CTRL (R329). -/
def Reg.TME.CTRL.mode (d : Nat) : Fld := ⟨0xE0000 + 0x80 * d + 0x0, 0, 3, .rw, 0⟩
/-- TME.CTRL (R329). -/
def Reg.TME.CTRL.gate_src (d : Nat) : Fld := ⟨0xE0000 + 0x80 * d + 0x0, 3, 1, .rw, 0⟩
/-- TME.CTRL (R329). -/
def Reg.TME.CTRL.start_at (d : Nat) : Fld := ⟨0xE0000 + 0x80 * d + 0x0, 4, 1, .rw, 0⟩
/-- TME.SRC_A (R329). -/
def Reg.TME.SRC_A.src (d : Nat) : Fld := ⟨0xE0000 + 0x80 * d + 0x4, 0, 3, .rw, 0⟩
/-- TME.SRC_A (R329). -/
def Reg.TME.SRC_A.edge (d : Nat) : Fld := ⟨0xE0000 + 0x80 * d + 0x4, 3, 2, .rw, 1⟩
/-- TME.SRC_A (R329). -/
def Reg.TME.SRC_A.k (d : Nat) : Fld := ⟨0xE0000 + 0x80 * d + 0x4, 5, 5, .rw, 0⟩
/-- TME.SRC_A (R329). -/
def Reg.TME.SRC_A.vf (d : Nat) : Fld := ⟨0xE0000 + 0x80 * d + 0x4, 10, 1, .rw, 0⟩
/-- TME.SRC_A (R329). -/
def Reg.TME.SRC_A.code (d : Nat) : Fld := ⟨0xE0000 + 0x80 * d + 0x4, 16, 8, .rw, 0⟩
/-- TME.SRC_A (R329). -/
def Reg.TME.SRC_A.mask (d : Nat) : Fld := ⟨0xE0000 + 0x80 * d + 0x4, 24, 8, .rw, 0⟩
/-- TME.SRC_B (R329). -/
def Reg.TME.SRC_B.src (d : Nat) : Fld := ⟨0xE0000 + 0x80 * d + 0x8, 0, 3, .rw, 0⟩
/-- TME.SRC_B (R329). -/
def Reg.TME.SRC_B.edge (d : Nat) : Fld := ⟨0xE0000 + 0x80 * d + 0x8, 3, 2, .rw, 1⟩
/-- TME.SRC_B (R329). -/
def Reg.TME.SRC_B.k (d : Nat) : Fld := ⟨0xE0000 + 0x80 * d + 0x8, 5, 5, .rw, 0⟩
/-- TME.SRC_B (R329). -/
def Reg.TME.SRC_B.vf (d : Nat) : Fld := ⟨0xE0000 + 0x80 * d + 0x8, 10, 1, .rw, 0⟩
/-- TME.SRC_B (R329). -/
def Reg.TME.SRC_B.code (d : Nat) : Fld := ⟨0xE0000 + 0x80 * d + 0x8, 16, 8, .rw, 0⟩
/-- TME.SRC_B (R329). -/
def Reg.TME.SRC_B.mask (d : Nat) : Fld := ⟨0xE0000 + 0x80 * d + 0x8, 24, 8, .rw, 0⟩
/-- TME.N (R329). -/
def Reg.TME.N.n (d : Nat) : Fld := ⟨0xE0000 + 0x80 * d + 0xC, 0, 24, .rw, 1⟩
/-- TME.PACE (R329). -/
def Reg.TME.PACE.pace (d : Nat) : Fld := ⟨0xE0000 + 0x80 * d + 0x10, 0, 24, .rw, 1⟩
/-- TME.GATE (R329). -/
def Reg.TME.GATE.ticks (d : Nat) : Fld := ⟨0xE0000 + 0x80 * d + 0x14, 0, 24, .rw, 100⟩
/-- TME.TIMEOUT (R329). -/
def Reg.TME.TIMEOUT.ticks (d : Nat) : Fld := ⟨0xE0000 + 0x80 * d + 0x18, 0, 24, .rw, 0xFFFFFF⟩
/-- TME.START (R329). -/
def Reg.TME.START.time (d : Nat) : Fld := ⟨0xE0000 + 0x80 * d + 0x1C, 0, 48, .rw, 0⟩
/-- TME.CMD (R329). -/
def Reg.TME.CMD.arm (d : Nat) : Fld := ⟨0xE0000 + 0x80 * d + 0x24, 0, 1, .wo, 0⟩
/-- TME.CMD (R329). -/
def Reg.TME.CMD.stop (d : Nat) : Fld := ⟨0xE0000 + 0x80 * d + 0x24, 1, 1, .wo, 0⟩
/-- TME.STATUS (R329). -/
def Reg.TME.STATUS.state (d : Nat) : Fld := ⟨0xE0000 + 0x80 * d + 0x28, 0, 2, .ro, 0⟩
/-- TME.STATUS (R329). -/
def Reg.TME.STATUS.end_cause (d : Nat) : Fld := ⟨0xE0000 + 0x80 * d + 0x28, 2, 3, .ro, 0⟩
/-- TME.STATUS (R329). -/
def Reg.TME.STATUS.no_signal (d : Nat) : Fld := ⟨0xE0000 + 0x80 * d + 0x28, 5, 1, .w1c, 0⟩
/-- TME.STATUS (R329). -/
def Reg.TME.STATUS.exchange (d : Nat) : Fld := ⟨0xE0000 + 0x80 * d + 0x28, 6, 1, .w1c, 0⟩
/-- TME.STATUS (R329). -/
def Reg.TME.STATUS.lock_lost (d : Nat) : Fld := ⟨0xE0000 + 0x80 * d + 0x28, 7, 1, .w1c, 0⟩
/-- TME.STATUS (R329). -/
def Reg.TME.STATUS.stdev_sat (d : Nat) : Fld := ⟨0xE0000 + 0x80 * d + 0x28, 8, 1, .w1c, 0⟩
/-- TME.STATUS (R329). -/
def Reg.TME.STATUS.arm_reject (d : Nat) : Fld := ⟨0xE0000 + 0x80 * d + 0x28, 9, 1, .w1c, 0⟩
/-- TME.STATUS (R329). -/
def Reg.TME.STATUS.set_reject (d : Nat) : Fld := ⟨0xE0000 + 0x80 * d + 0x28, 10, 1, .w1c, 0⟩
/-- TME.STATUS (R329). -/
def Reg.TME.STATUS.reject_code (d : Nat) : Fld := ⟨0xE0000 + 0x80 * d + 0x28, 11, 3, .ro, 0⟩
/-- TME.COUNT (R329). -/
def Reg.TME.COUNT.n (d : Nat) : Fld := ⟨0xE0000 + 0x80 * d + 0x2C, 0, 24, .ro, 0⟩
/-- TME.MEAN (R329). -/
def Reg.TME.MEAN.mean (d : Nat) : Fld := ⟨0xE0000 + 0x80 * d + 0x30, 0, 48, .ro, 0⟩
/-- TME.STDEV (R329). -/
def Reg.TME.STDEV.stdev (d : Nat) : Fld := ⟨0xE0000 + 0x80 * d + 0x38, 0, 32, .ro, 0⟩
/-- TME.MIN (R329). -/
def Reg.TME.MIN.min (d : Nat) : Fld := ⟨0xE0000 + 0x80 * d + 0x3C, 0, 40, .ro, 0⟩
/-- TME.MAX (R329). -/
def Reg.TME.MAX.max (d : Nat) : Fld := ⟨0xE0000 + 0x80 * d + 0x44, 0, 40, .ro, 0⟩
/-- TME.LAST (R329). -/
def Reg.TME.LAST.last (d : Nat) : Fld := ⟨0xE0000 + 0x80 * d + 0x4C, 0, 40, .ro, 0⟩
/-- TME.DISCARD (R329). -/
def Reg.TME.DISCARD.count (d : Nat) : Fld := ⟨0xE0000 + 0x80 * d + 0x54, 0, 24, .rc, 0⟩
/-- TME.OVERRUN (R329). -/
def Reg.TME.OVERRUN.count (d : Nat) : Fld := ⟨0xE0000 + 0x80 * d + 0x58, 0, 24, .rc, 0⟩
/-- LOOM.SPARE_MEAS (R355). -/
def Reg.LOOM.SPARE_MEAS.rate (n : Nat) : Fld := ⟨0x10000 + 0x100 * n + 0x9C, 0, 16, .rw, 500⟩
/-- LOOM.SPARE_MEAS (R355). -/
def Reg.LOOM.SPARE_MEAS.tap (n : Nat) : Fld := ⟨0x10000 + 0x100 * n + 0x9C, 16, 3, .rw, 2⟩
/-- LOOM.MILL_CMD (R355). -/
def Reg.LOOM.MILL_CMD.entry (n : Nat) : Fld := ⟨0x10000 + 0x100 * n + 0xA0, 0, 11, .wo, 0⟩
/-- LOOM.MILL_CMD (R355). -/
def Reg.LOOM.MILL_CMD.start (n : Nat) : Fld := ⟨0x10000 + 0x100 * n + 0xA0, 11, 1, .wo, 0⟩
/-- LOOM.MILL_CMD (R355). -/
def Reg.LOOM.MILL_CMD.stop (n : Nat) : Fld := ⟨0x10000 + 0x100 * n + 0xA0, 12, 1, .wo, 0⟩
/-- LOOM.MILL_STATUS (R355). -/
def Reg.LOOM.MILL_STATUS.status (n : Nat) : Fld := ⟨0x10000 + 0x100 * n + 0xA4, 0, 24, .ro, 0⟩
/-- LOOM.MILL_STATE (R355). -/
def Reg.LOOM.MILL_STATE.state (n : Nat) : Fld := ⟨0x10000 + 0x100 * n + 0xA8, 0, 2, .ro, 0⟩
/-- LOOM.MILL_STATE (R355). -/
def Reg.LOOM.MILL_STATE.pc (n : Nat) : Fld := ⟨0x10000 + 0x100 * n + 0xA8, 2, 11, .ro, 0⟩
/-- LOOM.MILL_STATE (R355). -/
def Reg.LOOM.MILL_STATE.ecc_corr (n : Nat) : Fld := ⟨0x10000 + 0x100 * n + 0xA8, 13, 1, .w1c, 0⟩
/-- LOOM.MILL_STATE (R355). -/
def Reg.LOOM.MILL_STATE.start_reject (n : Nat) : Fld := ⟨0x10000 + 0x100 * n + 0xA8, 14, 1, .w1c, 0⟩
/-- LOOM.MILL_STATE (R355). -/
def Reg.LOOM.MILL_STATE.reject_code (n : Nat) : Fld := ⟨0x10000 + 0x100 * n + 0xA8, 15, 2, .ro, 0⟩
/-- LOOM.MILL_STEPS (R355). -/
def Reg.LOOM.MILL_STEPS.steps (n : Nat) : Fld := ⟨0x10000 + 0x100 * n + 0xAC, 0, 48, .ro, 0⟩
/-- LOOM.MILL_PEAK (R355). -/
def Reg.LOOM.MILL_PEAK.peak (n : Nat) : Fld := ⟨0x10000 + 0x100 * n + 0xB4, 0, 11, .rc, 0⟩
/-- LOOM.MILL_DROP (R355). -/
def Reg.LOOM.MILL_DROP.count (n : Nat) : Fld := ⟨0x10000 + 0x100 * n + 0xB8, 0, 24, .rc, 0⟩
/-- LOOM.MILL_DISC (R355). -/
def Reg.LOOM.MILL_DISC.count (n : Nat) : Fld := ⟨0x10000 + 0x100 * n + 0xBC, 0, 24, .rc, 0⟩
/-- GLB_MILL_SEL (R356). -/
def Reg.GLB_MILL_SEL.loom (m : Nat) : Fld := ⟨0x540 + 0x1000000 * m, 0, 5, .rw, 0⟩
/-- GLB_MILL_SEL (R356). -/
def Reg.GLB_MILL_SEL.page (m : Nat) : Fld := ⟨0x540 + 0x1000000 * m, 8, 3, .rw, 0⟩
/-- GLB_MILL_SEL (R356). -/
def Reg.GLB_MILL_SEL.write_reject (m : Nat) : Fld := ⟨0x540 + 0x1000000 * m, 31, 1, .w1c, 0⟩
/-- TAP.CFG (R374). -/
def Reg.TAP.CFG.loom (o : Nat) : Fld := ⟨0xC8000 + 0x100 * o + 0x0, 0, 5, .rw, 0⟩
/-- TAP.BG (R374). -/
def Reg.TAP.BG.bg (o : Nat) : Fld := ⟨0xC8000 + 0x100 * o + 0x4, 0, 24, .rw, 0⟩
/-- TAP.BLANK (R374). -/
def Reg.TAP.BLANK.blank (o : Nat) : Fld := ⟨0xC8000 + 0x100 * o + 0x8, 0, 24, .rw, 0⟩
/-- TAP.CMD (R374). -/
def Reg.TAP.CMD.tim_commit (o : Nat) : Fld := ⟨0xC8000 + 0x100 * o + 0xC, 0, 1, .wo, 0⟩
/-- TAP.CMD (R374). -/
def Reg.TAP.CMD.layer_commit (o : Nat) : Fld := ⟨0xC8000 + 0x100 * o + 0xC, 1, 1, .wo, 0⟩
/-- TAP.STATUS (R374). -/
def Reg.TAP.STATUS.tim_pending (o : Nat) : Fld := ⟨0xC8000 + 0x100 * o + 0x10, 0, 1, .ro, 0⟩
/-- TAP.STATUS (R374). -/
def Reg.TAP.STATUS.layer_pending (o : Nat) : Fld := ⟨0xC8000 + 0x100 * o + 0x10, 1, 1, .ro, 0⟩
/-- TAP.STATUS (R374). -/
def Reg.TAP.STATUS.tim_reject (o : Nat) : Fld := ⟨0xC8000 + 0x100 * o + 0x10, 2, 1, .w1c, 0⟩
/-- TAP.STATUS (R374). -/
def Reg.TAP.STATUS.layer_reject (o : Nat) : Fld := ⟨0xC8000 + 0x100 * o + 0x10, 3, 1, .w1c, 0⟩
/-- TAP.STATUS (R374). -/
def Reg.TAP.STATUS.reason (o : Nat) : Fld := ⟨0xC8000 + 0x100 * o + 0x10, 4, 4, .ro, 0⟩
/-- TAP.STATUS (R374). -/
def Reg.TAP.STATUS.bad_layer (o : Nat) : Fld := ⟨0xC8000 + 0x100 * o + 0x10, 8, 2, .ro, 0⟩
/-- TAP.STATUS (R374). -/
def Reg.TAP.STATUS.cfg_reject (o : Nat) : Fld := ⟨0xC8000 + 0x100 * o + 0x10, 10, 1, .w1c, 0⟩
/-- TAP.STATUS (R374). -/
def Reg.TAP.STATUS.pix_ecc (o : Nat) : Fld := ⟨0xC8000 + 0x100 * o + 0x10, 11, 1, .w1c, 0⟩
/-- TAP.STATUS (R374). -/
def Reg.TAP.STATUS.start_code (o : Nat) : Fld := ⟨0xC8000 + 0x100 * o + 0x10, 12, 3, .ro, 0⟩
/-- TAP.FRAME (R374). -/
def Reg.TAP.FRAME.count (o : Nat) : Fld := ⟨0xC8000 + 0x100 * o + 0x14, 0, 24, .ro, 0⟩
/-- TAP.POS (R374). -/
def Reg.TAP.POS.slot (o : Nat) : Fld := ⟨0xC8000 + 0x100 * o + 0x18, 0, 14, .ro, 0⟩
/-- TAP.POS (R374). -/
def Reg.TAP.POS.line (o : Nat) : Fld := ⟨0xC8000 + 0x100 * o + 0x18, 14, 12, .ro, 0⟩
/-- TAP.PINMAP (R374). -/
def Reg.TAP.PINMAP.map (o : Nat) (q : Nat) : Fld := ⟨0xC8000 + 0x100 * o + 0x20 + 4 * q, 0, 32, .rw, 0⟩
/-- TAP.TIM_H1 (R374). -/
def Reg.TAP.TIM_H1.h_active (o : Nat) : Fld := ⟨0xC8000 + 0x100 * o + 0x40, 0, 13, .rw, 64⟩
/-- TAP.TIM_H1 (R374). -/
def Reg.TAP.TIM_H1.h_fp (o : Nat) : Fld := ⟨0xC8000 + 0x100 * o + 0x40, 16, 12, .rw, 8⟩
/-- TAP.TIM_H2 (R374). -/
def Reg.TAP.TIM_H2.h_sync (o : Nat) : Fld := ⟨0xC8000 + 0x100 * o + 0x44, 0, 12, .rw, 8⟩
/-- TAP.TIM_H2 (R374). -/
def Reg.TAP.TIM_H2.h_bp (o : Nat) : Fld := ⟨0xC8000 + 0x100 * o + 0x44, 16, 12, .rw, 8⟩
/-- TAP.TIM_V1 (R374). -/
def Reg.TAP.TIM_V1.v_active (o : Nat) : Fld := ⟨0xC8000 + 0x100 * o + 0x48, 0, 12, .rw, 64⟩
/-- TAP.TIM_V1 (R374). -/
def Reg.TAP.TIM_V1.v_fp (o : Nat) : Fld := ⟨0xC8000 + 0x100 * o + 0x48, 16, 12, .rw, 1⟩
/-- TAP.TIM_V2 (R374). -/
def Reg.TAP.TIM_V2.v_sync (o : Nat) : Fld := ⟨0xC8000 + 0x100 * o + 0x4C, 0, 12, .rw, 1⟩
/-- TAP.TIM_V2 (R374). -/
def Reg.TAP.TIM_V2.v_bp (o : Nat) : Fld := ⟨0xC8000 + 0x100 * o + 0x4C, 16, 12, .rw, 1⟩
/-- TAP.L_ADDR (R374). -/
def Reg.TAP.L_ADDR.addr (o : Nat) (l : Nat) : Fld := ⟨0xC8000 + 0x100 * o + 0x80 + 0x20 * l, 0, 33, .rw, 0⟩
/-- TAP.L_SIZE (R374). -/
def Reg.TAP.L_SIZE.width (o : Nat) (l : Nat) : Fld := ⟨0xC8000 + 0x100 * o + 0x88 + 0x20 * l, 0, 13, .rw, 0⟩
/-- TAP.L_SIZE (R374). -/
def Reg.TAP.L_SIZE.height (o : Nat) (l : Nat) : Fld := ⟨0xC8000 + 0x100 * o + 0x88 + 0x20 * l, 16, 12, .rw, 0⟩
/-- TAP.L_POS (R374). -/
def Reg.TAP.L_POS.x_pos (o : Nat) (l : Nat) : Fld := ⟨0xC8000 + 0x100 * o + 0x8C + 0x20 * l, 0, 13, .rw, 0⟩
/-- TAP.L_POS (R374). -/
def Reg.TAP.L_POS.y_pos (o : Nat) (l : Nat) : Fld := ⟨0xC8000 + 0x100 * o + 0x8C + 0x20 * l, 16, 12, .rw, 0⟩
/-- TAP.L_STRIDE (R374). -/
def Reg.TAP.L_STRIDE.stride (o : Nat) (l : Nat) : Fld := ⟨0xC8000 + 0x100 * o + 0x90 + 0x20 * l, 0, 18, .rw, 0⟩
/-- TAP.L_FMT (R374). -/
def Reg.TAP.L_FMT.en (o : Nat) (l : Nat) : Fld := ⟨0xC8000 + 0x100 * o + 0x94 + 0x20 * l, 0, 1, .rw, 0⟩
/-- TAP.L_FMT (R374). -/
def Reg.TAP.L_FMT.format (o : Nat) (l : Nat) : Fld := ⟨0xC8000 + 0x100 * o + 0x94 + 0x20 * l, 1, 2, .rw, 0⟩
/-- TAP.L_FMT (R374). -/
def Reg.TAP.L_FMT.alpha (o : Nat) (l : Nat) : Fld := ⟨0xC8000 + 0x100 * o + 0x94 + 0x20 * l, 3, 2, .rw, 0⟩
/-- TAP.L_FMT (R374). -/
def Reg.TAP.L_FMT.const_alpha (o : Nat) (l : Nat) : Fld := ⟨0xC8000 + 0x100 * o + 0x94 + 0x20 * l, 8, 8, .rw, 255⟩
/-- TAP.L_RET (R374). -/
def Reg.TAP.L_RET.ret (o : Nat) (l : Nat) : Fld := ⟨0xC8000 + 0x100 * o + 0x98 + 0x20 * l, 0, 33, .ro, 0⟩
/-- TAP.L_RET (R374). -/
def Reg.TAP.L_RET.ret_count (o : Nat) (l : Nat) : Fld := ⟨0xC8000 + 0x100 * o + 0x9C + 0x20 * l, 8, 24, .ro, 0⟩
/-- GLB_SCRUB_CTRL (R384). -/
def Reg.GLB_SCRUB_CTRL.period_h : Fld := ⟨0x40, 0, 8, .rw, 24⟩
/-- GLB_SCRUB_CTRL (R384). -/
def Reg.GLB_SCRUB_CTRL.cfg_reject : Fld := ⟨0x40, 31, 1, .w1c, 0⟩
/-- GLB_SCRUB_POS (R384). -/
def Reg.GLB_SCRUB_POS.line : Fld := ⟨0x44, 0, 27, .ro, 0⟩
/-- GLB_SCRUB_PASS (R384). -/
def Reg.GLB_SCRUB_PASS.count : Fld := ⟨0x48, 0, 24, .ro, 0⟩
/-- GLB_GRAN_CE (R384). -/
def Reg.GLB_GRAN_CE.count : Fld := ⟨0x50, 0, 24, .rc, 0⟩
/-- GLB_GRAN_UE (R384). -/
def Reg.GLB_GRAN_UE.count : Fld := ⟨0x54, 0, 24, .rc, 0⟩
/-- GLB_GRAN_ERR_LO (R384). -/
def Reg.GLB_GRAN_ERR_LO.line : Fld := ⟨0x58, 0, 27, .ro, 0⟩
/-- GLB_GRAN_ERR_HI (R384). -/
def Reg.GLB_GRAN_ERR_HI.half : Fld := ⟨0x5C, 0, 1, .ro, 0⟩
/-- GLB_GRAN_ERR_HI (R384). -/
def Reg.GLB_GRAN_ERR_HI.source : Fld := ⟨0x5C, 1, 3, .ro, 0⟩
/-- GLB_GRAN_ERR_HI (R384). -/
def Reg.GLB_GRAN_ERR_HI.unit : Fld := ⟨0x5C, 4, 5, .ro, 0⟩
/-- GLB_GRAN_ERR_HI (R384). -/
def Reg.GLB_GRAN_ERR_HI.valid : Fld := ⟨0x5C, 31, 1, .w1c, 0⟩
/-- GLB_GRAN_IRQ (R384). -/
def Reg.GLB_GRAN_IRQ.ue : Fld := ⟨0x60, 0, 1, .w1c, 0⟩
/-- GLB_GRAN_IRQ (R384). -/
def Reg.GLB_GRAN_IRQ.ce_over : Fld := ⟨0x60, 1, 1, .w1c, 0⟩
/-- GLB_GRAN_IRQ (R384). -/
def Reg.GLB_GRAN_IRQ.ue_en : Fld := ⟨0x60, 2, 1, .rw, 1⟩
/-- GLB_GRAN_IRQ (R384). -/
def Reg.GLB_GRAN_IRQ.ce_en : Fld := ⟨0x60, 3, 1, .rw, 0⟩
/-- GLB_GRAN_IRQ (R384). -/
def Reg.GLB_GRAN_IRQ.ce_limit : Fld := ⟨0x60, 8, 16, .rw, 256⟩
/-- LOOM.IRQ_CAUSE (R401). -/
def Reg.LOOM.IRQ_CAUSE.burst_end (n : Nat) : Fld := ⟨0x10000 + 0x100 * n + 0xC0, 0, 1, .w1c, 0⟩
/-- LOOM.IRQ_CAUSE (R401). -/
def Reg.LOOM.IRQ_CAUSE.burst_flag (n : Nat) : Fld := ⟨0x10000 + 0x100 * n + 0xC0, 1, 1, .w1c, 0⟩
/-- LOOM.IRQ_CAUSE (R401). -/
def Reg.LOOM.IRQ_CAUSE.cap_closed (n : Nat) : Fld := ⟨0x10000 + 0x100 * n + 0xC0, 2, 1, .w1c, 0⟩
/-- LOOM.IRQ_CAUSE (R401). -/
def Reg.LOOM.IRQ_CAUSE.cap_err (n : Nat) : Fld := ⟨0x10000 + 0x100 * n + 0xC0, 3, 1, .w1c, 0⟩
/-- LOOM.IRQ_CAUSE (R401). -/
def Reg.LOOM.IRQ_CAUSE.flog_overflow (n : Nat) : Fld := ⟨0x10000 + 0x100 * n + 0xC0, 4, 1, .w1c, 0⟩
/-- LOOM.IRQ_CAUSE (R401). -/
def Reg.LOOM.IRQ_CAUSE.mill_idle (n : Nat) : Fld := ⟨0x10000 + 0x100 * n + 0xC0, 5, 1, .w1c, 0⟩
/-- LOOM.IRQ_CAUSE (R401). -/
def Reg.LOOM.IRQ_CAUSE.mill_err (n : Nat) : Fld := ⟨0x10000 + 0x100 * n + 0xC0, 6, 1, .w1c, 0⟩
/-- LOOM.IRQ_CAUSE (R401). -/
def Reg.LOOM.IRQ_CAUSE.tme_done (n : Nat) : Fld := ⟨0x10000 + 0x100 * n + 0xC0, 7, 1, .w1c, 0⟩
/-- LOOM.IRQ_CAUSE (R401). -/
def Reg.LOOM.IRQ_CAUSE.mon_pend (n : Nat) : Fld := ⟨0x10000 + 0x100 * n + 0xC0, 8, 1, .w1c, 0⟩
/-- LOOM.IRQ_CAUSE (R401). -/
def Reg.LOOM.IRQ_CAUSE.lock_lost (n : Nat) : Fld := ⟨0x10000 + 0x100 * n + 0xC0, 9, 1, .w1c, 0⟩
/-- LOOM.IRQ_CAUSE (R401). -/
def Reg.LOOM.IRQ_CAUSE.service_miss (n : Nat) : Fld := ⟨0x10000 + 0x100 * n + 0xC0, 10, 1, .w1c, 0⟩
/-- LOOM.IRQ_CAUSE (R401). -/
def Reg.LOOM.IRQ_CAUSE.wfm_end (n : Nat) : Fld := ⟨0x10000 + 0x100 * n + 0xC0, 11, 1, .w1c, 0⟩
/-- LOOM.IRQ_CAUSE (R401). -/
def Reg.LOOM.IRQ_CAUSE.shu_fault (n : Nat) : Fld := ⟨0x10000 + 0x100 * n + 0xC0, 12, 1, .w1c, 0⟩
/-- LOOM.IRQ_EN (R401). -/
def Reg.LOOM.IRQ_EN.en (n : Nat) : Fld := ⟨0x10000 + 0x100 * n + 0xC4, 0, 13, .rw, 0⟩
/-- GLB_ID (R403). -/
def Reg.GLB_ID.grade : Fld := ⟨0x0, 0, 8, .ro, Config.grade.toNat⟩
/-- GLB_ID (R403). -/
def Reg.GLB_ID.rev : Fld := ⟨0x0, 8, 8, .ro, Config.revision.toNat⟩
/-- GLB_ID (R403). -/
def Reg.GLB_ID.part : Fld := ⟨0x0, 16, 16, .ro, 0x768⟩
/-- GLB_SERIAL (R403). -/
def Reg.GLB_SERIAL.serial : Fld := ⟨0x4, 0, 48, .ro, Config.serial.toNat⟩
/-- GLB_STATUS (R403). -/
def Reg.GLB_STATUS.gran_ready : Fld := ⟨0xC, 0, 1, .ro, 0⟩
/-- GLB_STATUS (R403). -/
def Reg.GLB_STATUS.link_up : Fld := ⟨0xC, 1, 1, .ro, 0⟩
/-- GLB_STATUS (R403). -/
def Reg.GLB_STATUS.void_access : Fld := ⟨0xC, 8, 1, .w1c, 0⟩
/-- GLB_STATUS (R403). -/
def Reg.GLB_STATUS.lock_reject : Fld := ⟨0xC, 9, 1, .w1c, 0⟩
/-- GLB_STATUS (R403). -/
def Reg.GLB_STATUS.size_reject : Fld := ⟨0xC, 10, 1, .w1c, 0⟩
/-- GLB_STATUS (R403). -/
def Reg.GLB_STATUS.pcie_overrun : Fld := ⟨0xC, 11, 1, .w1c, 0⟩
/-- GLB_STATUS (R403). -/
def Reg.GLB_STATUS.bar2_early : Fld := ⟨0xC, 12, 1, .w1c, 0⟩
/-- GLB_STATUS_EN (R403). -/
def Reg.GLB_STATUS_EN.en : Fld := ⟨0x10, 8, 5, .rw, 0⟩
/-- GLB_IRQ_PEND (R403). -/
def Reg.GLB_IRQ_PEND.pend : Fld := ⟨0x14, 0, 32, .ro, 0⟩
/-- GLB_IRQ_PEND_HI (R403). -/
def Reg.GLB_IRQ_PEND_HI.pend_hi : Fld := ⟨0x18, 0, 32, .ro, 0⟩
/-- GLB_IRQ_SW (R403). -/
def Reg.GLB_IRQ_SW.cause : Fld := ⟨0x1C, 0, 24, .w1c, 0⟩
/-- GLB_IRQ_SW_SET (R403). -/
def Reg.GLB_IRQ_SW_SET.set : Fld := ⟨0x20, 0, 24, .wo, 0⟩
/-- GLB_PCIE_LINK (R403). -/
def Reg.GLB_PCIE_LINK.speed : Fld := ⟨0x80, 0, 3, .ro, 0⟩
/-- GLB_PCIE_LINK (R403). -/
def Reg.GLB_PCIE_LINK.width : Fld := ⟨0x80, 3, 3, .ro, 0⟩
/-- GLB_PCIE_LINK (R403). -/
def Reg.GLB_PCIE_LINK.link_down_seen : Fld := ⟨0x80, 6, 1, .w1c, 0⟩
/-- GLB_PCIE_LINK (R403). -/
def Reg.GLB_PCIE_LINK.hot_reset_seen : Fld := ⟨0x80, 7, 1, .w1c, 0⟩
/-- GLB_PCIE_LINK (R403). -/
def Reg.GLB_PCIE_LINK.flr_seen : Fld := ⟨0x80, 8, 1, .w1c, 0⟩
/-- GLB_PCIE_SUBSYS (R403). -/
def Reg.GLB_PCIE_SUBSYS.subsys_vendor : Fld := ⟨0x84, 0, 16, .rwc, 0x1E5A⟩
/-- GLB_PCIE_SUBSYS (R403). -/
def Reg.GLB_PCIE_SUBSYS.subsys_id : Fld := ⟨0x84, 16, 16, .rwc, 0⟩
/-- GLB_PCIE_CTRL (R403). -/
def Reg.GLB_PCIE_CTRL.cfg_commit : Fld := ⟨0x88, 0, 1, .wo, 0⟩
/-- GLB_PCIE_CTRL (R403). -/
def Reg.GLB_PCIE_CTRL.cfg_done : Fld := ⟨0x88, 1, 1, .ro, 0⟩
/-- GLB_PCIE_CTRL (R403). -/
def Reg.GLB_PCIE_CTRL.max_speed : Fld := ⟨0x88, 2, 3, .rwc, 5⟩
/-- DMA.RING (R412). -/
def Reg.DMA.RING.ring (i : Nat) : Fld := ⟨0x100 + 0x20 * i + 0x0, 0, 64, .rw, 0⟩
/-- DMA.RING_CFG (R412). -/
def Reg.DMA.RING_CFG.size_log2 (i : Nat) : Fld := ⟨0x100 + 0x20 * i + 0x8, 0, 5, .rw, 4⟩
/-- DMA.RING_CFG (R412). -/
def Reg.DMA.RING_CFG.loc (i : Nat) : Fld := ⟨0x100 + 0x20 * i + 0x8, 5, 1, .rw, 0⟩
/-- DMA.TAIL (R412). -/
def Reg.DMA.TAIL.tail (i : Nat) : Fld := ⟨0x100 + 0x20 * i + 0xC, 0, 16, .rw, 0⟩
/-- DMA.HEAD (R412). -/
def Reg.DMA.HEAD.head (i : Nat) : Fld := ⟨0x100 + 0x20 * i + 0x10, 0, 16, .ro, 0⟩
/-- DMA.PROGRESS (R412). -/
def Reg.DMA.PROGRESS.bytes (i : Nat) : Fld := ⟨0x100 + 0x20 * i + 0x14, 0, 32, .ro, 0⟩
/-- DMA.CTRL_STAT (R412). -/
def Reg.DMA.CTRL_STAT.skip (i : Nat) : Fld := ⟨0x100 + 0x20 * i + 0x18, 0, 1, .wo, 0⟩
/-- DMA.CTRL_STAT (R412). -/
def Reg.DMA.CTRL_STAT.reset_ring (i : Nat) : Fld := ⟨0x100 + 0x20 * i + 0x18, 1, 1, .wo, 0⟩
/-- DMA.CTRL_STAT (R412). -/
def Reg.DMA.CTRL_STAT.done (i : Nat) : Fld := ⟨0x100 + 0x20 * i + 0x18, 2, 1, .w1c, 0⟩
/-- DMA.CTRL_STAT (R412). -/
def Reg.DMA.CTRL_STAT.error (i : Nat) : Fld := ⟨0x100 + 0x20 * i + 0x18, 3, 1, .w1c, 0⟩
/-- DMA.CTRL_STAT (R412). -/
def Reg.DMA.CTRL_STAT.last_code (i : Nat) : Fld := ⟨0x100 + 0x20 * i + 0x18, 4, 4, .ro, 0⟩
/-- DMA.CTRL_STAT (R412). -/
def Reg.DMA.CTRL_STAT.tail_reject (i : Nat) : Fld := ⟨0x100 + 0x20 * i + 0x18, 8, 1, .w1c, 0⟩
/-- DMA.CTRL_STAT (R412). -/
def Reg.DMA.CTRL_STAT.cfg_reject (i : Nat) : Fld := ⟨0x100 + 0x20 * i + 0x18, 9, 1, .w1c, 0⟩
/-- DMA.CTRL_STAT (R412). -/
def Reg.DMA.CTRL_STAT.cmd_reject (i : Nat) : Fld := ⟨0x100 + 0x20 * i + 0x18, 10, 1, .w1c, 0⟩
/-- DMA.ERR_ADDR (R412). -/
def Reg.DMA.ERR_ADDR.line (i : Nat) : Fld := ⟨0x100 + 0x20 * i + 0x1C, 0, 27, .ro, 0⟩
/-- REED_CTRL (R433). -/
def Reg.REED_CTRL.role : Fld := ⟨0x800, 0, 2, .rw, 0⟩
/-- REED_CTRL (R433). -/
def Reg.REED_CTRL.en : Fld := ⟨0x800, 2, 1, .rw, 0⟩
/-- REED_CTRL (R433). -/
def Reg.REED_CTRL.branch : Fld := ⟨0x800, 3, 4, .rw, 0⟩
/-- REED_CTRL (R433). -/
def Reg.REED_CTRL.position : Fld := ⟨0x800, 7, 4, .rw, 0⟩
/-- REED_CTRL (R433). -/
def Reg.REED_CTRL.echo_term : Fld := ⟨0x800, 11, 1, .rw, 0⟩
/-- REED_CTRL (R433). -/
def Reg.REED_CTRL.lane_loop : Fld := ⟨0x800, 12, 1, .rw, 0⟩
/-- REED_CTRL (R433). -/
def Reg.REED_CTRL.resync : Fld := ⟨0x800, 13, 1, .wo, 0⟩
/-- REED_CTRL (R433). -/
def Reg.REED_CTRL.echo_now : Fld := ⟨0x800, 14, 1, .wo, 0⟩
/-- REED_CTRL (R433). -/
def Reg.REED_CTRL.cfg_reject : Fld := ⟨0x800, 31, 1, .w1c, 0⟩
/-- REED_STATE (R433). -/
def Reg.REED_STATE.state : Fld := ⟨0x804, 0, 3, .ro, 0⟩
/-- REED_STATE (R433). -/
def Reg.REED_STATE.clk_lock : Fld := ⟨0x804, 3, 1, .ro, 0⟩
/-- REED_STATE (R433). -/
def Reg.REED_STATE.aligned : Fld := ⟨0x804, 4, 1, .ro, 0⟩
/-- REED_STATE (R433). -/
def Reg.REED_STATE.late_risk : Fld := ⟨0x804, 5, 1, .ro, 0⟩
/-- REED_STATE (R433). -/
def Reg.REED_STATE.start_reject : Fld := ⟨0x804, 6, 1, .w1c, 0⟩
/-- REED_STATE (R433). -/
def Reg.REED_STATE.slot : Fld := ⟨0x804, 8, 8, .ro, 0⟩
/-- REED_LAT (R433). -/
def Reg.REED_LAT.ticks : Fld := ⟨0x808, 0, 16, .rw, 256⟩
/-- REED_LAT (R433). -/
def Reg.REED_LAT.upslots_log2 : Fld := ⟨0x808, 16, 4, .rw, 8⟩
/-- REED_ECHO_PERIOD (R433). -/
def Reg.REED_ECHO_PERIOD.ms : Fld := ⟨0x80C, 0, 16, .rw, 100⟩
/-- REED_DELAY (R433). -/
def Reg.REED_DELAY.d : Fld := ⟨0x810, 0, 32, .ro, 0⟩
/-- REED_DELAY_TRIM (R433). -/
def Reg.REED_DELAY_TRIM.trim : Fld := ⟨0x814, 0, 24, .rw, 0⟩
/-- REED_PATH (R433). -/
def Reg.REED_PATH.rtt_h : Fld := ⟨0x818, 0, 32, .ro, 0⟩
/-- REED_TIME (R433). -/
def Reg.REED_TIME.time : Fld := ⟨0x81C, 0, 48, .ro, 0⟩
/-- REED_IRQ (R433). -/
def Reg.REED_IRQ.holdover : Fld := ⟨0x824, 0, 1, .w1c, 0⟩
/-- REED_IRQ (R433). -/
def Reg.REED_IRQ.unaligned : Fld := ⟨0x824, 1, 1, .w1c, 0⟩
/-- REED_IRQ (R433). -/
def Reg.REED_IRQ.late : Fld := ⟨0x824, 2, 1, .w1c, 0⟩
/-- REED_IRQ (R433). -/
def Reg.REED_IRQ.crc : Fld := ⟨0x824, 3, 1, .w1c, 0⟩
/-- REED_IRQ (R433). -/
def Reg.REED_IRQ.delay_jump : Fld := ⟨0x824, 4, 1, .w1c, 0⟩
/-- REED_IRQ (R433). -/
def Reg.REED_IRQ.sync_err : Fld := ⟨0x824, 5, 1, .w1c, 0⟩
/-- REED_IRQ (R433). -/
def Reg.REED_IRQ.send_drop : Fld := ⟨0x824, 6, 1, .w1c, 0⟩
/-- REED_IRQ (R433). -/
def Reg.REED_IRQ.round_done : Fld := ⟨0x824, 7, 1, .w1c, 0⟩
/-- REED_IRQ (R433). -/
def Reg.REED_IRQ.members_changed : Fld := ⟨0x824, 8, 1, .w1c, 0⟩
/-- REED_IRQ_EN (R433). -/
def Reg.REED_IRQ_EN.en : Fld := ⟨0x828, 0, 9, .rw, 0⟩
/-- REED_LATE (R433). -/
def Reg.REED_LATE.count : Fld := ⟨0x82C, 0, 24, .rc, 0⟩
/-- REED_CRC_ERR (R433). -/
def Reg.REED_CRC_ERR.count : Fld := ⟨0x830, 0, 24, .rc, 0⟩
/-- REED_SEND_DROP (R433). -/
def Reg.REED_SEND_DROP.count : Fld := ⟨0x834, 0, 24, .rc, 0⟩
/-- REED_ROOT_STAT (R433). -/
def Reg.REED_ROOT_STAT.members : Fld := ⟨0x838, 0, 9, .ro, 1⟩
/-- REED_UPQ (R433). -/
def Reg.REED_UPQ.depth : Fld := ⟨0x83C, 0, 5, .ro, 0⟩
/-- REED_UPQ (R433). -/
def Reg.REED_UPQ.peak : Fld := ⟨0x83C, 5, 5, .rc, 0⟩
/-- FL_CFG (R445). -/
def Reg.FL_CFG.mode : Fld := ⟨0x3D0, 0, 1, .rw, 0⟩
/-- FL_CFG (R445). -/
def Reg.FL_CFG.div : Fld := ⟨0x3D0, 1, 6, .rw, 32⟩
/-- FL_CFG (R445). -/
def Reg.FL_CFG.dummy : Fld := ⟨0x3D0, 7, 5, .rw, 8⟩
/-- FL_CFG (R445). -/
def Reg.FL_CFG.addr4 : Fld := ⟨0x3D0, 12, 1, .rw, 0⟩
/-- FL_CFG (R445). -/
def Reg.FL_CFG.size0_log2 : Fld := ⟨0x3D0, 13, 5, .rw, 24⟩
/-- FL_CFG (R445). -/
def Reg.FL_CFG.size1_log2 : Fld := ⟨0x3D0, 18, 5, .rw, 24⟩
/-- FL_CFG (R445). -/
def Reg.FL_CFG.rd_op : Fld := ⟨0x3D0, 23, 8, .rw, 3⟩
/-- FL_CFG (R445). -/
def Reg.FL_CFG.cfg_reject : Fld := ⟨0x3D0, 31, 1, .w1c, 0⟩
/-- FL_ADDR (R445). -/
def Reg.FL_ADDR.addr : Fld := ⟨0x3D4, 0, 32, .rw, 0⟩
/-- FL_BUF (R445). -/
def Reg.FL_BUF.line : Fld := ⟨0x3D8, 0, 27, .rw, 0⟩
/-- FL_CMD (R445). -/
def Reg.FL_CMD.opcode : Fld := ⟨0x3DC, 0, 8, .rw, 0⟩
/-- FL_CMD (R445). -/
def Reg.FL_CMD.abytes : Fld := ⟨0x3DC, 8, 2, .rw, 0⟩
/-- FL_CMD (R445). -/
def Reg.FL_CMD.dir : Fld := ⟨0x3DC, 10, 1, .rw, 0⟩
/-- FL_CMD (R445). -/
def Reg.FL_CMD.sel : Fld := ⟨0x3DC, 11, 1, .rw, 0⟩
/-- FL_CMD (R445). -/
def Reg.FL_CMD.use_dummy : Fld := ⟨0x3DC, 12, 1, .rw, 0⟩
/-- FL_CMD (R445). -/
def Reg.FL_CMD.len : Fld := ⟨0x3DC, 13, 12, .rw, 0⟩
/-- FL_CMD (R445). -/
def Reg.FL_CMD.go : Fld := ⟨0x3DC, 25, 1, .wo, 0⟩
/-- FL_STATUS (R445). -/
def Reg.FL_STATUS.busy : Fld := ⟨0x3E0, 0, 1, .ro, 0⟩
/-- FL_STATUS (R445). -/
def Reg.FL_STATUS.done : Fld := ⟨0x3E0, 1, 1, .w1c, 0⟩
/-- FL_STATUS (R445). -/
def Reg.FL_STATUS.cmd_reject : Fld := ⟨0x3E0, 2, 1, .w1c, 0⟩
/-- FL_STATUS (R445). -/
def Reg.FL_STATUS.hash_fail : Fld := ⟨0x3E0, 3, 1, .w1c, 0⟩
/-- FL_STATUS (R445). -/
def Reg.FL_STATUS.fill_busy : Fld := ⟨0x3E0, 4, 1, .ro, 0⟩
/-- FL_STATUS (R445). -/
def Reg.FL_STATUS.buf_ecc : Fld := ⟨0x3E0, 5, 1, .w1c, 0⟩
/-- FL_STATUS (R445). -/
def Reg.FL_STATUS.dqs_err : Fld := ⟨0x3E0, 6, 1, .w1c, 0⟩
/-- FL_STATUS (R445). -/
def Reg.FL_STATUS.reject_code : Fld := ⟨0x3E0, 7, 3, .ro, 0⟩
/-- FL_STATUS (R445). -/
def Reg.FL_STATUS.fails : Fld := ⟨0x3E0, 16, 8, .ro, 0⟩
/-- FL_XIP (R445). -/
def Reg.FL_XIP.en : Fld := ⟨0x3E4, 0, 1, .rwc, 0⟩
/-- FL_XIP (R445). -/
def Reg.FL_XIP.sel : Fld := ⟨0x3E4, 1, 1, .rwc, 0⟩
/-- FL_XIP (R445). -/
def Reg.FL_XIP.pages_m1 : Fld := ⟨0x3E4, 2, 12, .rwc, 0⟩
/-- FL_XIP (R445). -/
def Reg.FL_XIP.base_page : Fld := ⟨0x3E4, 14, 16, .rwc, 0⟩
/-- FL_NONCE (R445). -/
def Reg.FL_NONCE.nonce : Fld := ⟨0x3E8, 0, 64, .rwc, 0⟩
/-- BP_CTRL (R457). -/
def Reg.BP_CTRL.en : Fld := ⟨0x3F0, 0, 1, .rwc, 1⟩
/-- BP_STATUS (R457). -/
def Reg.BP_STATUS.frame_reject : Fld := ⟨0x3F4, 0, 1, .w1c, 0⟩
/-- BP_STATUS (R457). -/
def Reg.BP_STATUS.reason : Fld := ⟨0x3F4, 1, 3, .ro, 0⟩
/-- BP_STATUS (R457). -/
def Reg.BP_STATUS.underrun : Fld := ⟨0x3F4, 4, 1, .w1c, 0⟩
/-- BP_STATUS (R457). -/
def Reg.BP_STATUS.overrun : Fld := ⟨0x3F4, 5, 1, .w1c, 0⟩
/-- BP_STATUS (R457). -/
def Reg.BP_STATUS.busy : Fld := ⟨0x3F4, 6, 1, .ro, 0⟩
/-- BP_STATUS (R457). -/
def Reg.BP_STATUS.underrun_word : Fld := ⟨0x3F4, 8, 8, .ro, 0⟩
/-- BP_STATUS (R457). -/
def Reg.BP_STATUS.frames : Fld := ⟨0x3F4, 16, 8, .ro, 0⟩
/-- BP_ALERT_EN_LO (R457). -/
def Reg.BP_ALERT_EN_LO.mask_lo : Fld := ⟨0x3F8, 0, 32, .rw, 0⟩
/-- BP_ALERT_EN_HI (R457). -/
def Reg.BP_ALERT_EN_HI.mask_hi : Fld := ⟨0x3FC, 0, 32, .rw, 0⟩
/-- CAL_CTRL (R486). -/
def Reg.CAL_CTRL.full : Fld := ⟨0x280, 0, 1, .wo, 0⟩
/-- CAL_CTRL (R486). -/
def Reg.CAL_CTRL.stop : Fld := ⟨0x280, 1, 1, .wo, 0⟩
/-- CAL_CTRL (R486). -/
def Reg.CAL_CTRL.commit : Fld := ⟨0x280, 2, 1, .wo, 0⟩
/-- CAL_CTRL (R486). -/
def Reg.CAL_CTRL.discard : Fld := ⟨0x280, 3, 1, .wo, 0⟩
/-- CAL_CTRL (R486). -/
def Reg.CAL_CTRL.dump : Fld := ⟨0x280, 4, 1, .wo, 0⟩
/-- CAL_CTRL (R486). -/
def Reg.CAL_CTRL.load : Fld := ⟨0x280, 5, 1, .wo, 0⟩
/-- CAL_CTRL (R486). -/
def Reg.CAL_CTRL.roll_en : Fld := ⟨0x280, 6, 1, .rw, 0⟩
/-- CAL_CTRL (R486). -/
def Reg.CAL_CTRL.time_arm : Fld := ⟨0x280, 7, 1, .wo, 0⟩
/-- CAL_CTRL (R486). -/
def Reg.CAL_CTRL.cmd_reject : Fld := ⟨0x280, 31, 1, .w1c, 0⟩
/-- CAL_STATUS (R486). -/
def Reg.CAL_STATUS.state : Fld := ⟨0x284, 0, 3, .ro, 0⟩
/-- CAL_STATUS (R486). -/
def Reg.CAL_STATUS.phase : Fld := ⟨0x284, 3, 2, .ro, 0⟩
/-- CAL_STATUS (R486). -/
def Reg.CAL_STATUS.loom : Fld := ⟨0x284, 5, 5, .ro, 0⟩
/-- CAL_STATUS (R486). -/
def Reg.CAL_STATUS.core : Fld := ⟨0x284, 10, 6, .ro, 0⟩
/-- CAL_STATUS (R486). -/
def Reg.CAL_STATUS.staged_dirty : Fld := ⟨0x284, 16, 1, .ro, 0⟩
/-- CAL_STATUS (R486). -/
def Reg.CAL_STATUS.uncal : Fld := ⟨0x284, 17, 1, .ro, 1⟩
/-- CAL_STATUS (R486). -/
def Reg.CAL_STATUS.ladder_stale : Fld := ⟨0x284, 18, 1, .ro, 0⟩
/-- CAL_STATUS (R486). -/
def Reg.CAL_STATUS.hash_busy : Fld := ⟨0x284, 19, 1, .ro, 0⟩
/-- CAL_STATUS (R486). -/
def Reg.CAL_STATUS.done : Fld := ⟨0x284, 20, 1, .w1c, 0⟩
/-- CAL_STATUS (R486). -/
def Reg.CAL_STATUS.fail : Fld := ⟨0x284, 21, 1, .w1c, 0⟩
/-- CAL_STATUS (R486). -/
def Reg.CAL_STATUS.ref_bad : Fld := ⟨0x284, 22, 1, .w1c, 0⟩
/-- CAL_STATUS (R486). -/
def Reg.CAL_STATUS.time_bad : Fld := ⟨0x284, 23, 1, .w1c, 0⟩
/-- CAL_STATUS (R486). -/
def Reg.CAL_STATUS.due : Fld := ⟨0x284, 24, 1, .w1c, 0⟩
/-- CAL_STATUS (R486). -/
def Reg.CAL_STATUS.blocked : Fld := ⟨0x284, 25, 1, .w1c, 0⟩
/-- CAL_STATUS (R486). -/
def Reg.CAL_STATUS.load_reject : Fld := ⟨0x284, 26, 1, .w1c, 0⟩
/-- CAL_STATUS (R486). -/
def Reg.CAL_STATUS.reject_code : Fld := ⟨0x284, 27, 3, .ro, 0⟩
/-- CAL_STATUS (R486). -/
def Reg.CAL_STATUS.stamp_valid : Fld := ⟨0x284, 30, 1, .ro, 0⟩
/-- CAL_REF_V (R486). -/
def Reg.CAL_REF_V.v : Fld := ⟨0x288, 0, 32, .rw, 0x1DCD6500⟩
/-- CAL_REF_R (R486). -/
def Reg.CAL_REF_R.r : Fld := ⟨0x28C, 0, 32, .rw, 0x989680⟩
/-- CAL_DELTA_T (R486). -/
def Reg.CAL_DELTA_T.dt : Fld := ⟨0x290, 0, 8, .rw, 16⟩
/-- CAL_DUE (R486). -/
def Reg.CAL_DUE.looms : Fld := ⟨0x294, 0, 24, .ro, 0xFFFFFF⟩
/-- CAL_SEL (R486). -/
def Reg.CAL_SEL.core (m : Nat) : Fld := ⟨0x298 + 0x1000000 * m, 0, 10, .rw, 0⟩
/-- CAL_SEL (R486). -/
def Reg.CAL_SEL.loom (m : Nat) : Fld := ⟨0x298 + 0x1000000 * m, 10, 5, .rw, 0⟩
/-- CAL_SEL (R486). -/
def Reg.CAL_SEL.view (m : Nat) : Fld := ⟨0x298 + 0x1000000 * m, 16, 1, .rw, 0⟩
/-- CAL_IMG (R486). -/
def Reg.CAL_IMG.line : Fld := ⟨0x29C, 0, 27, .rw, 0⟩
/-- CAL_IMG (R486). -/
def Reg.CAL_IMG.load_code : Fld := ⟨0x29C, 27, 3, .ro, 0⟩
/-- CAL_ROLL (R486). -/
def Reg.CAL_ROLL.gap : Fld := ⟨0x2A0, 0, 16, .rw, 0⟩
/-- CAL_IRQ_EN (R486). -/
def Reg.CAL_IRQ_EN.en : Fld := ⟨0x2A4, 20, 7, .rw, 0⟩
/-- CAL_TIME_ARM (R486). -/
def Reg.CAL_TIME_ARM.arm : Fld := ⟨0x2A8, 0, 48, .rw, 0⟩
/-- CAL_TIME_STAMP (R486). -/
def Reg.CAL_TIME_STAMP.stamp : Fld := ⟨0x2B0, 0, 62, .ro, 0⟩
/-- CAL_FAILS (R486). -/
def Reg.CAL_FAILS.cores : Fld := ⟨0x2B8, 0, 10, .ro, 0⟩
/-- CAL_FAILS (R486). -/
def Reg.CAL_FAILS.looms : Fld := ⟨0x2B8, 10, 5, .ro, 0⟩
/-- CAL_HASH (R486). -/
def Reg.CAL_HASH.hash (i : Nat) : Fld := ⟨0x2C0 + 4 * i, 0, 32, .ro, 0⟩
/-- TEMP_MAX (R510). -/
def Reg.TEMP_MAX.temp : Fld := ⟨0x300, 0, 16, .ro, 0⟩
/-- TEMP_MAX (R510). -/
def Reg.TEMP_MAX.sensor : Fld := ⟨0x300, 16, 6, .ro, 0⟩
/-- TEMP_SEL (R510). -/
def Reg.TEMP_SEL.sensor (m : Nat) : Fld := ⟨0x304 + 0x1000000 * m, 0, 6, .rw, 0⟩
/-- TEMP_READ (R510). -/
def Reg.TEMP_READ.temp : Fld := ⟨0x308, 0, 16, .ro, 0⟩
/-- TEMP_READ (R510). -/
def Reg.TEMP_READ.faulty : Fld := ⟨0x308, 16, 1, .ro, 0⟩
/-- TH_LIMIT_A (R510). -/
def Reg.TH_LIMIT_A.warn : Fld := ⟨0x30C, 0, 16, .rw, 760⟩
/-- TH_LIMIT_A (R510). -/
def Reg.TH_LIMIT_A.throttle : Fld := ⟨0x30C, 16, 16, .rw, 800⟩
/-- TH_LIMIT_B (R510). -/
def Reg.TH_LIMIT_B.shutdown : Fld := ⟨0x310, 0, 16, .rwc, 960⟩
/-- TH_LIMIT_B (R510). -/
def Reg.TH_LIMIT_B.resume : Fld := ⟨0x310, 16, 16, .rw, 720⟩
/-- TH_PAUSE (R510). -/
def Reg.TH_PAUSE.len : Fld := ⟨0x314, 0, 16, .rw, 250⟩
/-- TH_PAUSE (R510). -/
def Reg.TH_PAUSE.interval : Fld := ⟨0x314, 16, 16, .rw, 1000⟩
/-- TH_STATUS (R510). -/
def Reg.TH_STATUS.state : Fld := ⟨0x318, 0, 2, .ro, 0⟩
/-- TH_STATUS (R510). -/
def Reg.TH_STATUS.warn : Fld := ⟨0x318, 2, 1, .ro, 0⟩
/-- TH_STATUS (R510). -/
def Reg.TH_STATUS.ack_latched : Fld := ⟨0x318, 3, 1, .ro, 0⟩
/-- TH_STATUS (R510). -/
def Reg.TH_STATUS.warn_seen : Fld := ⟨0x318, 4, 1, .w1c, 0⟩
/-- TH_STATUS (R510). -/
def Reg.TH_STATUS.throttle_seen : Fld := ⟨0x318, 5, 1, .w1c, 0⟩
/-- TH_STATUS (R510). -/
def Reg.TH_STATUS.shutdown : Fld := ⟨0x318, 6, 1, .w1c, 0⟩
/-- TH_STATUS (R510). -/
def Reg.TH_STATUS.sensor_fault : Fld := ⟨0x318, 7, 1, .w1c, 0⟩
/-- TH_STATUS (R510). -/
def Reg.TH_STATUS.gov_max : Fld := ⟨0x318, 8, 1, .w1c, 0⟩
/-- TH_STATUS (R510). -/
def Reg.TH_STATUS.cfg_reject : Fld := ⟨0x318, 9, 1, .w1c, 0⟩
/-- TH_STATUS (R510). -/
def Reg.TH_STATUS.cmd_reject : Fld := ⟨0x318, 10, 1, .w1c, 0⟩
/-- TH_CMD (R510). -/
def Reg.TH_CMD.safe : Fld := ⟨0x31C, 0, 1, .wo, 0⟩
/-- TH_CMD (R510). -/
def Reg.TH_CMD.clear_safe : Fld := ⟨0x31C, 1, 1, .wo, 0⟩
/-- TH_CMD (R510). -/
def Reg.TH_CMD.ack : Fld := ⟨0x31C, 2, 1, .wo, 0⟩
/-- TH_IRQ_EN (R510). -/
def Reg.TH_IRQ_EN.en : Fld := ⟨0x320, 4, 5, .rw, 0⟩
/-- TH_THROTTLED (R510). -/
def Reg.TH_THROTTLED.shuttles : Fld := ⟨0x324, 0, 25, .ro, 0⟩
/-- TH_PAUSED (R510). -/
def Reg.TH_PAUSED.ticks : Fld := ⟨0x328, 0, 32, .rc, 0⟩
/-- PWR_NOW (R510). -/
def Reg.PWR_NOW.power : Fld := ⟨0x32C, 0, 16, .ro, 0⟩
/-- PWR_NOW (R510). -/
def Reg.PWR_NOW.level : Fld := ⟨0x32C, 16, 5, .ro, 0⟩
/-- PWR_PEAK (R510). -/
def Reg.PWR_PEAK.peak : Fld := ⟨0x330, 0, 16, .rc, 0⟩
/-- PWR_LIMIT (R510). -/
def Reg.PWR_LIMIT.limit : Fld := ⟨0x334, 0, 16, .rw, 0x3E80⟩
/-- PWR_LIMIT (R510). -/
def Reg.PWR_LIMIT.trip_en : Fld := ⟨0x334, 16, 1, .rwc, 1⟩
/-- PWR_LIMIT (R510). -/
def Reg.PWR_LIMIT.trip_ms : Fld := ⟨0x334, 24, 8, .rw, 10⟩
/-- LOG_WPTR (R510). -/
def Reg.LOG_WPTR.slot : Fld := ⟨0x340, 0, 11, .ro, 0⟩
/-- LOG_SEQ (R510). -/
def Reg.LOG_SEQ.seq : Fld := ⟨0x344, 0, 32, .ro, 0⟩
/-- LOG_HOST_LO (R510). -/
def Reg.LOG_HOST_LO.data : Fld := ⟨0x348, 0, 24, .rw, 0⟩
/-- LOG_HOST_HI (R510). -/
def Reg.LOG_HOST_HI.code : Fld := ⟨0x34C, 0, 8, .rw, 0⟩
/-- LOG_STATUS (R510). -/
def Reg.LOG_STATUS.queued : Fld := ⟨0x350, 0, 6, .ro, 0⟩
/-- LOG_STATUS (R510). -/
def Reg.LOG_STATUS.write_reject : Fld := ⟨0x350, 6, 1, .w1c, 0⟩
/-- LOG_STATUS (R510). -/
def Reg.LOG_STATUS.lost : Fld := ⟨0x350, 16, 16, .rc, 0⟩
/-- LOG_PAGE (R510). -/
def Reg.LOG_PAGE.page (m : Nat) : Fld := ⟨0x354 + 0x1000000 * m, 0, 2, .rw, 0⟩
/-- UCODE_CTRL (R534). -/
def Reg.UCODE_CTRL.load : Fld := ⟨0x380, 0, 1, .wo, 0⟩
/-- UCODE_CTRL (R534). -/
def Reg.UCODE_CTRL.swap : Fld := ⟨0x380, 1, 1, .wo, 0⟩
/-- UCODE_CTRL (R534). -/
def Reg.UCODE_CTRL.swap_abort : Fld := ⟨0x380, 2, 1, .wo, 0⟩
/-- UCODE_CTRL (R534). -/
def Reg.UCODE_CTRL.sure_enter : Fld := ⟨0x380, 3, 1, .wo, 0⟩
/-- UCODE_CTRL (R534). -/
def Reg.UCODE_CTRL.sure_exit : Fld := ⟨0x380, 4, 1, .wo, 0⟩
/-- UCODE_CTRL (R534). -/
def Reg.UCODE_CTRL.cmd_reject : Fld := ⟨0x380, 31, 1, .w1c, 0⟩
/-- UCODE_IMG (R534). -/
def Reg.UCODE_IMG.line : Fld := ⟨0x384, 0, 27, .rw, 0⟩
/-- UCODE_MASK (R534). -/
def Reg.UCODE_MASK.shuttles : Fld := ⟨0x388, 0, 25, .rw, 0⟩
/-- UCODE_STATUS (R534). -/
def Reg.UCODE_STATUS.state : Fld := ⟨0x38C, 0, 3, .ro, 0⟩
/-- UCODE_STATUS (R534). -/
def Reg.UCODE_STATUS.load_code : Fld := ⟨0x38C, 3, 4, .ro, 0⟩
/-- UCODE_STATUS (R534). -/
def Reg.UCODE_STATUS.load_done : Fld := ⟨0x38C, 7, 1, .w1c, 0⟩
/-- UCODE_STATUS (R534). -/
def Reg.UCODE_STATUS.load_reject : Fld := ⟨0x38C, 8, 1, .w1c, 0⟩
/-- UCODE_STATUS (R534). -/
def Reg.UCODE_STATUS.swap_done : Fld := ⟨0x38C, 9, 1, .w1c, 0⟩
/-- UCODE_STATUS (R534). -/
def Reg.UCODE_STATUS.swap_fail : Fld := ⟨0x38C, 10, 1, .w1c, 0⟩
/-- UCODE_STATUS (R534). -/
def Reg.UCODE_STATUS.swap_timeout : Fld := ⟨0x38C, 11, 1, .w1c, 0⟩
/-- UCODE_STATUS (R534). -/
def Reg.UCODE_STATUS.mc : Fld := ⟨0x38C, 12, 1, .w1c, 0⟩
/-- UCODE_STATUS (R534). -/
def Reg.UCODE_STATUS.mc_fail : Fld := ⟨0x38C, 13, 1, .w1c, 0⟩
/-- UCODE_STATUS (R534). -/
def Reg.UCODE_STATUS.sure_mismatch : Fld := ⟨0x38C, 14, 1, .w1c, 0⟩
/-- UCODE_STATUS (R534). -/
def Reg.UCODE_STATUS.reject_code : Fld := ⟨0x38C, 15, 3, .ro, 0⟩
/-- UCODE_SEL (R534). -/
def Reg.UCODE_SEL.shuttle (m : Nat) : Fld := ⟨0x390 + 0x1000000 * m, 0, 5, .rw, 0⟩
/-- UCODE_VERSION_ACT (R534). -/
def Reg.UCODE_VERSION_ACT.version : Fld := ⟨0x394, 0, 24, .ro, Config.romVersion.toNat⟩
/-- UCODE_VERSION_ACT (R534). -/
def Reg.UCODE_VERSION_ACT.source : Fld := ⟨0x394, 24, 2, .ro, 0⟩
/-- UCODE_VERSION_SHD (R534). -/
def Reg.UCODE_VERSION_SHD.version : Fld := ⟨0x398, 0, 24, .ro, 0⟩
/-- UCODE_VERSION_SHD (R534). -/
def Reg.UCODE_VERSION_SHD.source : Fld := ⟨0x398, 24, 2, .ro, 3⟩
/-- UCODE_MC (R534). -/
def Reg.UCODE_MC.total : Fld := ⟨0x39C, 0, 16, .ro, 0⟩
/-- UCODE_MC (R534). -/
def Reg.UCODE_MC.recent : Fld := ⟨0x39C, 16, 8, .ro, 0⟩
/-- UCODE_SURE_CFG (R534). -/
def Reg.UCODE_SURE_CFG.threshold : Fld := ⟨0x3A0, 0, 8, .rw, 4⟩
/-- UCODE_SURE_CFG (R534). -/
def Reg.UCODE_SURE_CFG.window : Fld := ⟨0x3A0, 8, 16, .rw, 1000⟩
/-- UCODE_SURE (R534). -/
def Reg.UCODE_SURE.shuttles : Fld := ⟨0x3A4, 0, 25, .ro, 0⟩
/-- UCODE_SWAP_CFG (R534). -/
def Reg.UCODE_SWAP_CFG.limit : Fld := ⟨0x3A8, 0, 16, .rw, 100⟩
/-- UCODE_PENDING (R534). -/
def Reg.UCODE_PENDING.shuttles : Fld := ⟨0x3AC, 0, 25, .ro, 0⟩
/-- UCODE_FLOOR (R534). -/
def Reg.UCODE_FLOOR.version : Fld := ⟨0x3B0, 0, 24, .rwc, 0⟩
/-- UCODE_IRQ_EN (R534). -/
def Reg.UCODE_IRQ_EN.en : Fld := ⟨0x3B4, 7, 8, .rw, 0⟩
/-- UCODE_ROM_VER (R534). -/
def Reg.UCODE_ROM_VER.version : Fld := ⟨0x3B8, 0, 24, .ro, Config.romVersion.toNat⟩
/-- GLB_OWNER (R561). -/
def Reg.GLB_OWNER.owner (b : Nat) : Fld := ⟨0x200, 2 * b, 2, .rw, 1⟩
/-- GLB_OWNER_LOOM (R561). -/
def Reg.GLB_OWNER_LOOM.loom (n : Nat) : Fld := ⟨0x204 + 4 * (n / 16), 2 * (n % 16), 2, .rw, 1⟩
/-- GLB_OWNER_STATUS (R561). -/
def Reg.GLB_OWNER_STATUS.block : Fld := ⟨0x20C, 0, 6, .ro, 0⟩
/-- GLB_OWNER_STATUS (R561). -/
def Reg.GLB_OWNER_STATUS.writer : Fld := ⟨0x20C, 6, 2, .ro, 0⟩
/-- GLB_OWNER_STATUS (R561). -/
def Reg.GLB_OWNER_STATUS.owner_reject : Fld := ⟨0x20C, 31, 1, .w1c, 0⟩
/-- GLB_TAKEOVER (R561). -/
def Reg.GLB_TAKEOVER.seize : Fld := ⟨0x210, 0, 1, .wo, 0⟩
/-- GLB_TAKEOVER (R561). -/
def Reg.GLB_TAKEOVER.bp_en : Fld := ⟨0x210, 1, 1, .rwc, 0⟩
/-- GLB_TAKEOVER (R561). -/
def Reg.GLB_TAKEOVER.cs_en : Fld := ⟨0x210, 2, 1, .rwc, 0⟩
/-- GLB_ERR_STATUS (R561). -/
def Reg.GLB_ERR_STATUS.loom_err : Fld := ⟨0x214, 0, 1, .w1c, 0⟩
/-- GLB_ERR_STATUS (R561). -/
def Reg.GLB_ERR_STATUS.quar : Fld := ⟨0x214, 1, 1, .w1c, 0⟩
/-- GLB_ERR_STATUS (R561). -/
def Reg.GLB_ERR_STATUS.core_fail : Fld := ⟨0x214, 2, 1, .w1c, 0⟩
/-- GLB_ERR_STATUS (R561). -/
def Reg.GLB_ERR_STATUS.unspared : Fld := ⟨0x214, 3, 1, .w1c, 0⟩
/-- GLB_ERR_STATUS (R561). -/
def Reg.GLB_ERR_STATUS.gran_ue : Fld := ⟨0x214, 4, 1, .w1c, 0⟩
/-- GLB_ERR_STATUS (R561). -/
def Reg.GLB_ERR_STATUS.device_err : Fld := ⟨0x214, 5, 1, .w1c, 0⟩
/-- GLB_ERR_STATUS (R561). -/
def Reg.GLB_ERR_STATUS.fault_n : Fld := ⟨0x214, 31, 1, .ro, 0⟩
/-- GLB_ERR_IRQ_EN (R561). -/
def Reg.GLB_ERR_IRQ_EN.en : Fld := ⟨0x218, 0, 6, .rw, 0⟩
/-- GLB_QUAR (R561). -/
def Reg.GLB_QUAR.looms : Fld := ⟨0x21C, 0, 24, .ro, 0⟩
/-- GLB_ERR_CFG (R561). -/
def Reg.GLB_ERR_CFG.threshold : Fld := ⟨0x220, 0, 8, .rw, 3⟩
/-- GLB_ERR_CFG (R561). -/
def Reg.GLB_ERR_CFG.window : Fld := ⟨0x220, 8, 16, .rw, 0xEA60⟩
/-- GLB_ERR_CFG (R561). -/
def Reg.GLB_ERR_CFG.auto_spare : Fld := ⟨0x220, 24, 1, .rw, 1⟩
/-- LOOM.QUAR (R562). -/
def Reg.LOOM.QUAR.quarantined (n : Nat) : Fld := ⟨0x10000 + 0x100 * n + 0xC8, 0, 1, .ro, 0⟩
/-- LOOM.QUAR (R562). -/
def Reg.LOOM.QUAR.cause (n : Nat) : Fld := ⟨0x10000 + 0x100 * n + 0xC8, 1, 3, .ro, 0⟩
/-- LOOM.QUAR (R562). -/
def Reg.LOOM.QUAR.quarantine (n : Nat) : Fld := ⟨0x10000 + 0x100 * n + 0xC8, 4, 1, .wo, 0⟩
/-- LOOM.QUAR (R562). -/
def Reg.LOOM.QUAR.release (n : Nat) : Fld := ⟨0x10000 + 0x100 * n + 0xC8, 5, 1, .wo, 0⟩
/-- LOOM.QUAR (R562). -/
def Reg.LOOM.QUAR.err_recent (n : Nat) : Fld := ⟨0x10000 + 0x100 * n + 0xC8, 6, 8, .ro, 0⟩
/-- LOOM.QUAR (R562). -/
def Reg.LOOM.QUAR.release_reject (n : Nat) : Fld := ⟨0x10000 + 0x100 * n + 0xC8, 14, 1, .w1c, 0⟩
/-- LOOM.QUAR (R562). -/
def Reg.LOOM.QUAR.hub_down (n : Nat) : Fld := ⟨0x10000 + 0x100 * n + 0xC8, 15, 1, .ro, 0⟩
/-- LOOM.SPARE (R562). -/
def Reg.LOOM.SPARE.s32_ball (n : Nat) : Fld := ⟨0x10000 + 0x100 * n + 0xCC, 0, 6, .ro, 63⟩
/-- LOOM.SPARE (R562). -/
def Reg.LOOM.SPARE.s33_ball (n : Nat) : Fld := ⟨0x10000 + 0x100 * n + 0xCC, 6, 6, .ro, 63⟩
/-- LOOM.SPARE (R562). -/
def Reg.LOOM.SPARE.s32_failed (n : Nat) : Fld := ⟨0x10000 + 0x100 * n + 0xCC, 12, 1, .ro, 0⟩
/-- LOOM.SPARE (R562). -/
def Reg.LOOM.SPARE.s33_failed (n : Nat) : Fld := ⟨0x10000 + 0x100 * n + 0xCC, 13, 1, .ro, 0⟩
/-- LOOM.SPARE (R562). -/
def Reg.LOOM.SPARE.pending (n : Nat) : Fld := ⟨0x10000 + 0x100 * n + 0xCC, 14, 1, .ro, 0⟩
/-- LOOM.SPARE (R562). -/
def Reg.LOOM.SPARE.exch_reject (n : Nat) : Fld := ⟨0x10000 + 0x100 * n + 0xCC, 15, 1, .w1c, 0⟩
/-- LOOM.SPARE (R562). -/
def Reg.LOOM.SPARE.reject_code (n : Nat) : Fld := ⟨0x10000 + 0x100 * n + 0xCC, 16, 3, .ro, 0⟩
/-- LOOM.SPARE_CMD (R562). -/
def Reg.LOOM.SPARE_CMD.target (n : Nat) : Fld := ⟨0x10000 + 0x100 * n + 0xD0, 0, 6, .wo, 0⟩
/-- LOOM.SPARE_CMD (R562). -/
def Reg.LOOM.SPARE_CMD.op (n : Nat) : Fld := ⟨0x10000 + 0x100 * n + 0xD0, 6, 2, .wo, 0⟩
/-- LOOM.CORE_FAIL (R562). -/
def Reg.LOOM.CORE_FAIL.failed (n : Nat) : Fld := ⟨0x10000 + 0x100 * n + 0xD4, 0, 32, .ro, 0⟩
/-- LOOM.UNSPARED (R562). -/
def Reg.LOOM.UNSPARED.pairs (n : Nat) : Fld := ⟨0x10000 + 0x100 * n + 0xD8, 0, 32, .ro, 0⟩
/-- LOOM.EVC_SEL (R562). -/
def Reg.LOOM.EVC_SEL.src (n : Nat) (i : Nat) : Fld := ⟨0x10000 + 0x100 * n + 0xDC, 8 * i, 8, .rw, 0⟩
/-- LOOM.EVC (R562). -/
def Reg.LOOM.EVC.count (n : Nat) (i : Nat) : Fld := ⟨0x10000 + 0x100 * n + 0xE0 + 8 * i, 0, 48, .ro, 0⟩
/-- EVC (R563). -/
def Reg.EVC.count (i : Nat) : Fld := ⟨0x900 + 8 * i, 0, 48, .ro, 0⟩
/-- EVC_SEL (R563). -/
def Reg.EVC_SEL.src (i : Nat) : Fld := ⟨0x980 + 4 * i, 0, 8, .rw, 0⟩
/-- EVC_SEL (R563). -/
def Reg.EVC_SEL.loom (i : Nat) : Fld := ⟨0x980 + 4 * i, 8, 5, .rw, 0⟩
/-- EVC_CTRL (R563). -/
def Reg.EVC_CTRL.run : Fld := ⟨0x9C0, 0, 16, .rw, 0⟩
/-- EVC_CTRL (R563). -/
def Reg.EVC_CTRL.sync : Fld := ⟨0x9C0, 16, 1, .rw, 0⟩
/-- EVC_CTRL (R563). -/
def Reg.EVC_CTRL.clear_all : Fld := ⟨0x9C0, 17, 1, .wo, 0⟩
/-- EVC_STATUS (R563). -/
def Reg.EVC_STATUS.ovf : Fld := ⟨0x9C4, 0, 16, .w1c, 0⟩
/-- EVC_STATUS (R563). -/
def Reg.EVC_STATUS.lovf : Fld := ⟨0x9C4, 16, 4, .w1c, 0⟩
/-- EVC_STATUS (R563). -/
def Reg.EVC_STATUS.sel_reject : Fld := ⟨0x9C4, 20, 1, .w1c, 0⟩
/-- SEC_CTRL (R615). -/
def Reg.SEC_CTRL.lock : Fld := ⟨0x3C0, 0, 1, .wo, 0⟩
/-- SEC_CTRL (R615). -/
def Reg.SEC_CTRL.attest : Fld := ⟨0x3C0, 1, 1, .wo, 0⟩
/-- SEC_CTRL (R615). -/
def Reg.SEC_CTRL.pubkey : Fld := ⟨0x3C0, 2, 1, .wo, 0⟩
/-- SEC_CTRL (R615). -/
def Reg.SEC_CTRL.dev_reset : Fld := ⟨0x3C0, 3, 1, .wo, 0⟩
/-- SEC_CTRL (R615). -/
def Reg.SEC_CTRL.ready : Fld := ⟨0x3C0, 4, 1, .wo, 0⟩
/-- SEC_CTRL (R615). -/
def Reg.SEC_CTRL.confirm : Fld := ⟨0x3C0, 8, 8, .wo, 0⟩
/-- SEC_CTRL (R615). -/
def Reg.SEC_CTRL.irq_en : Fld := ⟨0x3C0, 16, 3, .rw, 0⟩
/-- SEC_CTRL (R615). -/
def Reg.SEC_CTRL.cmd_reject : Fld := ⟨0x3C0, 31, 1, .w1c, 0⟩
/-- SEC_STATUS (R615). -/
def Reg.SEC_STATUS.stage : Fld := ⟨0x3C4, 0, 3, .ro, 0⟩
/-- SEC_STATUS (R615). -/
def Reg.SEC_STATUS.reset_cause : Fld := ⟨0x3C4, 3, 3, .ro, 1⟩
/-- SEC_STATUS (R615). -/
def Reg.SEC_STATUS.slot : Fld := ⟨0x3C4, 6, 1, .ro, 0⟩
/-- SEC_STATUS (R615). -/
def Reg.SEC_STATUS.locked : Fld := ⟨0x3C4, 7, 1, .ro, 0⟩
/-- SEC_STATUS (R615). -/
def Reg.SEC_STATUS.code_a : Fld := ⟨0x3C4, 8, 4, .ro, 0⟩
/-- SEC_STATUS (R615). -/
def Reg.SEC_STATUS.code_b : Fld := ⟨0x3C4, 12, 4, .ro, 0⟩
/-- SEC_STATUS (R615). -/
def Reg.SEC_STATUS.att_busy : Fld := ⟨0x3C4, 16, 1, .ro, 0⟩
/-- SEC_STATUS (R615). -/
def Reg.SEC_STATUS.att_done : Fld := ⟨0x3C4, 17, 1, .w1c, 0⟩
/-- SEC_STATUS (R615). -/
def Reg.SEC_STATUS.att_reject : Fld := ⟨0x3C4, 18, 1, .w1c, 0⟩
/-- SEC_STATUS (R615). -/
def Reg.SEC_STATUS.att_code : Fld := ⟨0x3C4, 19, 3, .ro, 0⟩
/-- SEC_STATUS (R615). -/
def Reg.SEC_STATUS.boot_fail : Fld := ⟨0x3C4, 22, 1, .w1c, 0⟩
/-- SEC_STATUS (R615). -/
def Reg.SEC_STATUS.exhausted : Fld := ⟨0x3C4, 23, 1, .ro, 0⟩
/-- SEC_ATT_ADDR (R615). -/
def Reg.SEC_ATT_ADDR.line : Fld := ⟨0x3C8, 0, 27, .rw, 0⟩
/-- SEC_HSS (R615). -/
def Reg.SEC_HSS.next_index : Fld := ⟨0x3CC, 0, 26, .ro, Config.hssIndex.toNat⟩

/-- Fields of GLB, part 0. -/
def rowsGlb0 : List Fld :=
  [Reg.GLB_UNIT_ENABLE.dma_en,
   Reg.GLB_UNIT_ENABLE.tap0_en,
   Reg.GLB_UNIT_ENABLE.tap1_en,
   Reg.GLB_UNIT_ENABLE.scrub_en,
   Reg.GLB_UNIT_STATE.dma_state,
   Reg.GLB_UNIT_STATE.tap0_state,
   Reg.GLB_UNIT_STATE.tap1_state,
   Reg.GLB_UNIT_STATE.scrub_state,
   Reg.GLB_UNIT_STATE.start_reject,
   Reg.GLB_POOL.in_use,
   Reg.GLB_POOL.reserve_in_use,
   Reg.GLB_POOL_PEAK.peak,
   Reg.GLB_PROG_BASE.base,
   Reg.GLB_PROG_BASE.base_reject,
   Reg.GLB_ICACHE_INV.inv,
   Reg.GLB_ICACHE_BUSY.busy,
   Reg.GLB_CSHU_LASTFAULT.fault,
   Reg.GLB_CSHU_LASTCTX.context,
   Reg.GLB_CSHU_LASTCTX.new,
   Reg.CTX_CMD.cmd,
   Reg.CTX_STATUS.state,
   Reg.CTX_STATUS.resident,
   Reg.CTX_STATUS.busy,
   Reg.CTX_STATUS.reject_code,
   Reg.CTX_STATUS.write_reject,
   Reg.CTX_STATUS.cmd_reject,
   Reg.CTX_PARKED.count,
   Reg.CTX_PARKED.new,
   Reg.CTX_QUANTUM.ticks,
   Reg.CTX_DLMISS.count,
   Reg.GLB_SEGT_BASE.base,
   Reg.GLB_SEGT_BASE.base_reject,
   Reg.GLB_SEGT_STATUS.last_seg,
   Reg.GLB_SEGT_STATUS.reason,
   Reg.GLB_SEGT_STATUS.refused,
   Reg.GLB_SEGT_REFUSED.count,
   Reg.GLB_SCRUB_CTRL.period_h,
   Reg.GLB_SCRUB_CTRL.cfg_reject,
   Reg.GLB_SCRUB_POS.line,
   Reg.GLB_SCRUB_PASS.count]

/-- Fields of GLB, part 1. -/
def rowsGlb1 : List Fld :=
  [Reg.GLB_GRAN_CE.count,
   Reg.GLB_GRAN_UE.count,
   Reg.GLB_GRAN_ERR_LO.line,
   Reg.GLB_GRAN_ERR_HI.half,
   Reg.GLB_GRAN_ERR_HI.source,
   Reg.GLB_GRAN_ERR_HI.unit,
   Reg.GLB_GRAN_ERR_HI.valid,
   Reg.GLB_GRAN_IRQ.ue,
   Reg.GLB_GRAN_IRQ.ce_over,
   Reg.GLB_GRAN_IRQ.ue_en,
   Reg.GLB_GRAN_IRQ.ce_en,
   Reg.GLB_GRAN_IRQ.ce_limit,
   Reg.GLB_ID.grade,
   Reg.GLB_ID.rev,
   Reg.GLB_ID.part,
   Reg.GLB_SERIAL.serial,
   Reg.GLB_STATUS.gran_ready,
   Reg.GLB_STATUS.link_up,
   Reg.GLB_STATUS.void_access,
   Reg.GLB_STATUS.lock_reject,
   Reg.GLB_STATUS.size_reject,
   Reg.GLB_STATUS.pcie_overrun,
   Reg.GLB_STATUS.bar2_early,
   Reg.GLB_STATUS_EN.en,
   Reg.GLB_IRQ_PEND.pend,
   Reg.GLB_IRQ_PEND_HI.pend_hi,
   Reg.GLB_IRQ_SW.cause,
   Reg.GLB_IRQ_SW_SET.set,
   Reg.GLB_PCIE_LINK.speed,
   Reg.GLB_PCIE_LINK.width,
   Reg.GLB_PCIE_LINK.link_down_seen,
   Reg.GLB_PCIE_LINK.hot_reset_seen,
   Reg.GLB_PCIE_LINK.flr_seen,
   Reg.GLB_PCIE_SUBSYS.subsys_vendor,
   Reg.GLB_PCIE_SUBSYS.subsys_id,
   Reg.GLB_PCIE_CTRL.cfg_commit,
   Reg.GLB_PCIE_CTRL.cfg_done,
   Reg.GLB_PCIE_CTRL.max_speed,
   Reg.REED_CTRL.role,
   Reg.REED_CTRL.en]

/-- Fields of GLB, part 2. -/
def rowsGlb2 : List Fld :=
  [Reg.REED_CTRL.branch,
   Reg.REED_CTRL.position,
   Reg.REED_CTRL.echo_term,
   Reg.REED_CTRL.lane_loop,
   Reg.REED_CTRL.resync,
   Reg.REED_CTRL.echo_now,
   Reg.REED_CTRL.cfg_reject,
   Reg.REED_STATE.state,
   Reg.REED_STATE.clk_lock,
   Reg.REED_STATE.aligned,
   Reg.REED_STATE.late_risk,
   Reg.REED_STATE.start_reject,
   Reg.REED_STATE.slot,
   Reg.REED_LAT.ticks,
   Reg.REED_LAT.upslots_log2,
   Reg.REED_ECHO_PERIOD.ms,
   Reg.REED_DELAY.d,
   Reg.REED_DELAY_TRIM.trim,
   Reg.REED_PATH.rtt_h,
   Reg.REED_TIME.time,
   Reg.REED_IRQ.holdover,
   Reg.REED_IRQ.unaligned,
   Reg.REED_IRQ.late,
   Reg.REED_IRQ.crc,
   Reg.REED_IRQ.delay_jump,
   Reg.REED_IRQ.sync_err,
   Reg.REED_IRQ.send_drop,
   Reg.REED_IRQ.round_done,
   Reg.REED_IRQ.members_changed,
   Reg.REED_IRQ_EN.en,
   Reg.REED_LATE.count,
   Reg.REED_CRC_ERR.count,
   Reg.REED_SEND_DROP.count,
   Reg.REED_ROOT_STAT.members,
   Reg.REED_UPQ.depth,
   Reg.REED_UPQ.peak,
   Reg.FL_CFG.mode,
   Reg.FL_CFG.div,
   Reg.FL_CFG.dummy,
   Reg.FL_CFG.addr4]

/-- Fields of GLB, part 3. -/
def rowsGlb3 : List Fld :=
  [Reg.FL_CFG.size0_log2,
   Reg.FL_CFG.size1_log2,
   Reg.FL_CFG.rd_op,
   Reg.FL_CFG.cfg_reject,
   Reg.FL_ADDR.addr,
   Reg.FL_BUF.line,
   Reg.FL_CMD.opcode,
   Reg.FL_CMD.abytes,
   Reg.FL_CMD.dir,
   Reg.FL_CMD.sel,
   Reg.FL_CMD.use_dummy,
   Reg.FL_CMD.len,
   Reg.FL_CMD.go,
   Reg.FL_STATUS.busy,
   Reg.FL_STATUS.done,
   Reg.FL_STATUS.cmd_reject,
   Reg.FL_STATUS.hash_fail,
   Reg.FL_STATUS.fill_busy,
   Reg.FL_STATUS.buf_ecc,
   Reg.FL_STATUS.dqs_err,
   Reg.FL_STATUS.reject_code,
   Reg.FL_STATUS.fails,
   Reg.FL_XIP.en,
   Reg.FL_XIP.sel,
   Reg.FL_XIP.pages_m1,
   Reg.FL_XIP.base_page,
   Reg.FL_NONCE.nonce,
   Reg.BP_CTRL.en,
   Reg.BP_STATUS.frame_reject,
   Reg.BP_STATUS.reason,
   Reg.BP_STATUS.underrun,
   Reg.BP_STATUS.overrun,
   Reg.BP_STATUS.busy,
   Reg.BP_STATUS.underrun_word,
   Reg.BP_STATUS.frames,
   Reg.BP_ALERT_EN_LO.mask_lo,
   Reg.BP_ALERT_EN_HI.mask_hi,
   Reg.CAL_CTRL.full,
   Reg.CAL_CTRL.stop,
   Reg.CAL_CTRL.commit]

/-- Fields of GLB, part 4. -/
def rowsGlb4 : List Fld :=
  [Reg.CAL_CTRL.discard,
   Reg.CAL_CTRL.dump,
   Reg.CAL_CTRL.load,
   Reg.CAL_CTRL.roll_en,
   Reg.CAL_CTRL.time_arm,
   Reg.CAL_CTRL.cmd_reject,
   Reg.CAL_STATUS.state,
   Reg.CAL_STATUS.phase,
   Reg.CAL_STATUS.loom,
   Reg.CAL_STATUS.core,
   Reg.CAL_STATUS.staged_dirty,
   Reg.CAL_STATUS.uncal,
   Reg.CAL_STATUS.ladder_stale,
   Reg.CAL_STATUS.hash_busy,
   Reg.CAL_STATUS.done,
   Reg.CAL_STATUS.fail,
   Reg.CAL_STATUS.ref_bad,
   Reg.CAL_STATUS.time_bad,
   Reg.CAL_STATUS.due,
   Reg.CAL_STATUS.blocked,
   Reg.CAL_STATUS.load_reject,
   Reg.CAL_STATUS.reject_code,
   Reg.CAL_STATUS.stamp_valid,
   Reg.CAL_REF_V.v,
   Reg.CAL_REF_R.r,
   Reg.CAL_DELTA_T.dt,
   Reg.CAL_DUE.looms,
   Reg.CAL_IMG.line,
   Reg.CAL_IMG.load_code,
   Reg.CAL_ROLL.gap,
   Reg.CAL_IRQ_EN.en,
   Reg.CAL_TIME_ARM.arm,
   Reg.CAL_TIME_STAMP.stamp,
   Reg.CAL_FAILS.cores,
   Reg.CAL_FAILS.looms,
   Reg.TEMP_MAX.temp,
   Reg.TEMP_MAX.sensor,
   Reg.TEMP_READ.temp,
   Reg.TEMP_READ.faulty,
   Reg.TH_LIMIT_A.warn]

/-- Fields of GLB, part 5. -/
def rowsGlb5 : List Fld :=
  [Reg.TH_LIMIT_A.throttle,
   Reg.TH_LIMIT_B.shutdown,
   Reg.TH_LIMIT_B.resume,
   Reg.TH_PAUSE.len,
   Reg.TH_PAUSE.interval,
   Reg.TH_STATUS.state,
   Reg.TH_STATUS.warn,
   Reg.TH_STATUS.ack_latched,
   Reg.TH_STATUS.warn_seen,
   Reg.TH_STATUS.throttle_seen,
   Reg.TH_STATUS.shutdown,
   Reg.TH_STATUS.sensor_fault,
   Reg.TH_STATUS.gov_max,
   Reg.TH_STATUS.cfg_reject,
   Reg.TH_STATUS.cmd_reject,
   Reg.TH_CMD.safe,
   Reg.TH_CMD.clear_safe,
   Reg.TH_CMD.ack,
   Reg.TH_IRQ_EN.en,
   Reg.TH_THROTTLED.shuttles,
   Reg.TH_PAUSED.ticks,
   Reg.PWR_NOW.power,
   Reg.PWR_NOW.level,
   Reg.PWR_PEAK.peak,
   Reg.PWR_LIMIT.limit,
   Reg.PWR_LIMIT.trip_en,
   Reg.PWR_LIMIT.trip_ms,
   Reg.LOG_WPTR.slot,
   Reg.LOG_SEQ.seq,
   Reg.LOG_HOST_LO.data,
   Reg.LOG_HOST_HI.code,
   Reg.LOG_STATUS.queued,
   Reg.LOG_STATUS.write_reject,
   Reg.LOG_STATUS.lost,
   Reg.UCODE_CTRL.load,
   Reg.UCODE_CTRL.swap,
   Reg.UCODE_CTRL.swap_abort,
   Reg.UCODE_CTRL.sure_enter,
   Reg.UCODE_CTRL.sure_exit,
   Reg.UCODE_CTRL.cmd_reject]

/-- Fields of GLB, part 6. -/
def rowsGlb6 : List Fld :=
  [Reg.UCODE_IMG.line,
   Reg.UCODE_MASK.shuttles,
   Reg.UCODE_STATUS.state,
   Reg.UCODE_STATUS.load_code,
   Reg.UCODE_STATUS.load_done,
   Reg.UCODE_STATUS.load_reject,
   Reg.UCODE_STATUS.swap_done,
   Reg.UCODE_STATUS.swap_fail,
   Reg.UCODE_STATUS.swap_timeout,
   Reg.UCODE_STATUS.mc,
   Reg.UCODE_STATUS.mc_fail,
   Reg.UCODE_STATUS.sure_mismatch,
   Reg.UCODE_STATUS.reject_code,
   Reg.UCODE_VERSION_ACT.version,
   Reg.UCODE_VERSION_ACT.source,
   Reg.UCODE_VERSION_SHD.version,
   Reg.UCODE_VERSION_SHD.source,
   Reg.UCODE_MC.total,
   Reg.UCODE_MC.recent,
   Reg.UCODE_SURE_CFG.threshold,
   Reg.UCODE_SURE_CFG.window,
   Reg.UCODE_SURE.shuttles,
   Reg.UCODE_SWAP_CFG.limit,
   Reg.UCODE_PENDING.shuttles,
   Reg.UCODE_FLOOR.version,
   Reg.UCODE_IRQ_EN.en,
   Reg.UCODE_ROM_VER.version,
   Reg.GLB_OWNER_STATUS.block,
   Reg.GLB_OWNER_STATUS.writer,
   Reg.GLB_OWNER_STATUS.owner_reject,
   Reg.GLB_TAKEOVER.seize,
   Reg.GLB_TAKEOVER.bp_en,
   Reg.GLB_TAKEOVER.cs_en,
   Reg.GLB_ERR_STATUS.loom_err,
   Reg.GLB_ERR_STATUS.quar,
   Reg.GLB_ERR_STATUS.core_fail,
   Reg.GLB_ERR_STATUS.unspared,
   Reg.GLB_ERR_STATUS.gran_ue,
   Reg.GLB_ERR_STATUS.device_err,
   Reg.GLB_ERR_STATUS.fault_n]

/-- Fields of GLB, part 7. -/
def rowsGlb7 : List Fld :=
  [Reg.GLB_ERR_IRQ_EN.en,
   Reg.GLB_QUAR.looms,
   Reg.GLB_ERR_CFG.threshold,
   Reg.GLB_ERR_CFG.window,
   Reg.GLB_ERR_CFG.auto_spare,
   Reg.EVC_CTRL.run,
   Reg.EVC_CTRL.sync,
   Reg.EVC_CTRL.clear_all,
   Reg.EVC_STATUS.ovf,
   Reg.EVC_STATUS.lovf,
   Reg.EVC_STATUS.sel_reject,
   Reg.SEC_CTRL.lock,
   Reg.SEC_CTRL.attest,
   Reg.SEC_CTRL.pubkey,
   Reg.SEC_CTRL.dev_reset,
   Reg.SEC_CTRL.ready,
   Reg.SEC_CTRL.confirm,
   Reg.SEC_CTRL.irq_en,
   Reg.SEC_CTRL.cmd_reject,
   Reg.SEC_STATUS.stage,
   Reg.SEC_STATUS.reset_cause,
   Reg.SEC_STATUS.slot,
   Reg.SEC_STATUS.locked,
   Reg.SEC_STATUS.code_a,
   Reg.SEC_STATUS.code_b,
   Reg.SEC_STATUS.att_busy,
   Reg.SEC_STATUS.att_done,
   Reg.SEC_STATUS.att_reject,
   Reg.SEC_STATUS.att_code,
   Reg.SEC_STATUS.boot_fail,
   Reg.SEC_STATUS.exhausted,
   Reg.SEC_ATT_ADDR.line,
   Reg.SEC_HSS.next_index]

/-- The fields of GLB. -/
def rowsGlb : List Fld :=
  rowsGlb0 ++ rowsGlb1 ++ rowsGlb2 ++ rowsGlb3 ++ rowsGlb4 ++ rowsGlb5 ++ rowsGlb6 ++ rowsGlb7

/-- Fields of LOOM, part 0. -/
def rowsLoom0 (n : Nat) : List Fld :=
  [Reg.LOOM.ENABLE.shuttle_en n,
   Reg.LOOM.ENABLE.pattern_en n,
   Reg.LOOM.ENABLE.mill_en n,
   Reg.LOOM.ENABLE.capture_en n,
   Reg.LOOM.ENABLE.tme_en n,
   Reg.LOOM.UNIT_STATE.shuttle_state n,
   Reg.LOOM.UNIT_STATE.pattern_state n,
   Reg.LOOM.UNIT_STATE.mill_state n,
   Reg.LOOM.UNIT_STATE.capture_state n,
   Reg.LOOM.UNIT_STATE.tme_state n,
   Reg.LOOM.UNIT_STATE.start_reject n,
   Reg.LOOM.CREDIT.refill_in_use n,
   Reg.LOOM.CREDIT.shared_in_use n,
   Reg.LOOM.CREDIT_PEAK.refill_peak n,
   Reg.LOOM.CREDIT_PEAK.shared_peak n,
   Reg.LOOM.SERVICE_MISS.count n,
   Reg.LOOM.SHU_LASTFAULT.fault n,
   Reg.LOOM.SHU_LASTCTX.context n,
   Reg.LOOM.SHU_LASTCTX.new n,
   Reg.LOOM.FLOG_UNLOGGED.count n,
   Reg.LOOM.SELVEDGE.pll_lock n,
   Reg.LOOM.SELVEDGE.dll_lock n,
   Reg.LOOM.SELVEDGE.pll_lost n,
   Reg.LOOM.SELVEDGE.dll_lost n,
   Reg.LOOM.SELVEDGE.dll_ctrl n,
   Reg.LOOM.TSET_COMMIT.commit n,
   Reg.LOOM.TSET_COMMIT.pending n,
   Reg.LOOM.TSET_COMMIT.commit_reject n,
   Reg.LOOM.TSET_COMMIT.bad_set n,
   Reg.LOOM.TSET_COMMIT.bad_pin n,
   Reg.LOOM.TSET_COMMIT.reason n,
   Reg.LOOM.TSET_COMMIT.dirty n,
   Reg.LOOM.FLOG_BASE.line n,
   Reg.LOOM.FLOG_CTRL.size_log2 n,
   Reg.LOOM.FLOG_CTRL.stop_full n,
   Reg.LOOM.FLOG_CTRL.log_en n,
   Reg.LOOM.FLOG_WPTR.index n,
   Reg.LOOM.FLOG_WPTR.lap n,
   Reg.LOOM.FLOG_RPTR.index n,
   Reg.LOOM.FLOG_RPTR.lap n]

/-- Fields of LOOM, part 1. -/
def rowsLoom1 (n : Nat) : List Fld :=
  [Reg.LOOM.FLOG_LOST.count n,
   Reg.LOOM.FLOG_CAP.cap n,
   Reg.LOOM.VIDX.index n,
   Reg.LOOM.SEL_STATUS.running n,
   Reg.LOOM.SEL_STATUS.dr08 n,
   Reg.LOOM.SEL_STATUS.strobe_shift n,
   Reg.LOOM.SEL_STATUS.flog_overflow n,
   Reg.LOOM.SEL_STATUS.flog_capped n,
   Reg.LOOM.SEL_STATUS.idx_wrap n,
   Reg.LOOM.SEL_STATUS.cfg_reject n,
   Reg.LOOM.SEL_STATUS.dp_unmapped n,
   Reg.LOOM.SEL_STATUS.last_end n,
   Reg.LOOM.STROBE_SHIFT.count n,
   Reg.LOOM.FAIL_PINS.pins n,
   Reg.LOOM.BOB_CTRL.starve n,
   Reg.LOOM.BOB_FILL.stream n,
   Reg.LOOM.BOB_FILL.fifo n,
   Reg.LOOM.PIN_CMD.segment n,
   Reg.LOOM.PIN_CMD.load n,
   Reg.LOOM.PIN_CMD.flush n,
   Reg.LOOM.PIN_STATUS.used n,
   Reg.LOOM.PIN_STATUS.segs n,
   Reg.LOOM.PIN_STATUS.busy n,
   Reg.LOOM.PIN_STATUS.pin_full n,
   Reg.LOOM.PIN_STATUS.pin_reject n,
   Reg.LOOM.HOLD_COUNT.count n,
   Reg.LOOM.BOB_STATUS.starved n,
   Reg.LOOM.BOB_STATUS.jump_gap n,
   Reg.LOOM.BOB_STATUS.bad_next n,
   Reg.LOOM.BOB_STATUS.sjmp_replaced n,
   Reg.LOOM.BOB_STATUS.bad_seg n,
   Reg.LOOM.SEG_NOW.segment n,
   Reg.LOOM.LOOP_NOW.pass n,
   Reg.LOOM.SJMP_STATE.target n,
   Reg.LOOM.SJMP_STATE.pending n,
   Reg.LOOM.CAP_ARM.desc n,
   Reg.LOOM.CAP_CMD.trig n,
   Reg.LOOM.CAP_CMD.disarm n,
   Reg.LOOM.CAP_STATUS.state n,
   Reg.LOOM.CAP_STATUS.queued n]

/-- Fields of LOOM, part 2. -/
def rowsLoom2 (n : Nat) : List Fld :=
  [Reg.LOOM.CAP_STATUS.arm_status n,
   Reg.LOOM.CAP_STATUS.gap n,
   Reg.LOOM.CAP_STATUS.lost n,
   Reg.LOOM.CAP_STATUS.closed n,
   Reg.LOOM.CAP_STATUS.cmd_reject n,
   Reg.LOOM.CAP_STATUS.arm_reject n,
   Reg.LOOM.CAP_INDEX.capture n,
   Reg.LOOM.CAP_SLOT.slot n,
   Reg.LOOM.CAP_LOST.count n,
   Reg.LOOM.CAP_DROP.count n,
   Reg.LOOM.SPARE_MEAS.rate n,
   Reg.LOOM.SPARE_MEAS.tap n,
   Reg.LOOM.MILL_CMD.entry n,
   Reg.LOOM.MILL_CMD.start n,
   Reg.LOOM.MILL_CMD.stop n,
   Reg.LOOM.MILL_STATUS.status n,
   Reg.LOOM.MILL_STATE.state n,
   Reg.LOOM.MILL_STATE.pc n,
   Reg.LOOM.MILL_STATE.ecc_corr n,
   Reg.LOOM.MILL_STATE.start_reject n,
   Reg.LOOM.MILL_STATE.reject_code n,
   Reg.LOOM.MILL_STEPS.steps n,
   Reg.LOOM.MILL_PEAK.peak n,
   Reg.LOOM.MILL_DROP.count n,
   Reg.LOOM.MILL_DISC.count n,
   Reg.LOOM.IRQ_CAUSE.burst_end n,
   Reg.LOOM.IRQ_CAUSE.burst_flag n,
   Reg.LOOM.IRQ_CAUSE.cap_closed n,
   Reg.LOOM.IRQ_CAUSE.cap_err n,
   Reg.LOOM.IRQ_CAUSE.flog_overflow n,
   Reg.LOOM.IRQ_CAUSE.mill_idle n,
   Reg.LOOM.IRQ_CAUSE.mill_err n,
   Reg.LOOM.IRQ_CAUSE.tme_done n,
   Reg.LOOM.IRQ_CAUSE.mon_pend n,
   Reg.LOOM.IRQ_CAUSE.lock_lost n,
   Reg.LOOM.IRQ_CAUSE.service_miss n,
   Reg.LOOM.IRQ_CAUSE.wfm_end n,
   Reg.LOOM.IRQ_CAUSE.shu_fault n,
   Reg.LOOM.IRQ_EN.en n,
   Reg.LOOM.QUAR.quarantined n]

/-- Fields of LOOM, part 3. -/
def rowsLoom3 (n : Nat) : List Fld :=
  [Reg.LOOM.QUAR.cause n,
   Reg.LOOM.QUAR.quarantine n,
   Reg.LOOM.QUAR.release n,
   Reg.LOOM.QUAR.err_recent n,
   Reg.LOOM.QUAR.release_reject n,
   Reg.LOOM.QUAR.hub_down n,
   Reg.LOOM.SPARE.s32_ball n,
   Reg.LOOM.SPARE.s33_ball n,
   Reg.LOOM.SPARE.s32_failed n,
   Reg.LOOM.SPARE.s33_failed n,
   Reg.LOOM.SPARE.pending n,
   Reg.LOOM.SPARE.exch_reject n,
   Reg.LOOM.SPARE.reject_code n,
   Reg.LOOM.SPARE_CMD.target n,
   Reg.LOOM.SPARE_CMD.op n,
   Reg.LOOM.CORE_FAIL.failed n,
   Reg.LOOM.UNSPARED.pairs n]

/-- The fields of LOOM. -/
def rowsLoom (n : Nat) : List Fld :=
  rowsLoom0 n ++ rowsLoom1 n ++ rowsLoom2 n ++ rowsLoom3 n

/-- The fields of SEL. -/
def rowsSel (m : Nat) : List Fld :=
  [Reg.CTX_SEL.context m,
   Reg.SITE_SEL.site m,
   Reg.TSET_SEL.loom m,
   Reg.TSET_SEL.set m,
   Reg.TSET_SEL.view m,
   Reg.TSET_SEL.write_reject m,
   Reg.GLB_SEGT_SEL.segment m,
   Reg.GLB_MILL_SEL.loom m,
   Reg.GLB_MILL_SEL.page m,
   Reg.GLB_MILL_SEL.write_reject m,
   Reg.CAL_SEL.core m,
   Reg.CAL_SEL.loom m,
   Reg.CAL_SEL.view m,
   Reg.TEMP_SEL.sensor m,
   Reg.LOG_PAGE.page m,
   Reg.UCODE_SEL.shuttle m]

/-- The fields of CHAN. -/
def rowsChan (c : Nat) : List Fld :=
  [Reg.CHAN.CTRL.mode c,
   Reg.CHAN.CTRL.range c,
   Reg.CHAN.CTRL.gang c,
   Reg.CHAN.CTRL.conn c,
   Reg.CHAN.CTRL.meas_v c,
   Reg.CHAN.CTRL.short_time c,
   Reg.CHAN.CTRL.rev_check c,
   Reg.CHAN.FORCE_CODE.code c,
   Reg.CHAN.VCLAMP.lo c,
   Reg.CHAN.VCLAMP.hi c,
   Reg.CHAN.ICLAMP.lo c,
   Reg.CHAN.ICLAMP.hi c,
   Reg.CHAN.LVL_DRV.vil c,
   Reg.CHAN.LVL_DRV.vih c,
   Reg.CHAN.LVL_CMP.vol c,
   Reg.CHAN.LVL_CMP.voh c,
   Reg.CHAN.RATE.vt c,
   Reg.CHAN.RATE.rate c,
   Reg.CHAN.STATUS.vclamp_act c,
   Reg.CHAN.STATUS.iclamp_act c,
   Reg.CHAN.STATUS.settled c,
   Reg.CHAN.STATUS.cv_active c,
   Reg.CHAN.STATUS.husk_short c,
   Reg.CHAN.STATUS.husk_open c,
   Reg.CHAN.STATUS.husk_reverse c,
   Reg.CHAN.STATUS.husk_over c,
   Reg.CHAN.STATUS.boost_trip c,
   Reg.CHAN.STATUS.over_range c,
   Reg.CHAN.STATUS.set_reject c,
   Reg.CHAN.STATUS.reject_code c,
   Reg.CHAN.STATUS.role c,
   Reg.CHAN.STATUS.core c,
   Reg.CHAN.STATUS.exchanging c]

/-- The fields of MON. -/
def rowsMon (base : Nat) : List Fld :=
  [Reg.MON.CTRL.en base,
   Reg.MON.CTRL.src base,
   Reg.MON.CTRL.hyst base,
   Reg.MON.CTRL.div base,
   Reg.MON.CTRL.guard_block base,
   Reg.MON.CTRL.guard_trip base,
   Reg.MON.CTRL.evt_mask base,
   Reg.MON.WIN.lo base,
   Reg.MON.WIN.hi base,
   Reg.MON.STATE.state base,
   Reg.MON.STATE.trip_armed base,
   Reg.MON.STATE.enter base,
   Reg.MON.STATE.rise_out base,
   Reg.MON.STATE.fall_out base,
   Reg.MON.STATE.guard_trip base,
   Reg.MON.STATE.set_reject base,
   Reg.MON.STATE.reject_code base,
   Reg.MON.COUNT.edges base]

/-- The fields of TW. -/
def rowsTw (n : Nat) : List Fld :=
  [Reg.TW.X.x n,
   Reg.TW.XMIN.xmin n,
   Reg.TW.XMAX.xmax n,
   Reg.TW.XCMASK.xcmask n,
   Reg.TW.Y.y n,
   Reg.TW.YMIN.ymin n,
   Reg.TW.YMAX.ymax n,
   Reg.TW.YCMASK.ycmask n,
   Reg.TW.BG.bg n,
   Reg.TW.SCR_SEL.sel n,
   Reg.TW.STATUS.cfg_reject n]

/-- The fields of TW_i. -/
def rowsTwI (n : Nat) (i : Nat) : List Fld :=
  [Reg.TW.OP.xact n i,
   Reg.TW.OP.yact n i,
   Reg.TW.OP.ylink n i,
   Reg.TW.OP.xload n i,
   Reg.TW.OP.yload n i,
   Reg.TW.OP.dmode n i,
   Reg.TW.OP.p_m1 n i,
   Reg.TW.OP.dinv n i,
   Reg.TW.SCR.word n i]

/-- The fields of TW_q. -/
def rowsTwQ (n : Nat) (q : Nat) : List Fld :=
  [Reg.TW.PINMAP.map n q]

/-- The fields of WFM. -/
def rowsWfm (c : Nat) : List Fld :=
  [Reg.WFM.CTRL.en c,
   Reg.WFM.CTRL.filter c,
   Reg.WFM.CTRL.uflow_strict c,
   Reg.WFM.CTRL.start_at c,
   Reg.WFM.CTRL.end_hold c,
   Reg.WFM.CTRL.end_evt c,
   Reg.WFM.CTRL.end_code c,
   Reg.WFM.CTRL.rate_commit c,
   Reg.WFM.DESC.addr c,
   Reg.WFM.OUT_DIV.div c,
   Reg.WFM.STEP.step c,
   Reg.WFM.START.time c,
   Reg.WFM.UFLOW.count c,
   Reg.WFM.STATUS.state c,
   Reg.WFM.STATUS.end_cause c,
   Reg.WFM.STATUS.rate_pending c,
   Reg.WFM.STATUS.clip c,
   Reg.WFM.STATUS.uflow c,
   Reg.WFM.STATUS.force_ignored c,
   Reg.WFM.STATUS.late_start c,
   Reg.WFM.STATUS.start_reject c,
   Reg.WFM.STATUS.set_reject c,
   Reg.WFM.STATUS.reject_code c,
   Reg.WFM.STATUS.bad_desc c]

/-- The fields of TME. -/
def rowsTme (d : Nat) : List Fld :=
  [Reg.TME.CTRL.mode d,
   Reg.TME.CTRL.gate_src d,
   Reg.TME.CTRL.start_at d,
   Reg.TME.SRC_A.src d,
   Reg.TME.SRC_A.edge d,
   Reg.TME.SRC_A.k d,
   Reg.TME.SRC_A.vf d,
   Reg.TME.SRC_A.code d,
   Reg.TME.SRC_A.mask d,
   Reg.TME.SRC_B.src d,
   Reg.TME.SRC_B.edge d,
   Reg.TME.SRC_B.k d,
   Reg.TME.SRC_B.vf d,
   Reg.TME.SRC_B.code d,
   Reg.TME.SRC_B.mask d,
   Reg.TME.N.n d,
   Reg.TME.PACE.pace d,
   Reg.TME.GATE.ticks d,
   Reg.TME.TIMEOUT.ticks d,
   Reg.TME.START.time d,
   Reg.TME.CMD.arm d,
   Reg.TME.CMD.stop d,
   Reg.TME.STATUS.state d,
   Reg.TME.STATUS.end_cause d,
   Reg.TME.STATUS.no_signal d,
   Reg.TME.STATUS.exchange d,
   Reg.TME.STATUS.lock_lost d,
   Reg.TME.STATUS.stdev_sat d,
   Reg.TME.STATUS.arm_reject d,
   Reg.TME.STATUS.set_reject d,
   Reg.TME.STATUS.reject_code d,
   Reg.TME.COUNT.n d,
   Reg.TME.MEAN.mean d,
   Reg.TME.STDEV.stdev d,
   Reg.TME.MIN.min d,
   Reg.TME.MAX.max d,
   Reg.TME.LAST.last d,
   Reg.TME.DISCARD.count d,
   Reg.TME.OVERRUN.count d]

/-- The fields of TAP. -/
def rowsTap (o : Nat) : List Fld :=
  [Reg.TAP.CFG.loom o,
   Reg.TAP.BG.bg o,
   Reg.TAP.BLANK.blank o,
   Reg.TAP.CMD.tim_commit o,
   Reg.TAP.CMD.layer_commit o,
   Reg.TAP.STATUS.tim_pending o,
   Reg.TAP.STATUS.layer_pending o,
   Reg.TAP.STATUS.tim_reject o,
   Reg.TAP.STATUS.layer_reject o,
   Reg.TAP.STATUS.reason o,
   Reg.TAP.STATUS.bad_layer o,
   Reg.TAP.STATUS.cfg_reject o,
   Reg.TAP.STATUS.pix_ecc o,
   Reg.TAP.STATUS.start_code o,
   Reg.TAP.FRAME.count o,
   Reg.TAP.POS.slot o,
   Reg.TAP.POS.line o,
   Reg.TAP.TIM_H1.h_active o,
   Reg.TAP.TIM_H1.h_fp o,
   Reg.TAP.TIM_H2.h_sync o,
   Reg.TAP.TIM_H2.h_bp o,
   Reg.TAP.TIM_V1.v_active o,
   Reg.TAP.TIM_V1.v_fp o,
   Reg.TAP.TIM_V2.v_sync o,
   Reg.TAP.TIM_V2.v_bp o]

/-- The fields of TAP_q. -/
def rowsTapQ (o : Nat) (q : Nat) : List Fld :=
  [Reg.TAP.PINMAP.map o q]

/-- The fields of TAP_l. -/
def rowsTapL (o : Nat) (l : Nat) : List Fld :=
  [Reg.TAP.L_ADDR.addr o l,
   Reg.TAP.L_SIZE.width o l,
   Reg.TAP.L_SIZE.height o l,
   Reg.TAP.L_POS.x_pos o l,
   Reg.TAP.L_POS.y_pos o l,
   Reg.TAP.L_STRIDE.stride o l,
   Reg.TAP.L_FMT.en o l,
   Reg.TAP.L_FMT.format o l,
   Reg.TAP.L_FMT.alpha o l,
   Reg.TAP.L_FMT.const_alpha o l,
   Reg.TAP.L_RET.ret o l,
   Reg.TAP.L_RET.ret_count o l]

/-- The fields of DMA. -/
def rowsDma (i : Nat) : List Fld :=
  [Reg.DMA.RING.ring i,
   Reg.DMA.RING_CFG.size_log2 i,
   Reg.DMA.RING_CFG.loc i,
   Reg.DMA.TAIL.tail i,
   Reg.DMA.HEAD.head i,
   Reg.DMA.PROGRESS.bytes i,
   Reg.DMA.CTRL_STAT.skip i,
   Reg.DMA.CTRL_STAT.reset_ring i,
   Reg.DMA.CTRL_STAT.done i,
   Reg.DMA.CTRL_STAT.error i,
   Reg.DMA.CTRL_STAT.last_code i,
   Reg.DMA.CTRL_STAT.tail_reject i,
   Reg.DMA.CTRL_STAT.cfg_reject i,
   Reg.DMA.CTRL_STAT.cmd_reject i,
   Reg.DMA.ERR_ADDR.line i]

/-- The fields of GLB_CAL_HASH. -/
def rowsGlbCalHash (i : Nat) : List Fld :=
  [Reg.CAL_HASH.hash i]

/-- The fields of LOOM4. -/
def rowsLoomEvcSel (n : Nat) (i : Nat) : List Fld :=
  [Reg.LOOM.EVC_SEL.src n i]

/-- The fields of LOOM_i. -/
def rowsLoomI (n : Nat) (i : Nat) : List Fld :=
  [Reg.LOOM.EVC.count n i]

/-- The fields of GLB_EVC_LO. -/
def rowsGlbEvcLo (i : Nat) : List Fld :=
  [Reg.EVC.count i]

/-- The fields of GLB_EVC_SEL. -/
def rowsGlbEvcSel (i : Nat) : List Fld :=
  [Reg.EVC_SEL.src i,
   Reg.EVC_SEL.loom i]

end Sys2Proof.Machine
end

