-- ==== Sys2Proof/Machine/State.lean ====
section
/-! DEFINITION. The state of the IF768: plain data, every piece of state that spec/ gives the device, and the queue
of commands that wait. INVENTORY.md lists each piece with its rule and its reset value. -/
namespace Sys2Proof.Machine
open Sys2Proof

/-- Why a step stops with a fault. -/
inductive Fault where
  /-- Raised by a command whose operands are not well formed (WellFormed.lean): a list of the wrong length. Safe: no
  such command exists on the device. -/
  | illFormed (mnemonic : String)
  deriving DecidableEq, Repr

/-- Why a command has no meaning. -/
inductive Refusal where
  /-- Raised by an arm of `exec` whose command has no meaning yet. Safe. -/
  | notModelled (mnemonic : String)
  deriving DecidableEq, Repr

/-- The states of a unit (R52) and their codes (R58). -/
inductive UState where | off | on | draining | held
  deriving DecidableEq, Repr

/-- What the driver of a pin last left on it (R221). -/
inductive Drive where | off | low | high | highZ
  deriving DecidableEq, Repr

/-- Context states and codes (R120). -/
inductive CtxState where | free | ready | waiting | halted | parked | claimed
  deriving DecidableEq, Repr

/-- What a waiting context waits for, with the operands its completion needs (R92, R93, R95, R101, R105, R109). -/
inductive Wait where
  | none
  /-- WAITD, WAITU (kind 1). -/
  | time
  /-- WAITE (kinds 2 and 3): the selector is in the record. -/
  | event (timeout : Bool)
  /-- JOIN (kind 4) of `child` into register `d`. -/
  | join (child : Nat) (d : BitVec 4)
  /-- RECV (kind 6). -/
  | recv (code mask : BitVec 8) (d s : BitVec 4) (timeout : Bool)
  /-- A blocking BURST or MLOOP that has started on loom `n`. -/
  | burst (n : Nat)
  /-- A start that waits for the running burst of loom `n` (R106). -/
  | startBurst (n : Nat) (seg : Nat) (blocking loop : Bool)
  /-- MEAS on channel `k` into register `s`. -/
  | meas (k : Nat) (s : BitVec 4)
  /-- A CHAN setting that R155 defers behind a MEAS, or that waits for an exchange (R104). -/
  | chan (k : Nat) (op sub : Nat) (b : BitVec 24)
  /-- MEAS that waits for an exchange to end (R104). -/
  | measWait (k : Nat) (n : BitVec 24) (s : BitVec 4)
  /-- MLOAD, MSTART that wait for the Mill of loom `n`, or whose image is being read. -/
  | mload (n : Nat) (addr : BitVec 36)
  | mstart (n : Nat) (entry : BitVec 11)
  | mloading (n : Nat)
  | mwait (n : Nat) (d : BitVec 4)
  /-- SEND that waits for a credit of the lane or uplink queue (R75, R427). -/
  | send
  /-- An instruction that has issued and waits, in mid-course, for a credit of its Granary partition (R33, R75), for the controller
  (R377) or behind an access of the register bus (R626). -/
  | held
  deriving DecidableEq, Repr

/-- What released a waiting context: the result that its completion writes (R94, R112, R132). -/
inductive Release where
  | none
  | timeout
  | event (code : BitVec 8) (stamp : BitVec 48)
  /-- End of a blocking burst: fail seen on the site's pins, flagged, ended early, matched (MLOOP). -/
  | burst (fail flagged early : Bool) (z : Option Bool)
  | meas (mean : BitVec 24) (isOver : Bool)
  | done
  /-- the child of a JOIN is HALTED, or PARKED: its w0 or its fault word (R95, R112). -/
  | joined (halted : Bool) (v : BitVec 24)
  /-- a Mill status word (MWAIT). -/
  | value (v : BitVec 24)
  /-- the wait ends with a fault (R54, R106, R110). -/
  | fault (word : BitVec 24)
  deriving DecidableEq, Repr

/-- One context (R61, R126) with the bookkeeping that its record keeps. -/
structure Ctx where
  w : Tab (BitVec 24) := []
  a : Tab (BitVec 36) := []
  lc : Tab (BitVec 24) := []
  pc : BitVec 24 := 0
  flags : BitVec 6 := 0
  fault : BitVec 24 := 0
  state : CtxState := .free
  /-- The issue slot held, when resident (R128). -/
  slot : Option (Fin 4) := none
  slotSince : BitVec 48 := 0
  /-- pause pending (R126), and whether the context has reached a pause point with it (R493). -/
  pausePend : Bool := false
  paused : Bool := false
  /-- a PARK, a KILL, or a deadline park (detail) that takes effect at the next pause point (R123, R137). -/
  parkPend : Bool := false
  killPend : Bool := false
  dlPend : Option (BitVec 16) := none
  /-- it gives up its slot at its next pause point (R130). -/
  leave : Bool := false
  home : BitVec 5 := 0
  site : BitVec 10 := 0
  regGrant : Bool := false
  dlPark : Bool := false
  parent : BitVec 14 := 0
  waitKind : BitVec 8 := 0
  waitSel : BitVec 24 := 0
  wakeTime : BitVec 48 := 0
  deadline : BitVec 48 := 0
  dlInterval : BitVec 32 := 0
  readySince : BitVec 48 := 0
  wait : Wait := .none
  /-- the waiting instruction has an extension word: its completion moves the PC by two words. -/
  waitX : Bool := false
  rel : Release := .none
  dlResident : Bool := false
  deriving DecidableEq, Repr

/-- One entry of the site table (R139). -/
structure Site where
  valid : Bool := false
  addr : BitVec 33 := 0
  deriving DecidableEq, Repr

/-- A command of CTX_CMD in progress or held (R626). -/
structure CtxCmd where
  m : Master
  c : Nat
  /-- 1 CLAIM, 2 START, 3 RESUME, 4 PARK, 5 KILL (R143). -/
  op : Nat
  /-- it met a command or a SPAWN that wins in the same step (R122). -/
  lost : Bool
  /-- the state that CTX_STATUS shows until the command ends; none: it is held, or has been refused. -/
  was : Option CtxState
  deriving DecidableEq, Repr

/-- A ramp in progress on a channel (R55, R154, R182). -/
inductive Ramp where
  | none
  /-- the force path holds, then ramps to 0 V; `off` says that the mode becomes Off at its end (a trip). -/
  | force (off : Bool)
  /-- a pattern pin ramps to VT and then goes to drive-off (R55). -/
  | pattern
  /-- phase 1 to 4 of the booster ramp (R182). -/
  | booster (phase : Nat) (off : Bool)
  deriving DecidableEq, Repr

/-- An edge of the pattern driver (R220 to R224): it turns on at its last level, turns off (terminated where `term`), or
drives a level while it is on. -/
inductive PinEdge where
  | enable
  | disable (term : Bool)
  | level (high : Bool)
  deriving DecidableEq, Repr

/-- A MEAS in progress in a channel core (R161). -/
structure MeasRun where
  ctx : Nat
  total : Nat
  left : Nat
  sum : Int
  isOver : Bool
  deriving DecidableEq, Repr

/-- A setting deferred behind a MEAS (R155): a write of CTRL with its master, the slot value written and the bits that
it judges, or the CHAN instruction of a waiting context. -/
inductive Deferred where
  | reg (m : Master) (v mask : Nat)
  | ctx (c : Nat)
  deriving DecidableEq, Repr

/-- What a channel core and its husk hold beside the CHAN[c] registers. -/
structure Chan where
  ramp : Ramp := .none
  /-- the voltage code from which a force path ramps: it forces voltage, starting there, until the ramp's end (R55). -/
  rampFrom : Option (BitVec 24) := none
  /-- the ramp in progress was started by a trip (R170, R293). -/
  tripRamp : Bool := false
  meas : Option MeasRun := none
  /-- settings deferred behind the MEAS, oldest first. -/
  deferred : List Deferred := []
  /-- latest readings of the node: voltage code, and current or shunt code. -/
  vNow : BitVec 24 := 0xB8E38E
  iNow : BitVec 24 := 0
  /-- the comparator outputs CMP_HI and CMP_LO (R194). -/
  cmpHi : Bool := false
  cmpLo : Bool := false
  /-- the husk holds the output open (R170, R578). -/
  opened : Bool := false
  /-- the output level last left on the pin by the pattern path: driving, and its level (R55, R221). -/
  drv : Drive := .off
  /-- the level driven last is VIH (R223). -/
  lastHigh : Bool := false
  /-- what the pin did in the period played last: the driver after each edge, at its time in taps from the period's start
  (R220 to R224). -/
  wave : List (Nat × Drive) := []
  /-- edges of periods played that lie beyond the last one's end, in taps from that end (R229). -/
  carry : List (Nat × PinEdge) := []
  /-- booster loop (even channel): x and u with 24 fraction bits (R178), and outputs computed and not yet applied (R179). -/
  x : Int := 0
  u : Int := 0
  uQueue : List Int := []
  /-- the control output applied at CH_F[2i], with 24 fraction bits. -/
  uOut : Int := 0
  tripCount : Nat := 0
  loopOpen : Bool := true
  deriving DecidableEq, Repr

/-- A monitor's schedule (R204): the divider in use until the next tick of the old schedule, and the Reed time of the
last tick or of the enable. -/
structure MonSched where
  divNow : Nat := 4
  /-- no tick comes before this time: 250 ns after the last one, and after an enable the next tick of Reed time. -/
  notBefore : Option (BitVec 48) := none
  deriving DecidableEq, Repr

/-- A segment descriptor (R249). -/
structure Desc where
  start : Nat := 0
  length : Nat := 0
  loops : Nat := 0
  next : Nat := 0
  last : Bool := false
  valid : Bool := false
  pinned : Bool := false
  twill : Bool := false
  op : Nat := 0
  deriving DecidableEq, Repr

/-- A refill line in the bobbin, or the mark of a lost one (R48). -/
inductive BobLine where
  | data (v : BitVec 512)
  | lost
  deriving DecidableEq, Repr

/-- One entry of the run into a segment (R252, R253). Its stream counts the lines of all its passes from 0. -/
structure Entry where
  seg : Nat
  desc : Desc
  /-- passes below this one play from `copy`, the lines held in the loop window (R255 to R257). -/
  copyTill : Nat := 0
  copy : List (BitVec 512) := []
  /-- it is being loaded into the loop window as its first pass streams (R256). -/
  load : Bool := false
  /-- the descriptor as it is stored, where a jump has cut this entry short (R253, R260). -/
  stored : Option Desc := none
  /-- lines of the stream that have arrived and are still needed, and the number of the first (R255). -/
  lines : List BobLine := []
  base : Nat := 0
  deriving DecidableEq, Repr

/-- The strobes that one played period has scheduled (R232 to R234). -/
structure Sched where
  idx : Nat
  seg : Nat
  pass : Nat
  rep : Nat
  /-- pins judged as CL, CH, CM (CT resolved), pins that must fail (R225), and LG pins. -/
  cl : BitVec 32
  ch : BitVec 32
  cm : BitVec 32
  bad : BitVec 32
  lg : BitVec 32
  /-- LG pins that the selvedge does not judge log 0 (R225). -/
  lgOff : BitVec 32
  /-- pins judged over a window, w > 0 (R232). -/
  win : BitVec 32
  /-- the instants, in taps of the Reed time scale, from which and up to which each pin is judged (R232, R234). -/
  span : Tab (Nat × Nat) := []
  /-- pins whose strobe or window has closed, pins whose condition has been broken in it, and LG pins found high at E3. -/
  done : BitVec 32 := 0
  miss : BitVec 32 := 0
  lgHi : BitVec 32 := 0
  deriving DecidableEq, Repr

/-- One record of the fail log (R241), with the burst it belongs to. -/
structure LogRec where
  idx : Nat
  mask : BitVec 32
  seg : Nat
  pass : Nat
  rep : Nat
  kind : Nat
  burst : Nat
  deriving DecidableEq, Repr

/-- A burst, from the acceptance of its start to its end (R625). -/
structure Burst where
  serial : Nat
  ctx : Nat
  site : Nat
  blocking : Bool
  mloop : Bool
  strict : Bool
  /-- the prefill of R43 is complete. -/
  prefilled : Bool := false
  /-- the first period has begun (R231). -/
  started : Bool := false
  /-- entries of the run: the one playing first, the one being fetched last. -/
  ents : List Entry := []
  /-- the run goes on at this segment, whose descriptor has not arrived (R253, R254). -/
  await : Option Nat := none
  /-- the run cannot be fetched further: it ends after the entries held. -/
  closed : Bool := false
  /-- the descriptor line of the next entry was uncorrectable (R254). -/
  descLost : Bool := false
  /-- play position: pass, vector in the pass, period of the vector (0 = none begun). -/
  pass : Nat := 0
  pos : Nat := 0
  rep : Nat := 0
  /-- the vector now playing and its attached bits. -/
  vec : BitVec 144 := 0
  twBits : BitVec 32 := 0
  dpBits : BitVec 32 := 0
  /-- the pins whose DP a raster output serves. -/
  dpOn : BitVec 32 := 0
  idx : Nat := 0
  /-- vectors played so far. -/
  played : Nat := 0
  /-- holding for a starvation or a jump gap (R263, R264). -/
  holding : Bool := false
  gap : Bool := false
  /-- MLOOP: passes with a fail on the site's pins; cut requested by a verdict (R266). -/
  failPasses : List Nat := []
  verdicts : Nat := 0
  cut : Bool := false
  matched : Bool := false
  /-- results (R107, R235). -/
  fail : Bool := false
  flagged : Bool := false
  early : Bool := false
  /-- playing has ended with this cause; trailing strobes may remain (R233). -/
  ended : Option Nat := none
  /-- a stop is requested for the next vector boundary, with its end cause. -/
  stopReq : Option Nat := none
  /-- an end at the next period boundary, with its cause (R54, R237). -/
  halt : Option Nat := none
  /-- Twill: g and the operation last applied in the burst (R267, R268). -/
  g : Nat := 0
  lastOp : Nat := 0
  /-- records of types 0 and 1 offered, and not logged (R244). -/
  offered : Nat := 0
  unlogged : Nat := 0
  deriving DecidableEq, Repr

/-- A segment resident in the loop window (R256). -/
structure WinSeg where
  seg : Nat
  desc : Desc
  lines : List (BitVec 512)
  deriving DecidableEq, Repr

/-- A refill request in flight: the Reed time of its issue, and whether its line is still wanted (R47, R255, R257). -/
structure Req where
  t : BitVec 48
  want : Bool
  deriving DecidableEq, Repr

/-- Trims of the cores, the looms and the balls (R462). -/
structure TrimSet where
  core : Tab (BitVec 32)
  loom : Tab (BitVec 32)
  desk : Tab (BitVec 32)
  deriving DecidableEq, Repr

/-- The pattern path of a loom beside its registers. -/
structure Pat where
  burst : Option Burst := none
  serial : Nat := 0
  /-- contexts whose start waits for the running burst, in order of issue (R106). -/
  startQ : List Nat := []
  sched : List Sched := []
  /-- local time in taps at the start of the current period, and close of each pin's last interval (R234). -/
  now : Nat := 0
  lastClose : Tab Nat := []
  /-- length, in taps, of the period of the last vector played (R265). -/
  lastPeriod : Nat := 0
  /-- timing sets: staged and active slots, and the copy a pending commit holds (R227, R230). -/
  staged : Tab (BitVec 32) := []
  active : Tab (BitVec 32) := []
  commit : Option (Tab (BitVec 32)) := none
  /-- path delays that a running burst uses until its next vector boundary, after a commit of others (R467). -/
  trims : Option TrimSet := none
  window : List WinSeg := []
  /-- loads of the loop window: the first is in progress (R259). -/
  loads : List Nat := []
  /-- the outgoing queue of the fail log, and the records of the line being packed (R244). -/
  queue : List LogRec := []
  packed : List LogRec := []
  /-- type 0 records written to the ring, by burst × 1024 + site (R245). -/
  siteFails : Tab Nat := []
  /-- bursts ended whose records are not all written or lost, oldest first. -/
  pendCount : List Nat := []
  /-- refill line requests in flight, oldest first (R47, R255). -/
  reqs : List Req := []
  /-- descriptor fetches in flight, oldest first: the segment, where the run still awaits it (R37, R40, R253). -/
  descs : List (Option Nat) := []
  /-- the present service window: refill lines that arrived in it, and those of them that R47 counts in L. -/
  arrived : Nat := 0
  arrivedDue : Nat := 0
  /-- the end of the last service window (R47). -/
  winEnd : Option (BitVec 48) := none
  /-- the Reed tick of the last STOP taken (R106, R618). -/
  stopAt : Option (BitVec 48) := none
  deriving DecidableEq, Repr

/-- A waveform descriptor (R276). -/
structure WDesc where
  start : Nat := 0
  length : Nat := 0
  loops : Nat := 0
  last : Bool := false
  next : Nat := 0
  deriving DecidableEq, Repr

/-- A waveform source beside its registers (R273 to R289). -/
structure Wfm where
  strict : Bool := false
  /-- prefill is complete, and the schedule stands (R281, R282). -/
  ready : Bool := false
  /-- next output instant and period, in units of 1.25 ns; step and position with 24 fraction bits. -/
  instant : Nat := 0
  period : Nat := 0
  step : Nat := 0
  p : Nat := 0
  /-- stream samples held: `base` is the index of the first of `buf`. -/
  base : Nat := 0
  buf : List Int := []
  first : Int := 0
  /-- the descriptor being fetched, its pass and sample; none: the address of the next is in `nextDesc`. -/
  cur : Option WDesc := none
  fPass : Nat := 0
  fIdx : Nat := 0
  nextDesc : Option Nat := none
  /-- total samples of the run, once its end is known. -/
  total : Option Nat := none
  /-- stream index at which a bad descriptor, or a lost line, begins. -/
  badAt : Option Nat := none
  lostAt : Option Nat := none
  badAddr : Nat := 0
  /-- cause 3 or 4 that ends the run at the next output instant. -/
  endReq : Option Nat := none
  deriving DecidableEq, Repr

/-- A capture descriptor (R296). -/
structure CapDesc where
  ring : Nat := 0
  ringLines : Nat := 0
  cls : Nat := 0
  reduce : Bool := false
  queue : Bool := false
  lanes : Nat := 0
  pre : Nat := 0
  post : Nat := 0
  captures : Nat := 0
  lane : List (BitVec 8) := []
  interval : Nat := 0
  div : Nat := 0
  occ : Nat := 0
  trig : BitVec 32 := 0
  record : Nat := 0
  deriving DecidableEq, Repr

/-- A frame between its instant and the outgoing queue (R305, R311): instant in taps, its bytes, its place among frames of
one instant (R295), and whether it was dropped and only its slot passes. -/
structure Frame where
  t : Nat
  bytes : List (BitVec 8)
  key : Nat := 0
  gone : Bool := false
  deriving DecidableEq, Repr

/-- A trigger: its source code in the record (R312) and its placement in taps. -/
structure Trig where
  src : Nat
  place : Nat
  deriving DecidableEq, Repr

/-- A capture unit beside its registers (R291 to R312). -/
structure Cap where
  desc : CapDesc := {}
  /-- frames in the hold, oldest first (R305). -/
  hold : List Frame := []
  /-- no frame is recorded before this instant, in taps (R299, R307). -/
  from_ : Nat := 0
  /-- frames given a slot in the present capture, and those of them that a drop skipped. -/
  written : Nat := 0
  slotTime : Tab Nat := []
  /-- the acting trigger; the trigger frame and the frames written from it on. -/
  trig : Option Trig := none
  /-- placement that selects the trigger frame (for a held trigger, the end of the busy time). -/
  trigFrom : Nat := 0
  trigFrame : Option Nat := none
  validPre : Nat := 0
  postDone : Nat := 0
  /-- of those, the ones not dropped (R312). -/
  postWritten : Nat := 0
  wasQueued : Bool := false
  held : Option Trig := none
  seen : Nat := 0
  /-- source events on their way to the unit, with their placements in taps (R305). -/
  pend : List (TrigEvent × Nat) := []
  lost : Nat := 0
  dropped : Nat := 0
  laneInvalid : Bool := false
  exchange : Bool := false
  /-- reduction in progress: samples taken, minima and maxima by lane (R292). -/
  redN : Nat := 0
  redMin : Tab Int := []
  redMax : Tab Int := []
  /-- a disarm, drain or quarantine met a capture whose last frame had passed: the sequence ends when its record is closed (R309). -/
  quit : Bool := false
  /-- when the last disarm, drain or quarantine came, in taps (R308). -/
  endAt : Option Nat := none
  /-- a core exchange has met the re-arming: it goes into the next record (R293). -/
  exchNext : Bool := false
  /-- the record to close, with its end cause (R309). -/
  closing : Option Nat := none
  /-- number of the next sample instant; last frame instant of a Mill or event sequence. -/
  nextK : Nat := 0
  lastT : Nat := 0
  deriving DecidableEq, Repr

/-- An edge on its way to the timestamper of input B (or A), at a time in taps (R316, R317). -/
structure TEdge where
  b : Bool
  rising : Bool
  t : Nat
  deriving DecidableEq, Repr

/-- A sample of a time measurement engine: its start, its end, its value, and the inputs of its start and end edges. -/
structure TSample where
  start : Nat
  stop : Nat
  val : Int
  inS : Option Bool
  inE : Option Bool
  deriving DecidableEq, Repr

/-- The sums over the samples counted (R323). -/
structure TSums where
  n : Nat := 0
  sum : Int := 0
  sumsq : Int := 0
  min : Int := 0
  max : Int := 0
  last : Int := 0
  deriving DecidableEq, Repr

/-- A time measurement engine beside its registers (R315 to R327). Times are in taps. -/
structure Tme where
  /-- samples that no exchange can discard any more, and those that ended less than 100 ns ago, oldest first (R327). -/
  base : TSums := {}
  recent : List TSample := []
  /-- only events at or after entry to RUN start samples (R322). -/
  runFrom : Nat := 0
  /-- the sample in progress: its start, and its A edges so far: count, first, second, last. -/
  start : Option Nat := none
  edges : Nat := 0
  t0 : Nat := 0
  t1 : Nat := 0
  tl : Nat := 0
  /-- the previous sample's start, and its end (R319). -/
  prevStart : Option Nat := none
  prevEnd : Nat := 0
  /-- last edge of inputs A and B (R317), and the last qualifying edge timestamped on B. -/
  lastA : Option Nat := none
  lastB : Option Nat := none
  lastQ : Option Nat := none
  /-- the last qualifying edge timestamped on A. -/
  lastQA : Option Nat := none
  /-- edges of the sources of the two inputs, oldest first, not yet timestamped (R316). -/
  feed : List TEdge := []
  /-- the start edge of the sample in progress lies within 100 ns of an exchange of its channel (R327). -/
  tainted : Bool := false
  /-- the last core exchange of the channels of inputs A and B (R327). -/
  exchA : Option Nat := none
  exchB : Option Nat := none
  /-- a drain waits for the sample in progress (R326). -/
  draining : Bool := false
  /-- an arm was accepted, and WAIT_START is not reached yet (R321). -/
  arming : Bool := false
  /-- snapshots by port: count, mean, deviation, least, greatest and last (R324). -/
  snaps : Tab (List Nat) := []
  deriving DecidableEq, Repr

/-- An address generator of a Mill (R330). -/
structure Ag where
  base : Nat := 0
  length : Nat := 32768
  index : Nat := 0
  step : Int := 1
  mod : Int := 0
  deriving DecidableEq, Repr

/-- A hardware loop level of a Mill (R342): remaining count, first and last operation of the body. -/
structure MLoop where
  count : Nat
  first : Nat
  last : Nat
  deriving DecidableEq, Repr

/-- What a WAITING Mill waits for (R343, R344). -/
inductive MWaitK where
  | none
  | waitin (all : Bool) (slot n : Nat)
  | grd (g upd n : Nat)
  | gsync
  deriving DecidableEq, Repr

/-- A Mill (R330 to R352). -/
structure Mill where
  a : Int := 0
  v : Tab (BitVec 24) := []
  z : Bool := false
  neg : Bool := false
  ags : Tab Ag := []
  loop0 : Option MLoop := none
  loop1 : Option MLoop := none
  gaddr : Nat := 0
  pc : Nat := 0
  steps : Nat := 0
  /-- 0 IDLE, 1 LOADING, 2 RUNNING, 3 WAITING (R349). -/
  state : Nat := 0
  wait : MWaitK := .none
  cause : Nat := 0
  sat : Bool := false
  accSat : Bool := false
  inDrop : Bool := false
  outDisc : Bool := false
  exchange : Bool := false
  calBus : Bool := false
  code : Nat := 0
  /-- data memory and program memory. -/
  dm : Tab (BitVec 24) := []
  pm : Tab (BitVec 24) := []
  /-- data words that hold an error, and operations that hold a parity error (R333). -/
  dmErr : Tab Ecc := []
  pmErr : Tab Bool := []
  /-- the lane configuration (R336, R347). -/
  mask : BitVec 34 := 0
  inBase : Nat := 0
  lg : Nat := 0
  hist : Nat := 0
  /-- samples written to each slot's ring since the start, and those not yet consumed (R338). -/
  row : Tab Nat := []
  avail : Tab Nat := []
  /-- conversions on their way to memory, oldest first: source and code (R338). -/
  feed : List (Nat × BitVec 24) := []
  /-- the kernel has ended and waits for its posted writes to complete (R350); Granary writes posted. -/
  ended : Bool := false
  posted : Nat := 0
  /-- the GWR at the PC waits for its credits (R39, R344). -/
  ask : Option (BitVec 19) := none
  /-- contexts whose MSTART or MLOAD waits for IDLE, in order of issue (R348). -/
  queue : List Nat := []
  /-- the image being loaded: its address and context. -/
  load : Option (Nat × Nat) := none
  deriving DecidableEq, Repr

/-- A layer descriptor of a raster output (R364). -/
structure Layer where
  addr : Nat := 0
  width : Nat := 0
  height : Nat := 0
  x : Nat := 0
  y : Nat := 0
  stride : Nat := 0
  en : Bool := false
  fmt : Nat := 0
  alpha : Nat := 0
  ca : Nat := 255
  deriving DecidableEq, Repr

/-- The timing set of a raster output (R361, R362). -/
structure Tim where
  ha : Nat := 64
  hf : Nat := 8
  hs : Nat := 8
  hb : Nat := 8
  va : Nat := 64
  vf : Nat := 1
  vs : Nat := 1
  vb : Nat := 1
  deriving DecidableEq, Repr

/-- A fetch of a line of pixel data (R370): layer, active row, line in the row, the line in the Granary, and the address of the
buffer that it reads. -/
structure PixReq where
  layer : Nat
  row : Nat
  k : Nat
  line : Nat
  buf : Nat
  deriving DecidableEq, Repr

/-- A raster output beside its registers (R357 to R373). -/
structure Rast where
  act : Tim := {}
  pend : Option Tim := none
  layers : Tab Layer := []
  pendL : Option (Tab Layer) := none
  slot : Nat := 0
  line : Nat := 0
  /-- a drain has reached the end of its frame (R372); the layers that were latched then have been retired. -/
  drained : Bool := false
  /-- the pins of a drained output have begun their ramps (R372). -/
  ramped : Bool := false
  /-- timing and layer slots whose last write set a reserved bit, by offset in the block (reason 9 of R362 and R364). -/
  rsv : Tab Bool := []
  /-- bits attached and not yet taken by a vector, oldest first: one bit per pin (R359). -/
  bits : List (BitVec 32) := []
  /-- line buffers: 64-byte lines fetched for layer l and row y, by (l × 4096 + y) × 512 + line (R370). -/
  lines : Tab (Option (BitVec 512)) := []
  /-- fetches asked for and not yet arrived, oldest first, and those whose data is no longer used. -/
  want : List PixReq := []
  old : List PixReq := []
  /-- buffers, by layer and address, that retire once every read of them has completed (R368). -/
  retiring : List (Nat × Nat) := []
  deriving DecidableEq, Repr

/-- What an update of a site's result record does (R142): it sets status bits at time `t`, notes a parked context,
or adds fails. -/
inductive SiteUpd where
  | status (mask t : Nat)
  | park (c : Nat) (w : BitVec 24)
  | fails (k : Nat)
  deriving DecidableEq, Repr

/-- What waits, to be carried out when it is served: a command, or an update of the result record of a site. -/
inductive Ask where
  | cmd (i : Instr)
  | site (i : Nat) (u : SiteUpd)
  deriving DecidableEq, Repr

/-- A request that waits in its order of arrival for a credit of its partition (R33, R39), or on the register bus (R626). -/
structure Held where
  ask : Ask
  q : Partition
  /-- the context whose instruction waits. -/
  ctx : Option Nat := none
  /-- an access of this master to the register bus, behind which its later ones wait. -/
  bus : Option Master := none
  deriving DecidableEq, Repr

/-- The Granary and its controller beside the registers (R375 to R383). -/
structure Gran where
  /-- bytes, in the canonical form of Memory.wf; an unlisted byte is 0 (R377). -/
  cells : List Host.Cell := []
  /-- 32-byte halves (2 × line + half) that hold an error (R380). -/
  bad : Tab Ecc := []
  trained : Bool := false
  /-- the revisit queue, oldest first, at most 16 (R380). -/
  revisit : List Nat := []
  deriving DecidableEq, Repr

/-- A DMA engine beside its registers (R404 to R412). -/
structure Dma where
  /-- descriptors fetched and not yet completed, oldest first; none: the fetch failed (code 7). -/
  fetched : List (Option (BitVec 256)) := []
  /-- the descriptor in progress has ended its data with this code. -/
  code : Option Nat := none
  /-- PROGRESS shows the bytes of a descriptor that ended in error before HEAD (R412). -/
  stale : Bool := false
  /-- the drain found no descriptor in progress: none starts before the next enable (R409, R411). -/
  parked : Bool := false
  /-- the bytes last posted to host memory: address and byte. -/
  posted : List (Nat × BitVec 8) := []
  /-- the No Snoop attribute of the host data requests made last (R405). -/
  noSnoop : Bool := false
  /-- skips that wait until requests to the host may leave, by their masters, oldest first (R390, R410). -/
  skips : List Master := []
  deriving DecidableEq, Repr

/-- The PCIe function beside the registers (R385 to R400). -/
structure Pcie where
  bme : Bool := false
  d3 : Bool := false
  msixEn : Bool := false
  msixMaskAll : Bool := false
  /-- MSI-X table words, by 4 × vector + word; reset masks every vector (word 3 = 1). -/
  table : Tab (BitVec 32) := []
  /-- pending bits, and messages sent on each vector. -/
  pba : Tab Bool := []
  sent : Tab Nat := []
  /-- what the host has written to configuration registers, by doubleword (R386, R387). -/
  cfg : Tab (BitVec 32) := []
  /-- the answer to the last configuration request: none is Request Retry Status. -/
  rsp : Option (BitVec 32) := none
  /-- the answer to the last BAR2 read: bytes and the poisoned bit. -/
  bar2 : List (BitVec 8) := []
  poison : Bool := false
  deriving DecidableEq, Repr

/-- A frame that waits in a lane queue of the root (R420): kind 1 EVENT, 2 SYNC, 3 POLL, 4 DELAY. -/
structure LaneFrame where
  kind : Nat
  code : BitVec 8
  aux : BitVec 8
  data : BitVec 32
  deriving DecidableEq, Repr

/-- An EVENT that waits for its act time (R428). -/
structure ReedAct where
  act : BitVec 48
  lane : Bool
  code : BitVec 8
  stamp : BitVec 48
  deriving DecidableEq, Repr

/-- An echo round of the root (R423). -/
structure EchoRound where
  initial : Bool
  next : Nat
  replies : Nat
  /-- slots polled that have not answered yet. -/
  out : List Nat
  deriving DecidableEq, Repr

/-- A SEND, or a frame for a lane queue, that waits for a credit (R33, R420, R427): the context of the SEND, its event code, its
lane, and the frame that the root relays or sends of its own. -/
structure SendWait where
  ctx : Nat
  code : BitVec 8
  lane : Bool
  frame : Option LaneFrame := none
  deriving DecidableEq, Repr

/-- The Reed interface beside its registers (R414 to R431). -/
structure Reed where
  time : BitVec 48 := 0
  /-- whether the count has begun (R426). -/
  counting : Bool := false
  lane0 : List LaneFrame := []
  lane1 : List LaneFrame := []
  /-- frames last emitted on lanes 0 and 1, and last launched on the uplink. -/
  out0 : Option (BitVec 64) := none
  out1 : Option (BitVec 64) := none
  outUp : Option (BitVec 64) := none
  /-- uplink queue of a member: code, lane and Reed time of the SEND (R427). -/
  upq : List (BitVec 8 × Bool × BitVec 48) := []
  /-- what waits for a credit of the uplink queue or of a lane queue, oldest first. -/
  sendWait : List SendWait := []
  acts : List ReedAct := []
  /-- delay: target of a slew, in taps; offset of Reed time still to slew, in taps (R424, R425). -/
  dTarget : Int := 0
  hasDelay : Bool := false
  tOffset : Int := 0
  /-- taps by which the ticks of Reed time lie off those of the clock (R424, R425). -/
  tapsOff : Int := 0
  synced : Bool := false
  afterHold : Bool := false
  resync : Bool := false
  round : Option EchoRound := none
  /-- a background POLL waits to be answered in the member's next uplink slot, and uplink events held until. -/
  pollWait : Bool := false
  holding : Bool := false
  holdUntil : BitVec 48 := 0
  /-- Reed time at which the clock was polled last. -/
  pollAt : BitVec 48 := 0
  /-- Reed times of the last uplink slot and of the last SYNC that were used. -/
  slotAt : Option (BitVec 48) := none
  syncAt : Option (BitVec 48) := none
  deriving DecidableEq, Repr

/-- A page fill of the XIP cache (R442, R443). -/
structure Fill where
  page : Nat
  second : Bool
  /-- the access that caused it: context, and whether it was a fetch. -/
  ctx : Nat
  fetch : Bool
  deriving DecidableEq, Repr

/-- A transaction on the flash port (R435, R437): whether it is a cache fill, the select asserted, the command and address bytes
in the order sent, the dummy cycles, and the data bytes that follow where it writes. -/
structure FlashTx where
  fill : Bool
  sel : Bool
  head : List (BitVec 8)
  dummy : Nat
  data : List (BitVec 8) := []
  deriving DecidableEq, Repr

/-- The flash port beside its registers (R435 to R445). -/
structure Flash where
  /-- the one transaction in progress (R437). -/
  run : Option FlashTx := none
  /-- the direct command in progress: its FL_CMD word, address, buffer byte address and data to write. -/
  cmd : Option (BitVec 32 × BitVec 32 × Nat × List (BitVec 8)) := none
  /-- the read of a write buffer waits for the Granary (R377, R438). -/
  unread : Bool := false
  fills : List Fill := []
  /-- cached pages, most recently used first, at most 16 (R442). -/
  cache : List (Nat × BitVec 32768) := []
  hash : Tab (BitVec 256) := []
  deriving DecidableEq, Repr

/-- A read of a board port frame (R450, R451): its slot (none: past its block), the value, whether the value was sent, and
what each RC field of the slot would hold if this read had cleared it, by `Fld.key`. -/
structure BpRead where
  addr : Option Nat
  val : BitVec 32
  sent : Bool
  since : Tab Nat := []
  deriving DecidableEq, Repr

/-- The board port beside its registers (R446 to R454). -/
structure Bp where
  active : Bool := false
  startHigh : Bool := false
  reads : List BpRead := []
  /-- the words of the frame on BP_DOUT, as far as they are fixed: the status, the turnaround words, and the slot data (R449). -/
  dout : List (BitVec 24) := []
  /-- a word of the frame has been repeated (R450). -/
  under : Bool := false
  /-- writes of accepted frames that remain to be applied: slot address and value, oldest first. -/
  writes : List (Nat × BitVec 32) := []
  deriving DecidableEq, Repr

/-- An exchange of a ball pair between cores (R477, R479, R554), asked for or in progress. -/
structure Exch where
  k : Nat
  dest : Nat
  /-- 0 rolling, 1 full calibration, 2 sparing. -/
  why : Nat
  deriving DecidableEq, Repr

/-- A rolling cycle, or a core at work in a full calibration, of one loom (R470, R476, R477). -/
structure CalCore where
  /-- core under calibration, and the stand-in with the ball pair it serves. -/
  j : Nat
  stand : Option (Nat × Nat)
  /-- 0 to be exchanged out, 1 on the bus, 2 to be returned. -/
  stage : Nat
  rolling : Bool
  skipCommit : Bool := false
  /-- the core for whose cycle this free spare is calibrated first (R476). -/
  after : Option Nat := none
  deriving DecidableEq, Repr

/-- The calibration engine and its records beside the registers (R458 to R487). -/
structure Cal where
  coreS : Tab (BitVec 32) := []
  coreA : Tab (BitVec 32) := []
  loomS : Tab (BitVec 32) := []
  loomA : Tab (BitVec 32) := []
  deskS : Tab (BitVec 32) := []
  deskA : Tab (BitVec 32) := []
  /-- reference values of a load, pending until the next commit (R482). -/
  pendRef : Option (BitVec 32 × BitVec 32) := none
  /-- V_REF and R_REF as committed (R480). -/
  refV : BitVec 32 := 500000000
  refR : BitVec 32 := 10000000
  work : Tab (Option CalCore) := []
  /-- a full calibration waits for rolling cycles to complete: the master that asked for it (R469, R484). -/
  fullPend : Option Master := none
  /-- the running full calibration has been stopped, and its cores go back to their ball pairs (R472). -/
  stopping : Bool := false
  armed : Bool := false
  /-- looms whose ladder failed in the running full calibration (R471). -/
  ladderBad : List Nat := []
  timingBad : Bool := false
  /-- number of the next core of each loom in the core phase, in the order 32, 33, 0 to 31 (R470). -/
  nextCore : Tab Nat := []
  /-- Reed times at which each loom's last rolling cycle ended, and its last record of code 0x1D was made (R475, R484). -/
  lastCycle : Tab (Option (BitVec 48)) := []
  dueLog : Tab (Option (BitVec 48)) := []
  deriving DecidableEq, Repr

/-- A temperature sensor (R488, R489). -/
structure Sensor where
  /-- last reading, in units of 0.125 °C. -/
  temp : Int := 0
  /-- a conversion has been made since reset. -/
  valid : Bool := false
  faulty : Bool := false
  /-- consecutive updates that met the second condition of R489. -/
  diff : Nat := 0
  /-- consecutive updates without a conversion. -/
  silent : Nat := 0
  /-- the last update read at or above shutdown (R492). -/
  isOver : Bool := false
  deriving DecidableEq, Repr

/-- Temperature, governor and pauses beside the TH_ and PWR_ registers (R488 to R502). -/
structure Therm where
  sensors : Tab Sensor := []
  /-- Reed time of the last record of code 0x06 (R492). -/
  warnLog : Option (BitVec 48) := none
  /-- Reed time from which TEMP_MAX has been below resume (R502). -/
  coolSince : Option (BitVec 48) := none
  /-- that second has passed (R502). -/
  cooled : Bool := false
  /-- bits 0 to 23: looms whose T_loom throttles their shuttle; bits 24 to 39: sensors 48 to 63 that throttle all (R492). -/
  hot : Nat := 0
  /-- consecutive updates on which the power-trip condition held (R497). -/
  trip : Nat := 0
  /-- end t + P of the running pause of each shuttle, plus 1; 0: none (R493). -/
  pauseEnd : Tab Nat := []
  /-- Reed time of the start of the last pause interval (R493). -/
  pauseAt : Option (BitVec 48) := none
  /-- the cause of the shutdown in progress: 0 temperature, 1 power trip (R501). -/
  haltCause : Nat := 0
  deriving DecidableEq, Repr

/-- A record that waits in the queue of the log (R504, R506). -/
structure LogEntry where
  code : Nat
  data : Nat
  time : BitVec 48
  deriving DecidableEq, Repr

/-- What the lifetime counters have gained since their last update (R508). -/
structure LifeDelta where
  releases : Nat := 0
  halts : Nat := 0
  trips : Nat := 0
  faults : Nat := 0
  dropped : Nat := 0
  maxTemp : Option Int := none
  warn : Bool := false
  deriving DecidableEq, Repr

/-- The non-volatile log (R503 to R508). -/
structure NvLog where
  /-- MRAM bytes below 0x8000 and from 0x8100; an unlisted byte is 0. -/
  mram : Tab Byte := []
  /-- records waiting, oldest first; at most 32, but for the records of R506 that wait for room. -/
  queue : List LogEntry := []
  waiting : List LogEntry := []
  /-- slot and sequence number of the next record (R504): one after the newest in the MRAM. -/
  slot : Nat := 0
  seq : BitVec 32 := 0
  life : LifeDelta := {}
  deriving DecidableEq, Repr

/-- A bank of a control store: what it holds (0 base, 1 slot A, 2 slot B, 3 empty) and the version of a slot's
content (R515, R516); the version of the base is Config.romVersion. -/
structure Bank where
  src : Nat
  ver : BitVec 24
  deriving DecidableEq, Repr

/-- A patch slot of the golden image (R516, R523). -/
structure PatchSlot where
  full : Bool := false
  ver : BitVec 24 := 0
  bytes : List Byte := []
  deriving DecidableEq, Repr

/-- A refill of an active bank in progress (R518, R519, R530). -/
structure Refill where
  ctx : Nat
  /-- the instruction met its second machine check, or its second mismatch. -/
  second : Bool
  /-- a mismatch of sure mode, and not a machine check. -/
  sure : Bool
  deriving DecidableEq, Repr

/-- The control store of one shuttle (R515 to R531). -/
structure Store where
  act : Bank := ⟨0, 0⟩
  shd : Bank := ⟨3, 0⟩
  /-- swap pending, and the Reed time at which it is given up (none: no limit). -/
  pend : Bool := false
  limit : Option (BitVec 48) := none
  /-- Reed times of machine checks and mismatches in the window (R531). -/
  errs : List (BitVec 48) := []
  sure : Bool := false
  refill : Option Refill := none
  /-- the instruction being retried: its context, and whether it has met a machine check, and a mismatch. -/
  retry : Option (Nat × Bool × Bool) := none
  /-- the address at which that instruction enters its sequence of microwords (R514). -/
  entry : Option (BitVec 12) := none
  /-- machine checks and mismatches since reset, at most 0xFFFF (R534). -/
  total : Nat := 0
  deriving DecidableEq, Repr

/-- Microcode beside the UCODE_ registers (R511 to R534). -/
structure Ucode where
  stores : Tab Store := []
  slotA : PatchSlot := {}
  slotB : PatchSlot := {}
  deriving DecidableEq, Repr

/-- Containment and sparing of one loom beside its registers (R541 to R555). -/
structure Contain where
  /-- Reed times of the loom errors in the window (R542). -/
  errs : List (BitVec 48) := []
  /-- a quarantine asked for and not yet begun, with its cause (R543). -/
  pend : Option Nat := none
  /-- exchanges that wait for their exchange point, oldest first, and the one moving (R551, R485). -/
  exch : List Exch := []
  moving : Option Exch := none
  /-- the pattern path is held under R237. -/
  lockHeld : Bool := false
  deriving DecidableEq, Repr

/-- Supplies (R573 to R578). -/
structure Supply where
  good : Bool := true
  /-- VCORE target in millivolts (R576). -/
  vcore : Nat := 750
  deriving DecidableEq, Repr

/-- The instructions of the TAP (R589). -/
inductive TapInstr where | extest | idcode | sample | clamp | highz | bypass
  deriving DecidableEq, Repr

/-- The TAP (R589 to R591). It is not reset by RESET_N. -/
structure Jtag where
  instr : TapInstr := .idcode
  /-- boundary cells as last sampled, and as preloaded. -/
  sampled : BitVec 43 := 0
  preload : BitVec 43 := 0
  deriving DecidableEq, Repr

/-- The attestation in progress (R609, R611): the reserved index of a report, none for a public key; the challenge
line as read; the line of the output. -/
structure Att where
  index : Option Nat
  challenge : Line
  line : Nat
  deriving DecidableEq, Repr

/-- Start-up and security beside the SEC_ registers (R594 to R616). -/
structure Boot where
  /-- RESET_N is low (R591). -/
  pinLow : Bool := false
  /-- the device is held in reset (R575, R596). -/
  held : Bool := true
  barredA : Bool := false
  barredB : Bool := false
  /-- the directory that VERIFY used: owner and Reed role (R600). -/
  dir : Option (Nat × Nat) := none
  fwDigest : BitVec 256 := 0
  fwVersion : BitVec 24 := 0
  /-- Reed time of the entry to FIRMWARE (R599). -/
  fwSince : BitVec 48 := 0
  att : Option Att := none
  deriving DecidableEq, Repr

/-- What a port of R18 and R19 holds. -/
structure PortState where
  /-- low slot last read of a wide quantity, and the value it snapped. -/
  snap : Option (Nat × Nat) := none
  /-- pending low word: low slot and value. -/
  low : Option (Nat × BitVec 32) := none
  /-- what the port last received from a slot. -/
  data : BitVec 32 := 0
  deriving DecidableEq, Repr

/-- The whole device but its queue of waiting commands. -/
structure Dev where
  /-- register fields by `Fld.key`; an unlisted field holds its reset value. -/
  regs : Tab Nat := []
  /-- states of the units that R51 drains, by `UnitId.key`. -/
  units : Tab UState := []
  /-- credits in use, and requests waiting for one, by `Partition.key` (R33, R37, R39). -/
  inUse : Tab Nat := []
  waitGran : Tab (List Held) := []
  /-- accesses to the register bus that wait behind an earlier one of their master, by its code (R33, R626). -/
  waitBus : Tab (List Held) := []
  /-- the waiting request that is being served: its credit is its own. The model's own field. -/
  serving : Option Held := none
  ports : Tab PortState := []
  gran : Gran := {}
  ctxs : Tab Ctx := []
  sites : Tab Site := []
  /-- channel map: site of each channel, plus 1,024 where it is mapped (R139, R145). -/
  chmap : Tab Nat := []
  /-- commands of CTX_CMD in progress or held, by master (R626). -/
  ctxCmd : List CtxCmd := []
  /-- lines of the instruction caches, by shuttle: line address and content, most recently filled first (R66), and the caches
  being invalidated. -/
  icache : Tab (List (Nat × Line)) := []
  icacheBusy : Tab Bool := []
  chans : Tab Chan := []
  mons : Tab MonSched := []
  pats : Tab Pat := []
  /-- staged words of the segment window, by 4 × master + slot (R270). -/
  segw : Tab (Option (BitVec 32)) := []
  wfms : Tab Wfm := []
  caps : Tab Cap := []
  tmes : Tab Tme := []
  mills : Tab Mill := []
  rasts : Tab Rast := []
  dmas : Tab Dma := []
  pcie : Pcie := {}
  reed : Reed := {}
  flash : Flash := {}
  bp : Bp := {}
  cal : Cal := {}
  therm : Therm := {}
  log : NvLog := {}
  ucode : Ucode := {}
  contain : Tab Contain := []
  supply : Supply := {}
  jtag : Jtag := {}
  boot : Boot := {}
  /-- a write of EVC_CTRL.run that waits for the next multiple of 65,536 ticks (R558). -/
  evcRun : Option Nat := none
  /-- within a slot write: none, or whether it has been refused, and for ownership (R97, R559). The model's own field. -/
  judging : Option (Option Bool) := none
  /-- count of free values taken so far: the model's own field, not the spec's. -/
  freeCtr : Nat := 0
  deriving DecidableEq, Repr

/-- The machine: the device, and the commands that wait, first in, first out. -/
structure State where
  dev : Dev := {}
  pending : List Instr := []
  deriving DecidableEq, Repr

/-- The machine right after reset, before RESET_RELEASE (R594 to R598). -/
def State.reset : State := {}

end Sys2Proof.Machine
end

