-- ==== Sys2Proof/WellFormed.lean ====
section
/-! DEFINITION. Which commands are well formed: the lists that reach the block have the lengths that the spec gives them,
and a BAR2 request lies in the Granary. `exec` faults by name on any other command. -/
namespace Sys2Proof

/-- The bytes of the Granary (R374). -/
def granBytes : Nat := 2 ^ 33

/-- How many bits of a word are 1. -/
def ones {w : Nat} (v : BitVec w) : Nat := (List.range w).countP (v.getLsbD ·)

/-- The results of a calibration phase: six taps of a loom's ladder; one value a loom for the timing phase, whose delay lines
have exactly 40 of their 42 segments selected where it passes (R463, R470, R471). -/
def phaseWf : PhaseRes → Bool
  | .check _ => true
  | .ladder _ _ taps _ => taps.length == 6
  | .timing ok offs lo hi =>
    offs.length == 24 && lo.length == 24 && hi.length == 24
      && (!ok || (List.range 24).all fun n => ones (lo.getD n 0) + ones ((hi.getD n 0).setWidth 10) == 40)
  | .cores => true

/-- The record of a core that has been measured: one that passes has exactly 64 cells selected (R463). -/
def coreRecWf (ok : Bool) (rec : List (BitVec 32)) : Bool :=
  rec.length == 32
    && (!ok || ones ((rec.getD 0 0).setWidth 24) + ones ((rec.getD 1 0).setWidth 24) + ones ((rec.getD 2 0).setWidth 24) == 64)

/-- One reading for each of the 64 sensors, in 16 bits (R488, R489). -/
def readingsWf (rs : List (Option Int)) : Bool :=
  rs.length == 64 && rs.all fun r => r.all fun t => decide (-32768 ≤ t) && decide (t < 32768)

/-- The command is well formed. -/
def Instr.wf : Instr → Bool
  | .registerWrite .. => true
  | .rcRegisterRead .. => true
  | .wideLowSlotRead .. => true
  | .unitEnable .. => true
  | .drainRequest .. => true
  | .drainComplete .. => true
  | .granaryLineAccess .. => true
  | .granaryTransactionComplete .. => true
  | .dramTrainingComplete .. => true
  | .granaryInitComplete .. => true
  | .scrubGroup .. => true
  | .scrubRevisit .. => true
  | .icacheLineFill .. => true
  | .add .. => true
  | .sub .. => true
  | .andI .. => true
  | .orI .. => true
  | .xorI .. => true
  | .mov .. => true
  | .cmp .. => true
  | .tst .. => true
  | .shl .. => true
  | .shr .. => true
  | .sar .. => true
  | .mul .. => true
  | .mulh .. => true
  | .mulhu .. => true
  | .notI .. => true
  | .neg .. => true
  | .minI .. => true
  | .maxI .. => true
  | .abs .. => true
  | .addi .. => true
  | .movi .. => true
  | .cmpi .. => true
  | .andi .. => true
  | .ori .. => true
  | .alea .. => true
  | .aadd .. => true
  | .ahi .. => true
  | .asite .. => true
  | .ardl .. => true
  | .ardh .. => true
  | .awl .. => true
  | .awh .. => true
  | .acmp .. => true
  | .ld .. => true
  | .st .. => true
  | .xadd .. => true
  | .br .. => true
  | .jmp .. => true
  | .call .. => true
  | .lseti .. => true
  | .lset .. => true
  | .lget .. => true
  | .lend .. => true
  | .waitd .. => true
  | .waitu .. => true
  | .waite .. => true
  | .spawn .. => true
  | .spawnl .. => true
  | .join .. => true
  | .self .. => true
  | .nop .. => true
  | .halt .. => true
  | .yield .. => true
  | .fence .. => true
  | .pause .. => true
  | .fclr .. => true
  | .tclr .. => true
  | .rdtime .. => true
  | .brk .. => true
  | .rdflg .. => true
  | .wrflg .. => true
  | .rdreg .. => true
  | .wrreg .. => true
  | .chanMode .. => true
  | .chanRange .. => true
  | .chanForce .. => true
  | .chanClamp .. => true
  | .chanLevel .. => true
  | .chanConn .. => true
  | .meas .. => true
  | .burst .. => true
  | .sjmp .. => true
  | .mloop .. => true
  | .stop .. => true
  | .arm .. => true
  | .disarm .. => true
  | .trig .. => true
  | .mload .. => true
  | .mstart .. => true
  | .mwait .. => true
  | .send .. => true
  | .recv .. => true
  | .undefinedInstruction .. => true
  | .queuedBurstStart .. => true
  | .contextRelease .. => true
  | .wakeTimeReached .. => true
  | .deadlineMiss .. => true
  | .pauseIntervalStart .. => true
  | .pauseIntervalEnd .. => true
  | .claim .. => true
  | .start .. => true
  | .resume .. => true
  | .park .. => true
  | .kill .. => true
  | .ctxCommandEnd .. => true
  | .parkTakesEffect .. => true
  | .contextWindowWrite .. => true
  | .siteWindowWrite .. => true
  | .siteMapWrite .. => true
  | .residenceMove .. => true
  | .quantumExpiry .. => true
  | .chanCtrlWrite .. => true
  | .forceCodeWrite .. => true
  | .clampSlotWrite .. => true
  | .huskFlagClear .. => true
  | .conversionInstant .. => true
  | .rampComplete .. => true
  | .settleTimeEnd .. => true
  | .huskOverstress .. => true
  | .huskShort .. => true
  | .huskOpen .. => true
  | .huskReversal .. => true
  | .boosterLoopSample .. => true
  | .boosterUpdateApply .. => true
  | .boosterRampPhaseEnd .. => true
  | .cmpEdge .. => true
  | .monitorTick .. => true
  | .monCtrlWrite .. => true
  | .monWinWrite .. => true
  | .selvedgePeriodBoundary .. => true
  | .burstPrefillComplete .. => true
  | .compareStrobe .. => true
  | .burstEnd .. => true
  | .failCountUpdate .. => true
  | .failLogLineWrite .. => true
  | .failLogFlushTimeout .. => true
  | .serviceWindowEnd .. => true
  | .refillLineArrives .. => true
  | .pllLockLoss .. => true
  | .dllLockLoss .. => true
  | .lockAcquired .. => true
  | .tsetCommit .. => true
  | .tsetWindowWrite .. => true
  | .flogCtrlWrite .. => true
  | .segmentDescriptorWrite .. => true
  | .segtWinStageWrite .. => true
  | .segtWin3Write .. => true
  | .segtBaseWrite .. => true
  | .descriptorFetchComplete .. => true
  | .pinLoad .. => true
  | .pinFlush .. => true
  | .pinLoadComplete .. => true
  | .mloopVerdict .. => true
  | .twillWindowWrite .. => true
  | .wfmEnable .. => true
  | .wfmRateCommit .. => true
  | .wfmPrefillComplete .. => true
  | .wfmOutputInstant .. => true
  | .wfmSampleLineArrives .. => true
  | .capArmWrite .. => true
  | .capCmdTrig .. => true
  | .capCmdDisarm .. => true
  | .armingComplete .. => true
  | .captureSampleInstant .. => true
  | .triggerDecision .. => true
  | .captureFrameRelease .. => true
  | .rearmComplete .. => true
  | .captureRecordClose .. => true
  | .tmeCmdArm .. => true
  | .tmeCmdStop .. => true
  | .tmeArmComplete .. => true
  | .tmeStartTime .. => true
  | .tmeTimestamp .. => true
  | .tmeGateClose .. => true
  | .tmeSampleTimeout .. => true
  | .millCmdStart .. => true
  | .millCmdStop .. => true
  | .queuedMillStart .. => true
  | .millImageLoaded .. => true
  | .millLaneSample .. => true
  | .spareConversion .. => true
  | .millNop .. => true
  | .millMac .. => true
  | .millMsu .. => true
  | .millMpy .. => true
  | .millAadd .. => true
  | .millAld .. => true
  | .millArd .. => true
  | .millAldm .. => true
  | .millAsav .. => true
  | .millVld .. => true
  | .millVst .. => true
  | .millVset .. => true
  | .millVseth .. => true
  | .millValu .. => true
  | .millVaddi .. => true
  | .millAgset .. => true
  | .millAgmod .. => true
  | .millAgmov .. => true
  | .millAgstep .. => true
  | .millJmp .. => true
  | .millLoop .. => true
  | .millWaitin .. => true
  | .millGadr .. => true
  | .millGwr .. => true
  | .millGrd .. => true
  | .millGrdComplete .. => true
  | .millGsync .. => true
  | .millTrig .. => true
  | .millHalt .. => true
  | .millUndefinedOperation .. => true
  | .millIdle .. => true
  | .millWindowWrite .. => true
  | .timCommit .. => true
  | .layerCommit .. => true
  | .rasterSlot .. => true
  | .pixelLineArrives .. => true
  | .bar2Read addr len => decide (addr.toNat + len ≤ granBytes)
  | .bar2Write addr bytes be => decide (addr.toNat + bytes.length ≤ granBytes) && bytes.length == be.length
  | .pcieConfigRequest .. => true
  | .cfgCommit .. => true
  | .pcieConventionalReset .. => true
  | .hotReset .. => true
  | .linkDown .. => true
  | .functionLevelReset .. => true
  | .busMasterEnableChange .. => true
  | .msixUnmask .. => true
  | .irqSwSet .. => true
  | .dmaTailWrite .. => true
  | .dmaDescriptorFetched .. => true
  | .dmaHostCompletion .. => true
  | .dmaDescriptorComplete .. => true
  | .dmaSkip .. => true
  | .dmaResetRing .. => true
  | .reedEnable .. => true
  | .reedDisable .. => true
  | .reedResync .. => true
  | .echoNow .. => true
  | .delayTrimWrite .. => true
  | .clockCleanerLock .. => true
  | .reedClockLoss .. => true
  | .eventFrame .. => true
  | .syncFrame .. => true
  | .pollFrame .. => true
  | .delayFrame .. => true
  | .upEvent .. => true
  | .reply .. => true
  | .reedFrameEmit .. => true
  | .syncEmission .. => true
  | .echoPollTimer .. => true
  | .backgroundEchoRound .. => true
  | .uplinkSlot .. => true
  | .reedEventAct .. => true
  | .delaySlewStep .. => true
  | .flashDirectCommand .. => true
  | .flashTransactionComplete .. => true
  | .flashDqsTimeout .. => true
  | .xipCacheFillComplete .. => true
  | .flXipWrite .. => true
  | .boardPortFrameStart .. => true
  | .boardPortWordRead .. => true
  | .boardPortFrameEnd din rising _ _ => din.length == rising / 24
  | .boardPortWriteApply .. => true
  | .calFull .. => true
  | .calStop .. => true
  | .calCommit .. => true
  | .calDiscard .. => true
  | .calDump .. => true
  | .calLoad .. => true
  | .calRollEnable .. => true
  | .calTimeArm .. => true
  | .calTimeEdge .. => true
  | .calWindowWrite .. => true
  | .calPhaseComplete r => phaseWf r
  | .coreCalibrationComplete _ ok rec => coreRecWf ok rec
  | .rollingCycleStart .. => true
  | .coreExchange .. => true
  | .exchangeComplete .. => true
  | .calHashReady .. => true
  | .calDumpComplete .. => true
  | .calLoadComplete .. => true
  | .sensorUpdate readings => readingsWf readings
  | .powerUpdate .. => true
  | .safeStateRampsEnd .. => true
  | .safe .. => true
  | .clearSafe .. => true
  | .thermalAck .. => true
  | .resumeTimer .. => true
  | .logHostRecord .. => true
  | .logRecordWrite .. => true
  | .lifetimeHourUpdate .. => true
  | .machineCheck .. => true
  | .controlStoreRefillComplete .. => true
  | .sureModeMismatch .. => true
  | .ucodeLoad .. => true
  | .ucodeLoadComplete .. => true
  | .ucodeSwap .. => true
  | .swapAbort .. => true
  | .sureEnter .. => true
  | .sureExit .. => true
  | .shuttleSwap .. => true
  | .swapTimeout .. => true
  | .ownerWrite .. => true
  | .seize .. => true
  | .quarantineCommand .. => true
  | .dieHubLinkFailure .. => true
  | .quarantineBegin .. => true
  | .quarantineRelease .. => true
  | .contextStoreError .. => true
  | .spareOut .. => true
  | .spareReturn .. => true
  | .markFailed .. => true
  | .evcSourceWrite .. => true
  | .evcRunWrite .. => true
  | .evcSyncStart .. => true
  | .clearAll .. => true
  | .powerGood .. => true
  | .brownOut .. => true
  | .vhiVloBrownOut .. => true
  | .avsVcoreStep .. => true
  | .tapReset .. => true
  | .extest .. => true
  | .idcode .. => true
  | .samplePreload .. => true
  | .clamp .. => true
  | .highz .. => true
  | .bypass .. => true
  | .pinReset .. => true
  | .resetRelease .. => true
  | .internalResetRelease .. => true
  | .bootVerifyComplete .. => true
  | .bootWatchdogExpiry .. => true
  | .lock .. => true
  | .attest .. => true
  | .pubkey .. => true
  | .devReset .. => true
  | .ready .. => true
  | .attestComplete .. => true
  | .pubkeyComplete .. => true
  | .icacheInvalidateComplete .. => true
  | .reedBadFrame .. => true
  | .pcieLinkUp .. => true
  | .dieHubLinkRestored .. => true
  | .trimStoreError .. => true
  | .tmeCountSnapshotRead .. => true

end Sys2Proof
end

