-- ==== Sys2Proof/Machine/Ops.lean ====
section
/-! DEFINITION. The operations that every family shares: register fields, interrupts (R399, R400), event counters
(R556 to R559), the log queue (R506), ownership (R535, R536), unit states (R52), and the Granary (R378 to R382). -/
namespace Sys2Proof.Machine
open Sys2Proof

/-! Register fields. -/

/-- The value of a field in a register table. -/
def regRd (r : Tab Nat) (f : Fld) : Nat := Tab.get f.rst r f.key

/-- A register table with a field set; the value is cut to the field's width. -/
def regWr (r : Tab Nat) (f : Fld) (v : Nat) : Tab Nat := Tab.set f.rst r f.key (v % 2 ^ f.w)

/-- Reads a field. -/
def Dev.rd (d : Dev) (f : Fld) : Nat := regRd d.regs f

/-- Sets a field. -/
def Dev.wr (d : Dev) (f : Fld) (v : Nat) : Dev := { d with regs := regWr d.regs f v }

/-- Whether a field is nonzero. -/
def Dev.on (d : Dev) (f : Fld) : Bool := d.rd f != 0

/-- An RC field moves by `g`: so does what it would hold after each read that the board port has yet to accept (R451). -/
def Bp.seen (b : Bp) (f : Fld) (g : Nat → Nat) : Bp :=
  { b with reads := b.reads.map fun r =>
      if r.addr = some f.addr then { r with since := Tab.set 0 r.since f.key (g (Tab.get 0 r.since f.key)) } else r }

/-- A field moves by `g`. -/
def Dev.upd (d : Dev) (f : Fld) (g : Nat → Nat) : Dev :=
  (if f.acc = .rc then { d with bp := d.bp.seen f g } else d).wr f (g (d.rd f))

/-- Adds 1 to a count that stops at its highest value (RC counts, R15). -/
def Dev.bump (d : Dev) (f : Fld) : Dev := d.upd f (satInc f.w)

/-- Adds `k` to a count that stops at its highest value. -/
def Dev.bumpBy (d : Dev) (f : Fld) (k : Nat) : Dev := d.upd f fun v => min (v + k) (2 ^ f.w - 1)

/-- Raises a peak to at least `v` (R15). -/
def Dev.peak (d : Dev) (f : Fld) (v : Nat) : Dev := d.upd f (max · v)

/-! Event counters (R556 to R559). -/

/-- Adds `k` to a counter field, with its overflow bit (R556). -/
def evcAdd (r : Tab Nat) (f : Fld) (ovf : Fld) (i k : Nat) : Tab Nat :=
  let v := regRd r f + k
  let r := regWr r f v
  if 2 ^ 48 ≤ v then regWr r ovf (putBits (regRd r ovf) i 1 1) else r

/-- One global counter meets `k` occurrences of source `src` in loom `n` (R556, R557). -/
def evcGlobal (src n k i : Nat) (r : Tab Nat) : Tab Nat :=
  if bit (regRd r Reg.EVC_CTRL.run) i && regRd r (Reg.EVC_SEL.src i) == src && src != 0
      && (decide (0x80 ≤ src) || (decide (n < 24) && (regRd r (Reg.EVC_SEL.loom i) == 31 || regRd r (Reg.EVC_SEL.loom i) == n)))
  then evcAdd r (Reg.EVC.count i) Reg.EVC_STATUS.ovf i k else r

/-- One counter of loom `n` meets `k` occurrences of source `src`; nothing while the loom is quarantined (R557). -/
def evcLoom (src n k i : Nat) (r : Tab Nat) : Tab Nat :=
  if decide (src < 0x80) && src != 0 && decide (n < 24) && regRd r (Reg.LOOM.EVC_SEL.src n i) == src
      && regRd r (Reg.LOOM.QUAR.quarantined n) == 0
  then evcAdd r (Reg.LOOM.EVC.count n i) Reg.EVC_STATUS.lovf i k else r

/-- Counts `k` occurrences of source `src` (R559); `n` is the loom of a loom-scoped source. -/
def Dev.evcBy (d : Dev) (src n k : Nat) : Dev :=
  { d with regs := iter (evcLoom src n k) 4 (iter (evcGlobal src n k) 16 d.regs) }

/-- Counts one occurrence of source `src`. -/
def Dev.evc (d : Dev) (src n : Nat) : Dev := d.evcBy src n 1

/-! Interrupts (R399, R400). -/

/-- A cause of a vector: the flag bit, and the bit that enables it where it has one. -/
structure Cause where
  flag : Fld
  bit : Nat
  en : Option (Fld × Nat)
  deriving DecidableEq, Repr

/-- The causes of each vector (R399, R401, R402, R433, R443, R486, R510, R534, R561, R615). -/
def causesOf (v : Nat) : List Cause :=
  if v = 0 then
    [⟨Reg.GLB_STATUS.void_access, 0, some (Reg.GLB_STATUS_EN.en, 0)⟩,
     ⟨Reg.GLB_STATUS.lock_reject, 0, some (Reg.GLB_STATUS_EN.en, 1)⟩,
     ⟨Reg.GLB_STATUS.size_reject, 0, some (Reg.GLB_STATUS_EN.en, 2)⟩,
     ⟨Reg.GLB_STATUS.pcie_overrun, 0, some (Reg.GLB_STATUS_EN.en, 3)⟩,
     ⟨Reg.GLB_STATUS.bar2_early, 0, some (Reg.GLB_STATUS_EN.en, 4)⟩]
  else if v < 9 then
    [⟨Reg.DMA.CTRL_STAT.done (v - 1), 0, none⟩, ⟨Reg.DMA.CTRL_STAT.error (v - 1), 0, none⟩]
  else if v = 9 then
    [⟨Reg.GLB_GRAN_IRQ.ue, 0, some (Reg.GLB_GRAN_IRQ.ue_en, 0)⟩,
     ⟨Reg.GLB_GRAN_IRQ.ce_over, 0, some (Reg.GLB_GRAN_IRQ.ce_en, 0)⟩]
  else if v = 10 then
    [⟨Reg.TH_STATUS.warn_seen, 0, some (Reg.TH_IRQ_EN.en, 0)⟩,
     ⟨Reg.TH_STATUS.throttle_seen, 0, some (Reg.TH_IRQ_EN.en, 1)⟩,
     ⟨Reg.TH_STATUS.shutdown, 0, some (Reg.TH_IRQ_EN.en, 2)⟩,
     ⟨Reg.TH_STATUS.sensor_fault, 0, some (Reg.TH_IRQ_EN.en, 3)⟩,
     ⟨Reg.TH_STATUS.gov_max, 0, some (Reg.TH_IRQ_EN.en, 4)⟩]
  else if v = 11 then [⟨Reg.CTX_PARKED.new, 0, none⟩]
  else if v = 12 then
    [⟨Reg.GLB_ERR_STATUS.loom_err, 0, some (Reg.GLB_ERR_IRQ_EN.en, 0)⟩,
     ⟨Reg.GLB_ERR_STATUS.quar, 0, some (Reg.GLB_ERR_IRQ_EN.en, 1)⟩,
     ⟨Reg.GLB_ERR_STATUS.core_fail, 0, some (Reg.GLB_ERR_IRQ_EN.en, 2)⟩,
     ⟨Reg.GLB_ERR_STATUS.unspared, 0, some (Reg.GLB_ERR_IRQ_EN.en, 3)⟩,
     ⟨Reg.GLB_ERR_STATUS.gran_ue, 0, some (Reg.GLB_ERR_IRQ_EN.en, 4)⟩,
     ⟨Reg.GLB_ERR_STATUS.device_err, 0, some (Reg.GLB_ERR_IRQ_EN.en, 5)⟩]
  else if v = 13 then
    [⟨Reg.REED_IRQ.holdover, 0, some (Reg.REED_IRQ_EN.en, 0)⟩,
     ⟨Reg.REED_IRQ.unaligned, 0, some (Reg.REED_IRQ_EN.en, 1)⟩,
     ⟨Reg.REED_IRQ.late, 0, some (Reg.REED_IRQ_EN.en, 2)⟩,
     ⟨Reg.REED_IRQ.crc, 0, some (Reg.REED_IRQ_EN.en, 3)⟩,
     ⟨Reg.REED_IRQ.delay_jump, 0, some (Reg.REED_IRQ_EN.en, 4)⟩,
     ⟨Reg.REED_IRQ.sync_err, 0, some (Reg.REED_IRQ_EN.en, 5)⟩,
     ⟨Reg.REED_IRQ.send_drop, 0, some (Reg.REED_IRQ_EN.en, 6)⟩,
     ⟨Reg.REED_IRQ.round_done, 0, some (Reg.REED_IRQ_EN.en, 7)⟩,
     ⟨Reg.REED_IRQ.members_changed, 0, some (Reg.REED_IRQ_EN.en, 8)⟩]
  else if v = 14 then
    [⟨Reg.CAL_STATUS.done, 0, some (Reg.CAL_IRQ_EN.en, 0)⟩,
     ⟨Reg.CAL_STATUS.fail, 0, some (Reg.CAL_IRQ_EN.en, 1)⟩,
     ⟨Reg.CAL_STATUS.ref_bad, 0, some (Reg.CAL_IRQ_EN.en, 2)⟩,
     ⟨Reg.CAL_STATUS.time_bad, 0, some (Reg.CAL_IRQ_EN.en, 3)⟩,
     ⟨Reg.CAL_STATUS.due, 0, some (Reg.CAL_IRQ_EN.en, 4)⟩,
     ⟨Reg.CAL_STATUS.blocked, 0, some (Reg.CAL_IRQ_EN.en, 5)⟩,
     ⟨Reg.CAL_STATUS.load_reject, 0, some (Reg.CAL_IRQ_EN.en, 6)⟩]
  else if v = 15 then
    [⟨Reg.UCODE_STATUS.load_done, 0, some (Reg.UCODE_IRQ_EN.en, 0)⟩,
     ⟨Reg.UCODE_STATUS.load_reject, 0, some (Reg.UCODE_IRQ_EN.en, 1)⟩,
     ⟨Reg.UCODE_STATUS.swap_done, 0, some (Reg.UCODE_IRQ_EN.en, 2)⟩,
     ⟨Reg.UCODE_STATUS.swap_fail, 0, some (Reg.UCODE_IRQ_EN.en, 3)⟩,
     ⟨Reg.UCODE_STATUS.swap_timeout, 0, some (Reg.UCODE_IRQ_EN.en, 4)⟩,
     ⟨Reg.UCODE_STATUS.mc, 0, some (Reg.UCODE_IRQ_EN.en, 5)⟩,
     ⟨Reg.UCODE_STATUS.mc_fail, 0, some (Reg.UCODE_IRQ_EN.en, 6)⟩,
     ⟨Reg.UCODE_STATUS.sure_mismatch, 0, some (Reg.UCODE_IRQ_EN.en, 7)⟩,
     ⟨Reg.SEC_STATUS.att_done, 0, some (Reg.SEC_CTRL.irq_en, 0)⟩,
     ⟨Reg.SEC_STATUS.att_reject, 0, some (Reg.SEC_CTRL.irq_en, 1)⟩,
     ⟨Reg.SEC_STATUS.boot_fail, 0, some (Reg.SEC_CTRL.irq_en, 2)⟩,
     ⟨Reg.FL_STATUS.hash_fail, 0, none⟩]
  else if v < 40 then
    (List.range 13).map fun b =>
      ⟨⟨0x10000 + 0x100 * (v - 16) + 0xC0, b, 1, .w1c, 0⟩, 0, some (Reg.LOOM.IRQ_EN.en (v - 16), b)⟩
  else if v < 64 then [⟨Reg.GLB_IRQ_SW.cause, v - 40, none⟩]
  else []

/-- Whether a cause is enabled. -/
def Dev.causeEn (d : Dev) (c : Cause) : Bool :=
  match c.en with
  | none => true
  | some (f, i) => bit (d.rd f) i

/-- Whether a cause is set. -/
def Dev.causeSet (d : Dev) (c : Cause) : Bool := bit (d.rd c.flag) c.bit

/-- Whether a vector has an enabled cause set: its bit of GLB_IRQ_PEND (R403). -/
def Dev.pends (d : Dev) (v : Nat) : Bool := (causesOf v).any fun c => d.causeSet c && d.causeEn c

/-- The vector whose cause a flag bit is (R399). -/
def vectorOf (f : Fld) (i : Nat) : Option Nat :=
  if f.addr = 0x0C then some 0
  else if 0x100 ≤ f.addr ∧ f.addr < 0x200 then some (1 + (f.addr - 0x100) / 0x20)
  else if f.addr = 0x60 then some 9
  else if f.addr = 0x318 then some 10
  else if f.addr = 0x48C then some 11
  else if f.addr = 0x214 then some 12
  else if f.addr = 0x824 then some 13
  else if f.addr = 0x284 then some 14
  else if f.addr = 0x38C ∨ f.addr = 0x3C4 ∨ f.addr = 0x3E0 then some 15
  else if f.addr = 0x1C then some (40 + i)
  else if 0x10000 ≤ f.addr ∧ f.addr < 0x11800 ∧ f.addr % 0x100 = 0xC0 then some (16 + (f.addr - 0x10000) / 0x100)
  else none

/-- Whether a message may leave on vector `v` now (R390, R400). -/
def Pcie.mayPost (p : Pcie) (v : Nat) : Bool :=
  p.msixEn && !p.msixMaskAll && p.bme && !p.d3 && (Tab.get (1 : BitVec 32) p.table (4 * v + 3)).getLsbD 0 == false

/-- A message is requested on vector `v`: it leaves, or its pending bit is set (R390, R400). -/
def Pcie.request (p : Pcie) (v : Nat) : Pcie :=
  if p.mayPost v then { p with sent := Tab.set 0 p.sent v (Tab.get 0 p.sent v + 1) }
  else { p with pba := Tab.set false p.pba v true }

/-- Requests a message on vector `v` (R400). -/
def Dev.message (d : Dev) (v : Nat) : Dev :=
  if d.pcie.mayPost v then { d with pcie := d.pcie.request v }.evc 0x8C 24 else { d with pcie := d.pcie.request v }

/-- Sets bit `i` of a W1C field; an enabled cause that rises requests its message (R400). -/
def Dev.setBit (d : Dev) (f : Fld) (i : Nat) : Dev :=
  let d' := d.upd f (putBits · i 1 1)
  match vectorOf f i with
  | some v => if !bit (d.rd f) i && (causesOf v).any (fun c => decide (c.flag = f) && c.bit == i && d.causeEn c) then d'.message v else d'
  | none => d'

/-- Sets a one-bit flag. -/
def Dev.flag (d : Dev) (f : Fld) : Dev := d.setBit f 0

/-- Sets a cause of loom `n` (R401). -/
def Dev.irqLoom (d : Dev) (f : Nat → Fld) (n : Nat) : Dev := if n < 24 then d.flag (f n) else d

/-! The log queue (R506). -/

/-- The longest the log queue gets. -/
def logDepth : Nat := 32

/-- A record is made now (R504, R506). -/
def Dev.logRec (d : Dev) (c data : Nat) : Dev :=
  let e : LogEntry := ⟨c, data % 2 ^ 24, d.reed.time⟩
  if d.log.queue.length < logDepth then { d with log := { d.log with queue := d.log.queue ++ [e] } }
  else if c = 0x01 ∨ c = 0x02 ∨ c = 0x32 then { d with log := { d.log with waiting := d.log.waiting ++ [e] } }
  else ({ d with log := { d.log with life := { d.log.life with dropped := d.log.life.dropped + 1 } } }.bump Reg.LOG_STATUS.lost).evc 0x99 24

/-! Ownership (R535, R536, R619). -/

/-- The code of a master in owner fields and log records (R505, R535). -/
def masterCode : Master → Nat
  | .host => 0
  | .core => 1
  | .board => 2

/-- The index of the block of loom `n` (R535). -/
def loomBlock (n : Nat) : Nat := 16 + n

/-- The owner field of a block (R535, R561). -/
def ownerFld (b : Nat) : Fld := if b < 16 then Reg.GLB_OWNER.owner b else Reg.GLB_OWNER_LOOM.loom (b - 16)

/-- Whether master `m` owns block `b` (R535, R540). -/
def Dev.owns (d : Dev) (m : Master) (b : Nat) : Bool := d.rd (ownerFld b) == masterCode m

/-- A register write was refused: counted once a write as source 0x9A; `own` marks a refusal for ownership (R97, R559). -/
def Dev.refuse (d : Dev) (own : Bool) : Dev :=
  match d.judging with
  | none => d.evc 0x9A 24
  | some none => { d with judging := some (some own) }.evc 0x9A 24
  | some (some o) => { d with judging := some (some (o || own)) }

/-- One slot write `f`, whose refusals count as one. -/
def Dev.judged (d : Dev) (f : Dev → Dev) : Dev := { f { d with judging := some none } with judging := d.judging }

/-- A write refused for ownership in a register that names no flag of its own (R536). -/
def Dev.ownerReject (d : Dev) (m : Master) (b : Nat) : Dev :=
  (((d.wr Reg.GLB_OWNER_STATUS.block b).wr Reg.GLB_OWNER_STATUS.writer (masterCode m)).flag Reg.GLB_OWNER_STATUS.owner_reject).refuse true

/-- A write refused with a flag of its own. -/
def Dev.rejectWith (d : Dev) (f : Fld) (own : Bool) : Dev := (d.flag f).refuse own

/-! Unit states (R52, R58). -/

/-- The key of a unit in the table of unit states. -/
def unitKey : UnitId → Nat
  | .shuttle n => n.val
  | .pattern n => 32 + n.val
  | .mill n => 64 + n.val
  | .capture n => 96 + n.val
  | .tme n => 128 + n.val
  | .dma i => 160 + i.val
  | .tap o => 168 + o.val
  | .scrub => 170

/-- The state code of R58. -/
def UState.code : UState → Nat
  | .off => 0
  | .on => 1
  | .draining => 2
  | .held => 3

/-- The state of the unit with key `k`. -/
def Dev.unit (d : Dev) (k : Nat) : UState := Tab.get .off d.units k

/-- Sets the state of the unit with key `k`. -/
def Dev.setUnit (d : Dev) (k : Nat) (u : UState) : Dev := { d with units := Tab.set .off d.units k u }

/-- Keys of a loom's units. -/
def kShuttle (n : Nat) : Nat := n
def kPattern (n : Nat) : Nat := 32 + n
def kMill (n : Nat) : Nat := 64 + n
def kCapture (n : Nat) : Nat := 96 + n
def kTme (n : Nat) : Nat := 128 + n
def kDma (i : Nat) : Nat := 160 + i
def kTap (o : Nat) : Nat := 168 + o
def kScrub : Nat := 170

/-- Whether loom `n` is quarantined (R544). -/
def Dev.quar (d : Dev) (n : Nat) : Bool := d.on (Reg.LOOM.QUAR.quarantined n)

/-- Reed time now (R414). -/
def Dev.now (d : Dev) : Nat := d.reed.time.toNat

/-- Time `w` has been reached (R426). -/
def reached (now w : Nat) : Bool := decide ((now + 2 ^ 48 - w % 2 ^ 48) % 2 ^ 48 < 2 ^ 47)

/-- Time `t` has come or will come: the Reed count has passed it, or runs (R426). -/
def Dev.comes (d : Dev) (t : Nat) : Bool := reached d.now t || d.reed.counting

/-- Reed ticks since `t` (R426). -/
def Dev.elapsed (d : Dev) (t : BitVec 48) : Nat := (d.reed.time - t).toNat

/-- How many shuttles have contexts resident, and every one of them paused (R495). -/
def Dev.pausedShuttles (d : Dev) : Nat :=
  let l := d.ctxs.filter fun e => e.2.slot.isSome
  ((List.range 25).filter fun sh => l.any (fun e => e.2.home.toNat == sh) && l.all fun e => e.2.home.toNat != sh || e.2.paused).length

/-- `k` Reed ticks pass: they are counted, and TH_PAUSED counts those of every shuttle whose resident contexts are all paused (R495,
R559). -/
def Dev.elapse (d : Dev) (k : Nat) : Dev :=
  (if d.pausedShuttles = 0 then d else d.bumpBy Reg.TH_PAUSED.ticks (k * d.pausedShuttles)).evcBy 0x80 24 k

/-- Reed time moves on to `t`, where it has not reached it yet; every tick passed is counted (R426). -/
def Dev.advanceTo (d : Dev) (t : Nat) : Dev :=
  if reached d.now t then d
  else { d with reed := { d.reed with time := BitVec.ofNat 48 t } }.elapse ((t + 2 ^ 48 - d.now) % 2 ^ 48)

/-- A time of the device's own has passed that ends at Reed time `t` where the Reed count runs (log entry 101). -/
def Dev.localTo (d : Dev) (t : Nat) : Dev := if d.comes t then d.advanceTo t else d

/-- The next multiple of `n` that is at least `t`. -/
def ceilTo (t n : Nat) : Nat := (t + n - 1) / n * n

/-- The next time at or after `now` that is a multiple of `n`: Reed time wraps to 0, which is one (R426). -/
def multipleFrom (now n : Nat) : Nat := if ceilTo now n < 2 ^ 48 then ceilTo now n else 0

/-- The multiple of `n` that follows `t`. -/
def multipleAfter (t n : Nat) : Nat := multipleFrom (t + 1) n

/-- The next multiple of `n` at or after `now` that is not the one last used, which a slew may have brought back (R425, R493). -/
def nextMultiple (now n : Nat) (used : Option (BitVec 48)) : Nat :=
  let c := multipleFrom now n
  if used = some (BitVec.ofNat 48 c) ∧ c ≤ now + 1 then multipleAfter c n else c

/-- In SAFE, HALTING and THERMAL_HALT every write of 1 to an enable bit is refused (R499). -/
def Dev.safeBars (d : Dev) : Bool := d.on Reg.TH_STATUS.state

/-- The next free value's number; every open value takes one (Config). -/
def Dev.tookFree (d : Dev) : Dev := { d with freeCtr := d.freeCtr + 1 }

/-! Ports (R18, R19). -/

/-- The port's key in the table of ports (R18). -/
def portKey : Port → Nat
  | .host => 0
  | .board => 1
  | .ctx c => 2 + c.val

/-- The wide quantity whose low slot is `low` is written at its high slot: the low part comes from the port's pending
low word, or else from the present value (R19). -/
def Dev.lowFor (d : Dev) (pk low cur : Nat) : Nat :=
  match (Tab.get {} d.ports pk).low with
  | some (a, v) => if a = low then v.toNat else cur % 2 ^ 32
  | none => cur % 2 ^ 32

/-- The low slot of a wide quantity is written: its word waits for the high slot (R19). -/
def Dev.setLow (d : Dev) (pk low : Nat) (v : BitVec 32) : Dev :=
  { d with ports := Tab.set {} d.ports pk { Tab.get {} d.ports pk with low := some (low, v) } }

/-- The high slot has used the pending low word up (R19). -/
def Dev.useLow (d : Dev) (pk low : Nat) : Dev :=
  match (Tab.get {} d.ports pk).low with
  | some (a, _) => if a = low then { d with ports := Tab.set {} d.ports pk { Tab.get {} d.ports pk with low := none } } else d
  | none => d

/-- Copies the top bit of a value of the width given into the slot's higher bits (R17). -/
def signSlot (w : Option Nat) (v : Nat) : Nat :=
  match w with
  | none => v % 2 ^ 32
  | some k => toCode 32 (sext k (v % 2 ^ k))

/-- A port receives a slot's value. -/
def Dev.answer (d : Dev) (p : Port) (v : Nat) : Dev :=
  { d with ports := Tab.set {} d.ports (portKey p) { Tab.get {} d.ports (portKey p) with data := BitVec.ofNat 32 v } }

/-! The Granary (R375 to R382). -/

/-- Who makes an access: source and unit of GLB_GRAN_ERR_HI (R384). -/
structure GSrc where
  source : Nat
  unit : Nat
  deriving DecidableEq, Repr

def GSrc.loom (n : Nat) : GSrc := ⟨2, n⟩
def GSrc.core : GSrc := ⟨1, 0⟩
/-- The shuttle of a home loom: a loom, or the core shuttle (24). -/
def GSrc.shuttle (n : Nat) : GSrc := if n < 24 then ⟨2, n⟩ else ⟨1, 0⟩

/-- The controller accepts requests; until then a requester waits, and its command has no effect yet (R377). -/
def Dev.granOpen (d : Dev) : Bool := d.on Reg.GLB_STATUS.gran_ready

/-- Bytes of the Granary (R375). -/
def granSize : Nat := 2 ^ 33

/-- The byte at address `a`; 0 where nothing was written (R377). -/
def Dev.byte (d : Dev) (a : Nat) : Byte := Tab.get 0 d.gran.cells a

/-- `n` bytes from address `a`. -/
def Dev.bytesAt (d : Dev) (a : Nat) : Nat → List Byte
  | 0 => []
  | n + 1 => d.byte a :: Dev.bytesAt d (a + 1) n

/-- Writes bytes from address `a`; `none` leaves a byte as it is. No byte lies beyond the Granary (R375). -/
def putCells (c : List Host.Cell) (a : Nat) : List (Option Byte) → List Host.Cell
  | [] => c
  | none :: t => putCells c (a + 1) t
  | some b :: t => putCells (if a < granSize then Tab.set 0 c a b else c) (a + 1) t

/-- The worse of two findings (R380). -/
def Ecc.worse : Ecc → Ecc → Ecc
  | .uncorr, _ => .uncorr
  | _, .uncorr => .uncorr
  | .corr, _ => .corr
  | _, .corr => .corr
  | .good, .good => .good

/-- What half `h` (2 × line + half) holds (R380). -/
def Dev.ecc (d : Dev) (h : Nat) : Ecc := Tab.get .good d.gran.bad h

/-- Records what half `h` holds. -/
def Dev.setEcc (d : Dev) (h : Nat) (e : Ecc) : Dev := { d with gran := { d.gran with bad := Tab.set .good d.gran.bad h e } }

/-- An uncorrectable error of half `h` is reported for its requester (R382, R550). -/
def Dev.reportUe (d : Dev) (g : GSrc) (h : Nat) : Dev :=
  let d := (d.bump Reg.GLB_GRAN_UE.count).flag Reg.GLB_GRAN_IRQ.ue
  let d := if d.on Reg.GLB_GRAN_ERR_HI.valid then d else
    ((((d.wr Reg.GLB_GRAN_ERR_LO.line (h / 2)).wr Reg.GLB_GRAN_ERR_HI.half (h % 2)).wr Reg.GLB_GRAN_ERR_HI.source g.source).wr
      Reg.GLB_GRAN_ERR_HI.unit g.unit).wr Reg.GLB_GRAN_ERR_HI.valid 1
  ((d.logRec 0x25 (g.source + 8 * g.unit)).flag Reg.GLB_ERR_STATUS.gran_ue).evc 0x86 24

/-- A corrected error of half `h` is counted, and its line enters the revisit queue (R380). -/
def Dev.reportCe (d : Dev) (h : Nat) : Dev :=
  let d := d.bump Reg.GLB_GRAN_CE.count
  let d := if max (d.rd Reg.GLB_GRAN_IRQ.ce_limit) 1 ≤ d.rd Reg.GLB_GRAN_CE.count then d.flag Reg.GLB_GRAN_IRQ.ce_over else d
  let d := if d.gran.revisit.length < 16 then { d with gran := { d.gran with revisit := d.gran.revisit ++ [h / 2] } } else d
  d.evc 0x85 24

/-- Half `h` is read, and the correction finds `e` there or what it already holds: true where the data is good (R380, R382). -/
def Dev.touch (d : Dev) (g : GSrc) (h : Nat) (e : Ecc) : Dev × Bool :=
  match Ecc.worse (d.ecc h) e with
  | .good => (d, true)
  | .corr => ((d.setEcc h .corr).reportCe h, true)
  | .uncorr => ((d.setEcc h .uncorr).reportUe g h, false)

/-- Reads halves `h` to `h + k − 1`, all of them, and says whether all were good. -/
def Dev.touchAll (d : Dev) (g : GSrc) (h : Nat) (e : Nat → Ecc) : Nat → Dev × Bool
  | 0 => (d, true)
  | k + 1 =>
    let r := Dev.touchAll d g h e k
    let q := r.1.touch g (h + k) (e (h + k))
    (q.1, r.2 && q.2)

/-- The number of 32-byte halves that `n` bytes from `a` lie in. -/
def halves (a n : Nat) : Nat := if n = 0 then 0 else (a + n - 1) / 32 - a / 32 + 1

/-- Reads `n` bytes from `a`: none where a half is uncorrectable. -/
def Dev.readBytes (d : Dev) (g : GSrc) (a n : Nat) : Dev × Option (List Byte) :=
  let r := d.touchAll g (a / 32) (fun _ => .good) (halves a n)
  (r.1, if r.2 then some (r.1.bytesAt a n) else none)

/-- The bytes of half `h` among those written from `a`. -/
def halfPart (a : Nat) (bs : List (Option Byte)) (h : Nat) : List (Option Byte) :=
  (List.range 32).map fun j => if a ≤ 32 * h + j then (bs[32 * h + j - a]?).join else none

/-! The segment table (R249, R250, R257): the controller checks every descriptor that a write touches. -/

/-- A descriptor read from its 16 bytes, as one number (R249). -/
def descOf (v : Nat) : Desc :=
  { start := bits v 0 27, length := bits v 32 32, loops := bits v 64 24, next := bits v 88 15, last := bit v 103,
    valid := bit v 104, pinned := bit v 105, twill := bit v 106, op := bits v 112 4 }

/-- The reserved bits of a descriptor (R249). -/
def descRsv (v : Nat) : Bool := bits v 27 5 != 0 || bits v 107 5 != 0 || bits v 116 12 != 0

/-- The lowest-numbered rule of R250 that a descriptor breaks. -/
def descReason (v : Nat) : Option Nat :=
  let e := descOf v
  if e.length % 64 ≠ 0 then some 1
  else if e.length < 256 then some 2
  else if granSize < 64 * e.start + 18 * e.length then some 3
  else if e.pinned ∧ 8192 < e.length then some 4
  else if descRsv v then some 5
  else none

/-- Passes that an entry plays (R252). -/
def Desc.passes (e : Desc) : Nat := max e.loops 1
/-- Lines of one pass. -/
def Desc.passLines (e : Desc) : Nat := 18 * e.length / 64

/-- Lines of the stream of an entry. An entry loaded as it streams needs its first pass only (R256). -/
def Entry.want (e : Entry) : Nat := (if e.load then 1 else e.desc.passes) * e.desc.passLines
/-- Lines of the stream that have arrived so far. -/
def Entry.got (e : Entry) : Nat := e.base + e.lines.length
/-- All the lines that the entry streams have arrived. -/
def Entry.full (e : Entry) : Bool := decide (e.want ≤ e.got)

/-- Lines that the run still wants: of the entries fetched, and none once playing has ended or a line was lost (R48, R255). -/
def Burst.wants (b : Burst) : Nat :=
  if b.ended.isSome || b.ents.any (·.lines.contains .lost) then 0 else b.ents.foldl (fun k e => k + (e.want - e.got)) 0

/-- Of the requests in flight the first `k` that are wanted stay so. -/
def keepReqs : Nat → List Req → List Req
  | _, [] => []
  | k, r :: t => if r.want && k != 0 then r :: keepReqs (k - 1) t else { r with want := false } :: keepReqs k t

/-- After a change of the run, a request in flight for a line or a descriptor that it no longer wants brings what is
discarded (R40). -/
def Pat.settleReqs (p : Pat) : Pat :=
  { p with reqs := keepReqs ((p.burst.map (·.wants)).getD 0) p.reqs,
           descs := p.descs.map fun s => if s = p.burst.bind (·.await) then s else none }

/-- Segment `s` leaves the loop window and a load of it is abandoned; a pass under way plays to its end from the copy. The
run's later entries into its resident copy are fetched afresh, and so is the first where no vector has played (R257, R259). -/
def Burst.dropSeg (s : Nat) (b : Burst) : Burst :=
  match b.ents with
  | [] => b
  | e :: t =>
    if e.seg = s ∧ e.copyTill ≠ 0 ∧ b.played = 0 then { b with ents := [], await := some s, closed := false, descLost := false } else
    let e' := if e.seg = s then { e with load := false, copyTill := min e.copyTill (b.pass + 1),
                                         base := if e.copyTill = 0 then e.base else min e.copyTill (b.pass + 1) * (18 * e.desc.length / 64) } else e
    let keep := t.takeWhile fun x => !(decide (x.seg = s) && decide (x.copyTill ≠ 0))
    let t' := keep.map fun x => if x.seg = s then { x with load := false } else x
    if keep.length = t.length then { b with ents := e' :: t' } else { b with ents := e' :: t', await := some s, closed := false, descLost := false }

/-- The effect of `Burst.dropSeg` on a pattern path. -/
def Pat.dropSeg (s : Nat) (p : Pat) : Pat :=
  { p with window := p.window.filter (·.seg != s), loads := (match p.loads with | [] => [] | h :: t => if h = s then t else h :: t),
           burst := p.burst.map (Burst.dropSeg s) }.settleReqs

/-- The address of the segment table (R249). -/
def Dev.segBase (d : Dev) : Nat := d.rd Reg.GLB_SEGT_BASE.base * 2 ^ 19

/-- A write has touched descriptor `s`: it is dropped from the loop windows (R257), and judged (R250). -/
def Dev.segTouched (d : Dev) (s : Nat) : Dev :=
  let a := d.segBase + 16 * s
  let v := leVal (d.bytesAt a 16)
  let d := { d with pats := d.pats.map fun e => (e.1, e.2.dropSeg s) }
  match (if bit v 104 then descReason v else none) with
  | none => d
  | some r =>
    let d := { d with gran := { d.gran with cells := putCells d.gran.cells (a + 13) [some (BitVec.ofNat 8 (putBits (bits v 104 8) 0 1 0))] } }
    (((d.wr Reg.GLB_SEGT_STATUS.last_seg s).wr Reg.GLB_SEGT_STATUS.reason r).flag Reg.GLB_SEGT_STATUS.refused).bump Reg.GLB_SEGT_REFUSED.count

/-- The descriptors that a write of the bytes `part` of half `h` touches. -/
def Dev.segCheck (d : Dev) (h : Nat) (part : List (Option Byte)) : Dev :=
  if d.segBase ≤ 32 * h ∧ 32 * h < d.segBase + 2 ^ 19 then
    let s := (32 * h - d.segBase) / 16
    let d := if (part.take 16).any (·.isSome) then d.segTouched s else d
    if (part.drop 16).any (·.isSome) then d.segTouched (s + 1) else d
  else d

/-- The bytes of `part` are put into half `h`, whose check symbols are written anew (R381). -/
def Dev.putHalf (d : Dev) (h : Nat) (part : List (Option Byte)) : Dev :=
  Dev.segCheck { d with gran := { d.gran with cells := putCells d.gran.cells (32 * h) part, bad := Tab.set .good d.gran.bad h .good } } h part

/-- Puts bytes from `a` into halves that the access has read already, and found good (R85, R142). -/
def Dev.putBytes (d : Dev) (a : Nat) (bs : List Byte) : Dev :=
  iter (fun k d => d.putHalf (a / 32 + k) (halfPart a (bs.map some) (a / 32 + k))) (halves a bs.length) d

/-- Writes one half (R381): a whole half is replaced and repaired; a part is merged, or discarded where the half is
uncorrectable. -/
def Dev.writeHalf (d : Dev) (g : GSrc) (h : Nat) (e : Ecc) (part : List (Option Byte)) : Dev × Bool :=
  if part.all (·.isNone) then (d, true)
  else if part.all (·.isSome) then (d.putHalf h part, true)
  else
    let r := d.touch g h e
    if r.2 then (r.1.putHalf h part, true) else r

/-- Writes the halves `h` to `h + k − 1` of the bytes `bs` from `a`; says whether all were written. -/
def Dev.writeHalves (d : Dev) (g : GSrc) (a : Nat) (bs : List (Option Byte)) (h : Nat) (e : Nat → Ecc) : Nat → Dev × Bool
  | 0 => (d, true)
  | k + 1 =>
    let r := Dev.writeHalves d g a bs h e k
    let q := r.1.writeHalf g (h + k) (e (h + k)) (halfPart a bs (h + k))
    (q.1, r.2 && q.2)

/-- Writes bytes from `a`, each half as R381 lays down. -/
def Dev.writeBytes (d : Dev) (g : GSrc) (a : Nat) (bs : List (Option Byte)) : Dev × Bool :=
  d.writeHalves g a bs (a / 32) (fun _ => .good) (halves a bs.length)

/-- Whether every half that `bs` from `a` covers in part only can be read (R84). -/
def Dev.mergeOk (d : Dev) (a : Nat) (bs : List (Option Byte)) : Bool :=
  (List.range (halves a bs.length)).all fun k =>
    let part := halfPart a bs (a / 32 + k)
    part.all (·.isNone) || part.all (·.isSome) || d.ecc (a / 32 + k) != .uncorr

/-- A 64-byte line as its bytes, and back (R12). -/
def lineBytes (v : Line) : List Byte := leBytes 64 v.toNat
def lineOf (bs : List Byte) : Line := BitVec.ofNat 512 (leVal bs)

/-- Reads a whole line, with what the correction finds in its halves. -/
def Dev.readLine (d : Dev) (g : GSrc) (line : Nat) (e0 e1 : Ecc) : Dev × Option Line :=
  let r := d.touchAll g (2 * line) (fun h => if h = 2 * line then e0 else e1) 2
  (r.1, if r.2 then some (lineOf (r.1.bytesAt (64 * line) 64)) else none)

/-- The bytes of a line as they stand. -/
def Dev.lineAt (d : Dev) (line : Nat) : Line := lineOf (d.bytesAt (64 * line) 64)

/-! Credits (R33, R37, R39, R59, R60). A transaction of GRANARY_LINE_ACCESS holds its credit until
GRANARY_TRANSACTION_COMPLETE; a posted line of a Mill and a request of a refill until they end; every other command takes and
returns its credits within its one step. One that finds none free waits in its partition's queue (log entry 95). -/

/-- The key of a partition. -/
def partKey : Partition → Nat
  | .refill n => n.val
  | .shared n _ => 32 + n.val
  | .dma i => 64 + i.val
  | .bar2 => 72
  | .tap o => 73 + o.val
  | .coreShuttle => 75
  | .scrub => 76
  | .security => 77

/-- The credits of a partition (R37). -/
def partCredits : Partition → Nat
  | .refill _ => 96
  | .shared _ _ => 32
  | .dma _ => 56
  | .bar2 => 64
  | .tap _ => 64
  | .coreShuttle => 64
  | .scrub => 256
  | .security => 64

/-- The requesters of a loom's shared credits, by number. -/
def userCode : SharedUser → Nat
  | .failLog => 0
  | .capture => 1
  | .mill => 2
  | .shuttle => 3
  | .wave k => 4 + k.val

/-- The key under which the transactions of one requester count (R51): a partition's own, but in a shared one. -/
def drawKey : Partition → Nat
  | .shared n u => 128 + 64 * n.val + userCode u
  | q => partKey q

/-- The requester that errors of a partition's accesses name (R384). -/
def partSrc : Partition → GSrc
  | .refill n => .loom n.val
  | .shared n _ => .loom n.val
  | .dma i => ⟨3, i.val⟩
  | .bar2 => ⟨4, 0⟩
  | .tap o => ⟨5, o.val⟩
  | .coreShuttle => .core
  | .scrub => ⟨0, 0⟩
  | .security => ⟨6, 0⟩

/-- The partition of the loads, stores and fetches of shuttle `sh` (R37). -/
def shuttlePart (sh : Nat) : Partition := if h : sh < 24 then .shared ⟨sh, h⟩ .shuttle else .coreShuttle

/-- Requests that the refill of loom `n` has in flight: segment lines and descriptors (R37, R253, R255). -/
def Pat.inFlight (p : Pat) : Nat := p.reqs.length + p.descs.length

/-- Credits in use of the partition with key `k`, with a refill's requests and the lines that a Mill has posted (R344). -/
def Dev.inUseOf (d : Dev) (k : Nat) : Nat :=
  Tab.get 0 d.inUse k + (if k < 24 then (Tab.get {} d.pats k).inFlight else if 32 ≤ k ∧ k < 56 then (Tab.get {} d.mills (k - 32)).posted else 0)

/-- Credits in use in the whole pool (R59). -/
def Dev.poolInUse (d : Dev) : Nat := sumTo d.inUseOf 78

/-- The credits of a partition that are free. -/
def Dev.freeCredits (d : Dev) (q : Partition) : Nat := partCredits q - d.inUseOf (partKey q)

/-- The peaks follow `more` credits of a partition beside those that the state holds in use (R59, R60). -/
def Dev.notePeaks (d : Dev) (q : Partition) (more : Nat) : Dev :=
  let v := d.inUseOf (partKey q) + more
  let d := d.peak Reg.GLB_POOL_PEAK.peak (d.poolInUse + more)
  match q with
  | .refill n =>
    let d := d.peak (Reg.LOOM.CREDIT_PEAK.refill_peak n.val) v
    if v = 96 then d.evc 0x2B n.val else d
  | .shared n _ => d.peak (Reg.LOOM.CREDIT_PEAK.shared_peak n.val) v
  | _ => d

/-- A credit is taken and held. -/
def Dev.takeCredit (d : Dev) (q : Partition) : Dev :=
  let u := Tab.set 0 d.inUse (partKey q) (Tab.get 0 d.inUse (partKey q) + 1)
  let u := if drawKey q = partKey q then u else Tab.set 0 u (drawKey q) (Tab.get 0 u (drawKey q) + 1)
  { d with inUse := u }.notePeaks q 0

/-- The requests that wait for a credit of `q`, oldest first. -/
def Dev.waiting (d : Dev) (q : Partition) : List Held := Tab.get [] d.waitGran (partKey q)

/-- A request of partition `q` is being served. -/
def Dev.serves (d : Dev) (q : Partition) : Bool := d.serving.any fun h => partKey h.q == partKey q

/-- A requester of partition `q` may make an access now: the controller accepts it, a credit is free, and no earlier
request waits (R33, R39, R377). -/
def Dev.mayAccess (d : Dev) (q : Partition) : Bool :=
  d.granOpen && ((d.waiting q).isEmpty || d.serves q) && decide (0 < d.freeCredits q)

/-- A request joins the queue of its partition, unless the same one waits there; one that is being served and still finds too
few credits keeps its place (R33, R39). -/
def Dev.joinQueue (d : Dev) (h : Held) : Dev :=
  let old := d.waiting h.q
  let d := { d with waitGran := Tab.set [] d.waitGran (partKey h.q) (if d.serves h.q then h :: old else old ++ [h]) }
  match h.q with
  | .shared n _ => if d.granOpen && !d.serves h.q then d.evc 0x2A n.val else d
  | _ => d

/-- Command `i` waits for a credit of partition `q`, once. -/
def Dev.asks (d : Dev) (q : Partition) (i : Instr) : Dev :=
  let h : Held := { ask := .cmd i, q := q }
  if (d.waiting q).contains h then d else d.joinQueue h

/-- Command `i` waits for a credit of partition `q`, whose requester makes one request at a time. -/
def Dev.asksOne (d : Dev) (q : Partition) (i : Instr) : Dev :=
  if (d.waiting q).any (fun h => drawKey h.q == drawKey q) then d else d.joinQueue { ask := .cmd i, q := q }

/-- Command `i`, which accesses the Granary through the partition named, is carried out, or waits for a credit (R33, R39, R377). -/
def Dev.accessing (d : Dev) (q : Option Partition) (i : Instr) (f : Dev → Dev) : Dev :=
  match q with
  | some q => if d.mayAccess q then f d else d.asks q i
  | none => f d

/-- Requester `q` has no transaction in flight and no request that waits (R51). -/
def Dev.noAccess (d : Dev) (q : Partition) : Bool :=
  Tab.get 0 d.inUse (drawKey q) == 0 && (d.waiting q).all fun r => drawKey r.q != drawKey q

/-! The register bus (R33, R36, R626). -/

/-- The register arbiter holds a command of CTX_CMD that master `m` wrote, behind the one in progress: later accesses of that
master wait behind it (R626). -/
def Dev.behindCmd (d : Dev) (m : Master) : Bool := d.ctxCmd.tail.any (·.m == m)

/-- An access of master `m` waits for a Granary credit: its later accesses wait behind it. -/
def Dev.busWaits (d : Dev) (m : Master) : Bool := d.waitGran.any fun e => e.2.any fun h => h.bus == some m

/-- An access of master `m` has to wait behind an earlier one. One that is being served has waited. -/
def Dev.busBlocked (d : Dev) (m : Master) : Bool :=
  !d.serving.any (·.bus == some m) && (d.behindCmd m || d.busWaits m || !(Tab.get [] d.waitBus (masterCode m)).isEmpty)

/-- An access of master `m` waits on the register bus. -/
def Dev.onBus (d : Dev) (m : Master) (i : Instr) (c : Option Nat) : Dev :=
  { d with waitBus := Tab.set [] d.waitBus (masterCode m)
             (Tab.get [] d.waitBus (masterCode m) ++ [{ ask := .cmd i, q := .coreShuttle, ctx := c, bus := some m }]) }

/-- A write of master `m`, which command `i` makes, and which accesses the Granary through the partition named: it is carried out,
or waits its turn, or waits for a credit, with the later accesses of its master behind it (R33, R626). -/
def Dev.writing (d : Dev) (m : Master) (q : Option Partition) (i : Instr) (f : Dev → Dev) : Dev :=
  if d.busBlocked m then d.onBus m i none
  else match q with
    | some q => if d.mayAccess q then f d else d.joinQueue { ask := .cmd i, q := q, bus := some m }
    | none => f d

/-- An access of master `m`, which command `i` makes: it is carried out, or waits its turn. -/
def Dev.inTurn (d : Dev) (m : Master) (i : Instr) (f : Dev → Dev) : Dev := if d.busBlocked m then d.onBus m i none else f d

/-- A command makes `k` line accesses within its step: they hold as many credits as are free, and return them. -/
def Dev.passing (d : Dev) (q : Partition) (k : Nat) : Dev := d.notePeaks q (min k (d.freeCredits q))

/-- The lines that `n` bytes from `a` lie in. -/
def linesOf (a n : Nat) : Nat := if n = 0 then 0 else (a + n - 1) / 64 - a / 64 + 1

/-- A line access reaches the controller and is applied in one step (R378, R380, R381). -/
def Dev.lineApply (d : Dev) (q : Partition) (line : BitVec 27) (op : LineOp) (e0 e1 : Ecc) : Dev :=
  let l := line.toNat
  let e := fun h => if h = 2 * l then e0 else e1
  match op with
  | .read => (d.touchAll (partSrc q) (2 * l) e 2).1
  | .write data be =>
    (d.writeHalves (partSrc q) (64 * l) ((List.range 64).map fun i => if be.getLsbD i then some (data.extractLsb' (8 * i) 8) else none) (2 * l) e 2).1

/-- A requester makes an access: it waits for the controller, and for a credit of its partition (R33, R39, R377). -/
def Dev.lineAccess (d : Dev) (q : Partition) (line : BitVec 27) (op : LineOp) (e0 e1 : Ecc) : Dev :=
  if d.mayAccess q then (d.takeCredit q).lineApply q line op e0 e1
  else if q = .bar2 ∧ !d.granOpen then d.flag Reg.GLB_STATUS.bar2_early
  else d.joinQueue { ask := .cmd (.granaryLineAccess q line op e0 e1), q := q }

/-- The canonical form of the Granary's memory: addresses rising, inside the Granary, and no listed byte 0. -/
def Memory.wf (c : List Host.Cell) : Bool := Tab.wf 0 c && c.all fun p => decide (p.1 < granSize)

end Sys2Proof.Machine
end

