-- ==== Sys2Proof/Machine/CtxOps.lean ====
section
/-! DEFINITION. Contexts and sites: the operations that instructions, units and the context block share
(R61 to R68, R92 to R96, R111 to R117, R120 to R142). Parking a context with a fault word is this device's exception. -/
namespace Sys2Proof.Machine
open Sys2Proof

/-- Context `c`. -/
def Dev.ctx (d : Dev) (c : Nat) : Ctx := Tab.get {} d.ctxs c

/-- Replaces context `c`. -/
def Dev.setCtx (d : Dev) (c : Nat) (x : Ctx) : Dev := { d with ctxs := Tab.set {} d.ctxs c x }

/-- Changes context `c`. -/
def Dev.modCtx (d : Dev) (c : Nat) (f : Ctx → Ctx) : Dev := d.setCtx c (f (d.ctx c))

/-- Word register `i` (R61). -/
def Ctx.rw (x : Ctx) (i : Nat) : W24 := Tab.get 0 x.w i
/-- Address register `i`. -/
def Ctx.ra (x : Ctx) (i : Nat) : W36 := Tab.get 0 x.a i
/-- Loop counter `i`. -/
def Ctx.rl (x : Ctx) (i : Nat) : W24 := Tab.get 0 x.lc i

/-- Sets word register `i`. -/
def Ctx.setW (x : Ctx) (i : Nat) (v : W24) : Ctx := { x with w := Tab.set 0 x.w i v }
/-- Sets address register `i`. -/
def Ctx.setA (x : Ctx) (i : Nat) (v : W36) : Ctx := { x with a := Tab.set 0 x.a i v }
/-- Sets loop counter `i`. -/
def Ctx.setL (x : Ctx) (i : Nat) (v : W24) : Ctx := { x with lc := Tab.set 0 x.lc i v }

/-- Fault words (R116): class and detail. -/
def faultWord (cls det : Nat) : BitVec 24 := BitVec.ofNat 24 (cls * 0x10000 + det % 0x10000)
def fIllegal (n : Nat) : BitVec 24 := faultWord 0x01 n
def fFetch (n : Nat) : BitVec 24 := faultWord 0x02 n
def fAddress (n : Nat) : BitVec 24 := faultWord 0x03 n
def fData (n : Nat) : BitVec 24 := faultWord 0x04 n
def fOperand (n : Nat) : BitVec 24 := faultWord 0x05 n
def fChannel (n : Nat) : BitVec 24 := faultWord 0x06 n
def fPattern (n : Nat) : BitVec 24 := faultWord 0x07 n
/-- UNIT_DISABLED: unit 1 pattern path, 2 Mill, 3 capture (R116). -/
def fUnitDisabled (unit n : Nat) : BitVec 24 := faultWord 0x08 (unit * 0x100 + n)
def fThread : BitVec 24 := faultWord 0x09 1
def fPermission : BitVec 24 := faultWord 0x0A 1
def fMachine (n : Nat) : BitVec 24 := faultWord 0x0B n
def fDeadline (n : Nat) : BitVec 24 := faultWord 0x0C n
def fQuarantine (n : Nat) : BitVec 24 := faultWord 0x0D n
def fBreak (n : Nat) : BitVec 24 := faultWord 0x0E n
def fHost : BitVec 24 := faultWord 0x0F 1

/-! Sites (R139 to R142). -/

/-- Site `i`. -/
def Dev.site (d : Dev) (i : Nat) : Site := Tab.get {} d.sites i

/-- Whether channel `c` belongs to site `i` (R139). -/
def Dev.inSite (d : Dev) (c i : Nat) : Bool := Tab.get 0 d.chmap c == i + 1024

/-- Whether loom `n` carries a channel of site `i`. -/
def Dev.loomInSite (d : Dev) (n i : Nat) : Bool := (List.range 32).any fun k => d.inSite (32 * n + k) i

/-- The pins of loom `n` that belong to site `i`. -/
def Dev.sitePins (d : Dev) (n i : Nat) : Nat := maskTo (fun k => d.inSite (32 * n + k) i) 32

/-- The sites that have a channel in loom `n`, each once. -/
def Dev.sitesOf (d : Dev) (n : Nat) : List Nat :=
  ((List.range 32).filterMap fun k =>
    let v := Tab.get 0 d.chmap (32 * n + k)
    if v < 1024 then none else some (v - 1024)).eraseDups

/-- The record bytes with status bits `m` set; status[0] first set writes the invalid time (R141, R142). -/
def siteSetStatus (m now : Nat) (bs : List Byte) : List Byte :=
  let s := leVal (bs.take 2) ||| m
  let t := leVal (bs.drop 10)
  leBytes 2 s ++ (bs.drop 2).take 8 ++ leBytes 6 (if bit m 0 && t == 0 then now else t)

/-- The record bytes when context `c` parks with fault word `w` (R142). -/
def siteSetPark (c : Nat) (w : BitVec 24) (bs : List Byte) : List Byte :=
  let s := leVal (bs.take 2) ||| 0x10
  if leVal ((bs.drop 8).take 2) % 2 ^ 14 = 0 then
    leBytes 2 s ++ (bs.drop 2).take 3 ++ leBytes 3 w.toNat ++ leBytes 2 c ++ bs.drop 10
  else leBytes 2 s ++ bs.drop 2

/-- The record bytes with `k` fails more (R142, R245). -/
def siteAddFails (k : Nat) (bs : List Byte) : List Byte :=
  bs.take 2 ++ leBytes 3 (min (leVal ((bs.drop 2).take 3) + k) 0xFFFFFF) ++ bs.drop 5

/-- The bytes 48 to 63 of a result record after an update (R141, R142). -/
def SiteUpd.bytes : SiteUpd → List Byte → List Byte
  | .status m t => siteSetStatus m t
  | .park c w => siteSetPark c w
  | .fails k => siteAddFails k

/-- One indivisible update of bytes 48 to 63 of a valid site's result record, a line access of partition `q` (R37, R141, R142). -/
def Dev.sitePut (d : Dev) (q : Partition) (i : Nat) (u : SiteUpd) : Dev :=
  if (d.site i).valid then
    let a := (d.site i).addr.toNat + 32
    let r := (d.passing q 1).touch (partSrc q) (a / 32) .good
    if r.2 then r.1.putBytes (a + 16) (u.bytes (r.1.bytesAt (a + 16) 16)) else r.1
  else d

/-- The update of a site's record by shuttle `n`, or for its loom: it takes a credit of that shuttle's partition, or waits for
one (R39, R377). -/
def Dev.siteUpdate (d : Dev) (n i : Nat) (u : SiteUpd) : Dev :=
  if !(d.site i).valid then d
  else if d.mayAccess (shuttlePart n) then d.sitePut (shuttlePart n) i u
  else d.joinQueue { ask := .site i u, q := shuttlePart n }

/-- Sets status bits of a site (R142). -/
def Dev.siteStatus (d : Dev) (n i m : Nat) : Dev := d.siteUpdate n i (.status m d.now)

/-- Sets status bits of every valid site with a channel in loom `n` (R142). -/
def Dev.loomSiteStatus (d : Dev) (n m : Nat) : Dev := (d.sitesOf n).foldl (fun d i => d.siteStatus n i m) d

/-! Events and waits (R92 to R94, R132, R133). -/

/-- An event selector (R93). -/
def evSel (src id : Nat) : Nat := src * 2 ^ 20 + id

/-- An event can still release the context: nothing has, or a timeout of this same Reed tick, which the event beats (R94, R618). -/
def Ctx.awaits (x : Ctx) (now : BitVec 48) : Bool :=
  x.state == .waiting && (decide (x.rel = .none) || (decide (x.rel = .timeout) && x.wakeTime == now))

/-- An event releases the waiting contexts that `p` accepts, with result `r`. -/
def Dev.eventRelease (d : Dev) (p : Ctx → Bool) (r : Release) : Dev :=
  { d with ctxs := d.ctxs.map fun e => if e.2.awaits d.reed.time && p e.2 then (e.1, { e.2 with rel := r }) else e }

/-- Releases the contexts that wait for an event with a selector that `p` accepts. -/
def Dev.signal (d : Dev) (p : Nat → Bool) : Dev :=
  d.eventRelease (fun x => match x.wait with | .event _ => p x.waitSel.toNat | _ => false) (.event 0 0)

/-- A unit event occurs: source and identifier of R93. -/
def Dev.unitEvent (d : Dev) (src id : Nat) : Dev := d.signal (fun s => s == evSel src id)

/-- Releases the waiting contexts whose wait `p` accepts, with result `r`. -/
def Dev.releaseIf (d : Dev) (p : Ctx → Bool) (r : Release) : Dev :=
  { d with ctxs := d.ctxs.map fun e => if e.2.state = .waiting ∧ e.2.rel = .none ∧ p e.2 then (e.1, { e.2 with rel := r }) else e }

/-- Releases context `c` from its wait with result `r`. -/
def Dev.release (d : Dev) (c : Nat) (r : Release) : Dev :=
  let x := d.ctx c
  if x.state = .waiting ∧ x.rel = .none then d.setCtx c { x with rel := r } else d

/-- What a JOIN of context `c` meets: its w0 where it is HALTED, its fault word where it is PARKED, THREAD where it is FREE (R95).
It is latched as the context stands then (R112). -/
def Ctx.joinMeets (x : Ctx) : Release :=
  match x.state with
  | .halted => .joined true (x.rw 0)
  | .parked => .joined false x.fault
  | _ => .fault fThread

/-- A JOIN that waits for context `c` is released by what `c` has become (R95). -/
def Dev.joinEvent (d : Dev) (c : Nat) : Dev :=
  d.releaseIf (fun x => match x.wait with | .join k _ => k == c | _ => false) (d.ctx c).joinMeets

/-- Context `c` is HALTED or PARKED now: source 0x7 and JOIN. -/
def Dev.endedEvent (d : Dev) (c : Nat) : Dev := (d.unitEvent 7 c).joinEvent c

/-- The bookkeeping of a wait, dropped (R133). -/
def Ctx.noWait (x : Ctx) : Ctx := { x with wait := .none, waitX := false, rel := .none, waitKind := 0 }

/-- A context becomes READY at time `now` (R132, R136). DESIGN CHOICE (log entry 97): with an interval of 0, a deadline that
the record holds keeps running. -/
def Ctx.makeReady (x : Ctx) (now : Nat) : Ctx :=
  { x with
    state := .ready, readySince := BitVec.ofNat 48 now,
    deadline := if x.dlInterval = 0 then x.deadline else BitVec.ofNat 48 (now + x.dlInterval.toNat),
    dlResident := x.slot.isSome }

/-- Context `c` becomes READY. -/
def Dev.ready (d : Dev) (c : Nat) : Dev := (d.modCtx c (·.makeReady d.now)).evc 0x8E 24

/-- A context drops out of every queue that it waits in (R133). -/
def Dev.dropQueued (d : Dev) (c : Nat) : Dev :=
  { d with
    pats := d.pats.map fun e => (e.1, { e.2 with startQ := e.2.startQ.filter (· != c) })
    mills := d.mills.map fun e => (e.1, { e.2 with queue := e.2.queue.filter (· != c) })
    chans := d.chans.map fun e => (e.1, { e.2 with deferred := e.2.deferred.filter (· != .ctx c) })
    waitGran := d.waitGran.map fun e => (e.1, e.2.filter (·.ctx != some c))
    waitBus := d.waitBus.map fun e => (e.1, e.2.filter (·.ctx != some c))
    reed := { d.reed with sendWait := d.reed.sendWait.filter (·.ctx != c) } }

/-- Context `c` becomes FREE. A deadline that runs ends with it, and no miss is counted (DESIGN CHOICE, log entry 39). -/
def Dev.freeCtx (d : Dev) (c : Nat) : Dev :=
  let x := d.ctx c
  let d := d.dropQueued c
  let d := if x.state = .parked then d.wr Reg.CTX_PARKED.count (d.rd Reg.CTX_PARKED.count - 1) else d
  d.setCtx c { x.noWait with state := .free, slot := none, parkPend := false, killPend := false, dlPend := none, leave := false,
                             pausePend := false, paused := false, deadline := 0 }

/-- The children of a context that halts or becomes FREE are orphaned; those HALTED become FREE, and so do their
children's orphans in turn (R96, R134). A CLAIMED context, which nothing has started yet, is left out: what its parent field names is
the owner's to write (DESIGN CHOICE, log entry 121). -/
def Dev.orphan (d : Dev) (c : Nat) : Nat → Dev
  | 0 => d
  | k + 1 =>
    d.ctxs.foldl (fun d e =>
      let x := d.ctx e.1
      if x.parent.toNat = c ∧ x.state ≠ .free ∧ x.state ≠ .claimed then
        if x.state = .halted then ((d.modCtx e.1 fun x => { x with parent := 0x3FFE }).freeCtx e.1).orphan e.1 k
        else d.modCtx e.1 fun x => { x with parent := 0x3FFE }
      else d) d

/-- How deep a chain of orphans can be: the number of contexts. -/
def nCtx : Nat := 10240

/-- Context `c` becomes FREE, and its children are orphaned (R134). -/
def Dev.freed (d : Dev) (c : Nat) : Dev := ((d.freeCtx c).orphan c nCtx).joinEvent c

/-- Context `c` becomes PARKED with a fault word (R114, R121, R138, R142). A KILL latched against it takes effect then: it has come
to a pause point (R123). -/
def Dev.park (d : Dev) (c : Nat) (w : BitVec 24) : Dev :=
  let x := d.ctx c
  let d := d.dropQueued c
  let d := d.setCtx c { x.noWait with state := .parked, fault := w, parkPend := false, dlPend := none, leave := false }
  let d := if x.state = .parked then d else
    ((d.wr Reg.CTX_PARKED.count (d.rd Reg.CTX_PARKED.count + 1)).flag Reg.CTX_PARKED.new).evc 0x91 24
  let d := (d.siteUpdate x.home.toNat x.site.toNat (.park c w)).endedEvent c
  if x.killPend then d.freed c else d

/-- A fault of context `c`: its shuttle's last-fault registers, then the park (R114, R115). -/
def Dev.faultCtx (d : Dev) (c : Nat) (w : BitVec 24) : Dev :=
  let n := (d.ctx c).home.toNat
  let d :=
    if n < 24 then
      ((((d.wr (Reg.LOOM.SHU_LASTFAULT.fault n) w.toNat).wr (Reg.LOOM.SHU_LASTCTX.context n) c).upd (Reg.LOOM.SHU_LASTCTX.new n) fun _ => 1)
        |>.irqLoom Reg.LOOM.IRQ_CAUSE.shu_fault n).evc 0x26 n
    else ((d.wr Reg.GLB_CSHU_LASTFAULT.fault w.toNat).wr Reg.GLB_CSHU_LASTCTX.context c).upd Reg.GLB_CSHU_LASTCTX.new fun _ => 1
  d.park c w

/-- Context `c` becomes HALTED; one whose parent has gone becomes FREE (R96, R134). -/
def Dev.halt (d : Dev) (c : Nat) : Dev :=
  let x := d.ctx c
  let d := d.setCtx c { x with state := .halted, deadline := 0 }
  let d := (d.orphan c nCtx).endedEvent c
  if x.parent = 0x3FFE then d.freeCtx c else d

/-! Issue (R66 to R68, R76, R111, R518). -/

/-- Whether shuttle `n` may issue: the core shuttle is never drained (R56); a refill or an invalidation stops issue
(R67, R518). -/
def Dev.shuttleRuns (d : Dev) (n : Nat) : Bool :=
  (n == 24 || d.unit (kShuttle n) == .on) && (Tab.get {} d.ucode.stores n).refill.isNone && !Tab.get false d.icacheBusy n

/-- An exchange under way holds the contexts whose site holds its channel paused (R479). -/
def Dev.exchHolds (d : Dev) (x : Ctx) : Bool :=
  d.contain.any fun e => e.2.moving.any fun m => d.inSite (32 * e.1 + m.k) x.site.toNat

/-- The instruction of context `c` that waited is being served: it has issued, so that no pause point lies before it. -/
def Dev.resumes (d : Dev) (c : Nat) : Bool := d.serving.any (·.ctx == some c)

/-- Whether context `c` may issue an instruction: READY and resident, at no pause point that holds it (R111, R123,
R130, R479, R493). -/
def Dev.canIssue (d : Dev) (c : Nat) : Bool :=
  let x := d.ctx c
  x.state == .ready && x.slot.isSome && decide (x.wait = .none)
    && (d.resumes c || (d.shuttleRuns x.home.toNat && !x.pausePend && !x.parkPend && !x.killPend && x.dlPend.isNone && !x.leave && !d.exchHolds x))

/-- Moves the PC of context `c` past an instruction of `len` words; past word 0xFF_FFFF it faults (R68). -/
def Dev.advancePc (d : Dev) (c len : Nat) : Dev :=
  let x := d.ctx c
  if 2 ^ 24 ≤ x.pc.toNat + len then d.faultCtx c (fFetch 2)
  else d.setCtx c { x with pc := x.pc + BitVec.ofNat 24 len }

/-- A wait inside which there is no pause point: a blocking BURST, an MLOOP, a MEAS (R111). -/
def Wait.blocks : Wait → Bool
  | .burst _ => true
  | .meas _ _ => true
  | _ => false

/-- Whether a context stands at a pause point (R111, R112). -/
def Ctx.atPause (x : Ctx) : Bool := (x.state == .ready && decide (x.wait = .none)) || (x.state == .waiting && !x.wait.blocks)

/-- A context that has come to a pause point with a pause pending takes it (R493). -/
def Dev.takePause (d : Dev) (c : Nat) : Dev :=
  let x := d.ctx c
  if x.pausePend && !x.paused && x.atPause then (d.setCtx c { x with paused := true }).evc 0x27 x.home.toNat else d

/-- The SEND of context `c` that waited for a credit completes, and a pause that is pending is taken after it (R75, R111, R427). -/
def Dev.sendDone (d : Dev) (c : Nat) : Dev :=
  if (d.ctx c).wait = .send then ((d.modCtx c (·.noWait)).advancePc c (if (d.ctx c).waitX then 2 else 1)).takePause c else d

/-- What running an instruction gives. -/
inductive IRes where
  /-- it completes, and the next instruction follows. -/
  | ok (d : Dev)
  /-- it completes, and control goes to `pc`. -/
  | jump (d : Dev) (pc : BitVec 24)
  /-- it has ended its context's issue in its own way (a wait, HALT). -/
  | stays (d : Dev)
  | fault (w : BitVec 24)
  /-- it faults, and the error that it met is already reported in `d` (R382). -/
  | faultIn (d : Dev) (w : BitVec 24)

/-- The instruction that context `c` of shuttle `n` retried has issued (R518, R530). -/
def Dev.retryOver (d : Dev) (n c : Nat) : Dev :=
  let t := Tab.get {} d.ucode.stores n
  if t.retry.any fun r => r.1 == c then { d with ucode := { d.ucode with stores := Tab.set {} d.ucode.stores n { t with retry := none, entry := none } } } else d

/-- Context `c` issues an instruction, of two words where `x` (R68, R69, R76, R114). A context that may not issue is
left as it stands. -/
def Dev.issue (d : Dev) (c : Nat) (x : Bool) (run : Dev → Ctx → IRes) : Dev :=
  if d.canIssue c then
    let n := (d.ctx c).home.toNat
    if x && (d.ctx c).pc == 0xFFFFFF then d.faultCtx c (fFetch 3)
    else
      let d := if n < 24 then (d.retryOver n c).evc 0x23 n else (d.retryOver n c).evc 0x8D 24
      match run d (d.ctx c) with
      | .ok d' => d'.advancePc c (if x then 2 else 1)
      | .jump d' pc => d'.modCtx c fun x => { x with pc := pc }
      | .stays d' => d'
      | .fault w => d.faultCtx c w
      | .faultIn d' w => d'.faultCtx c w
  else d

/-- The first condition that holds decides the fault (R117). -/
def firstFault : List (Bool × BitVec 24) → Option (BitVec 24)
  | [] => none
  | (true, w) :: _ => some w
  | (false, _) :: t => firstFault t

/-- What every meaning answers. -/
abbrev Out := Host.Outcome State Fault Refusal

/-- A meaning that goes on: the queue stays as it is. -/
def lift (s : State) (f : Dev → Dev) : Out := .next { s with dev := f s.dev }

/-- Runs `k` where none of the conditions of `l` holds. -/
def guarded (l : List (Bool × BitVec 24)) (k : IRes) : IRes :=
  match firstFault l with
  | some w => .fault w
  | none => k

/-- A swap waits on shuttle `sh` (R525). -/
def Dev.swapWaits (d : Dev) (sh : Nat) : Bool := (Tab.get {} d.ucode.stores sh).pend

/-- A swap waits on the shuttle of context `c`, whose instruction would enter a wait of kind 5: it is held (R525). -/
def Dev.heldBySwap (d : Dev) (c : Nat) (would : Bool) (l : Ctx → List (Bool × BitVec 24)) : Bool :=
  d.swapWaits (d.ctx c).home.toNat && would && (firstFault (l (d.ctx c))).isNone

/-- Context `c` issues an instruction, of two words where `x`, that no condition of `l` stops (R68, R117). -/
def Dev.issues (d : Dev) (c : Nat) (x : Bool) (l : Ctx → List (Bool × BitVec 24)) : Bool :=
  d.canIssue c && !(x && (d.ctx c).pc == 0xFFFFFF) && (firstFault (l (d.ctx c))).isNone

/-- Context `c` issues an instruction that accesses the Granary, and its shuttle's partition takes no access now (R75, R377). -/
def Dev.waitsGran (d : Dev) (c : Nat) (x : Bool) (l : Ctx → List (Bool × BitVec 24)) : Bool :=
  d.issues c x l && !d.mayAccess (shuttlePart (d.ctx c).home.toNat)

/-- The instruction `i` of context `c` waits in mid-course for a credit of partition `q`; `bus`: it is an access to the register
bus (R33, R75). -/
def Dev.holdCtx (d : Dev) (c : Nat) (i : Instr) (q : Partition) (bus : Option Master) : Dev :=
  (d.joinQueue { ask := .cmd i, q := q, ctx := some c, bus := bus }).modCtx c fun x => { x with wait := .held }

/-- An instruction of context `c` that no condition stops waits for its shuttle's Granary credit, or is carried out (R39, R75). -/
def Dev.withCredit (d : Dev) (c : Nat) (x : Bool) (i : Instr) (l : Ctx → List (Bool × BitVec 24)) (f : Dev → Dev) : Dev :=
  if d.waitsGran c x l then d.holdCtx c i (shuttlePart (d.ctx c).home.toNat) none else f d

/-- A wait begins: the record says what is awaited (R126), and a deadline is met by the waits that R136 names. -/
def Dev.waitOn (d : Dev) (c : Nat) (w : Wait) (x : Bool) (kind sel wake : Nat) (meets : Bool) : Dev :=
  d.modCtx c fun y =>
    { y with state := .waiting, wait := w, waitX := x, rel := .none, waitKind := BitVec.ofNat 8 kind,
             waitSel := BitVec.ofNat 24 sel, wakeTime := BitVec.ofNat 48 wake,
             deadline := if meets then 0 else y.deadline }

/-- A wait of context `c` has ended without a fault: the instruction completes with `f`, and the context is READY. -/
def Dev.endWait (d : Dev) (c : Nat) (f : Ctx → Ctx) : Dev :=
  let len := if (d.ctx c).waitX then 2 else 1
  (((d.modCtx c fun x => (f x).noWait).ready c)).advancePc c len

end Sys2Proof.Machine
end

