-- ==== Sys2Proof/Machine/Flags.lean ====
section
/-! DEFINITION. The flags of a context and how results set them (R63 to R65). -/
namespace Sys2Proof.Machine
open Sys2Proof

/-- The flag word of six flags, at the places of R63. -/
def flagWord (z n c v f t : Bool) : BitVec 6 :=
  BitVec.ofNat 6 (b2n z + 2 * b2n n + 4 * b2n c + 8 * b2n v + 16 * b2n f + 32 * b2n t)

def Ctx.fZ (x : Ctx) : Bool := x.flags.getLsbD 0
def Ctx.fN (x : Ctx) : Bool := x.flags.getLsbD 1
def Ctx.fC (x : Ctx) : Bool := x.flags.getLsbD 2
def Ctx.fV (x : Ctx) : Bool := x.flags.getLsbD 3
def Ctx.fF (x : Ctx) : Bool := x.flags.getLsbD 4
def Ctx.fT (x : Ctx) : Bool := x.flags.getLsbD 5

/-- Z and N from a result, C and V as given; F and T stay. -/
def Ctx.setZNCV (x : Ctx) (r : W24) (c v : Bool) : Ctx :=
  { x with flags := flagWord (r == 0) r.msb c v x.fF x.fT }

/-- Z and N from a result; the others stay. -/
def Ctx.setZN (x : Ctx) (r : W24) : Ctx := { x with flags := flagWord (r == 0) r.msb x.fC x.fV x.fF x.fT }

def Ctx.setZ (x : Ctx) (z : Bool) : Ctx := { x with flags := flagWord z x.fN x.fC x.fV x.fF x.fT }
def Ctx.setC (x : Ctx) (c : Bool) : Ctx := { x with flags := flagWord x.fZ x.fN c x.fV x.fF x.fT }
def Ctx.setV (x : Ctx) (v : Bool) : Ctx := { x with flags := flagWord x.fZ x.fN x.fC v x.fF x.fT }
def Ctx.setF (x : Ctx) (f : Bool) : Ctx := { x with flags := flagWord x.fZ x.fN x.fC x.fV f x.fT }
def Ctx.setT (x : Ctx) (t : Bool) : Ctx := { x with flags := flagWord x.fZ x.fN x.fC x.fV x.fF t }

/-- C of an addition: the carry out of bit 23 (R64). -/
def addC (a b : W24) : Bool := decide (2 ^ 24 ≤ a.toNat + b.toNat)
/-- V of an addition: the signed sum does not fit 24 bits (R64). -/
def addV (a b : W24) : Bool := a.msb == b.msb && (a + b).msb != a.msb
/-- C of a subtraction: a borrow (R64). -/
def subC (a b : W24) : Bool := decide (a.toNat < b.toNat)
/-- V of a subtraction (R64). -/
def subV (a b : W24) : Bool := a.msb != b.msb && (a - b).msb != a.msb

/-- C of SHL by `n` (R79): the last bit out. -/
def shlC (a : W24) (n : Nat) : Bool := decide (1 ≤ n ∧ n ≤ 24) && a.getLsbD (24 - n)
/-- C of SHR by `n` (R79). -/
def shrC (a : W24) (n : Nat) : Bool := decide (1 ≤ n ∧ n ≤ 24) && a.getLsbD (n - 1)
/-- C of SAR by `n` (R79). -/
def sarC (a : W24) (n : Nat) : Bool := if n = 0 then false else if n < 24 then a.getLsbD (n - 1) else a.msb

/-- The condition codes of BR (R88). -/
def Ctx.cond (x : Ctx) : Nat → Bool
  | 0 => true
  | 1 => x.fZ
  | 2 => !x.fZ
  | 3 => x.fC
  | 4 => !x.fC
  | 5 => x.fC || x.fZ
  | 6 => !x.fC && !x.fZ
  | 7 => x.fN != x.fV
  | 8 => x.fN == x.fV
  | 9 => x.fZ || x.fN != x.fV
  | 10 => !x.fZ && x.fN == x.fV
  | 11 => x.fN
  | 12 => x.fV
  | 13 => x.fF
  | 14 => !x.fF
  | _ => x.fT

end Sys2Proof.Machine
end

