-- ==== Sys2Proof/Machine/Operands.lean ====
section
/-! DEFINITION. The operand forms of the Shuttle instruction set (R69 to R71) and the checks of an instruction's own
word, in the order of R117. -/
namespace Sys2Proof.Machine
open Sys2Proof

/-- The second operand b: w_s in RR form, the extension word in X form (R70). -/
def opB (x : Ctx) (i : RRX) : W24 := if i.x then i.ext else x.rw i.s.toNat

/-- The number of words of an instruction. -/
def wordsOf (i : RRX) : Nat := if i.x then 2 else 1

/-- A form that is not allowed (R70): ILLEGAL 0x0005. -/
def badForm (b : Bool) : Bool × BitVec 24 := (b, fIllegal 5)

/-- A register field that accepts 0 to 3 only, or d = s where forbidden (R71): ILLEGAL 0x0004. -/
def badIndex (b : Bool) : Bool × BitVec 24 := (b, fIllegal 4)

/-- A reserved field that is not 0 (R71): ILLEGAL 0x0003. -/
def badReserved (b : Bool) : Bool × BitVec 24 := (b, fIllegal 3)

/-- An undefined function value (R77): ILLEGAL 0x0002. -/
def badFunction (b : Bool) : Bool × BitVec 24 := (b, fIllegal 2)

/-- A field that the instruction does not use holds something. -/
def nz (v : BitVec 4) : Bool := v != 0

/-- A field that names an a or an lc register holds 4 to 15. -/
def above3 (v : BitVec 4) : Bool := decide (3 < v.toNat)

/-- The sign-extended 15-bit immediate of RI form, as 24 bits (R80). -/
def imm24 (i : RI) : W24 := i.imm.signExtend 24

/-- The sign-extended extension word, as an address offset (R81, R82). -/
def ext36 (w : W24) : W36 := w.signExtend 36

/-- The loom that a loom operand names; 31 is the home loom (R105, R109). -/
def loomOf (x : Ctx) (v : Nat) : Nat := if v = 31 then x.home.toNat else v

/-- A loom operand that names no loom: 24 to 30, or 31 from a core shuttle context (R108). -/
def badLoom (x : Ctx) (v : Nat) : Bool := decide (23 < loomOf x v)

end Sys2Proof.Machine
end

