-- ==== Sys2Proof/Machine/Adr.lean ====
section
/-! DEFINITION. The ADR group (R81). -/
namespace Sys2Proof.Machine
open Sys2Proof

def execAlea (c : CtxId) (i : RRX) (s : State) : Out :=
  lift s fun d => d.issue c i.x fun d x =>
    guarded [badIndex (above3 i.d || above3 i.s)]
      (.ok (d.setCtx c (x.setA i.d.toNat (x.ra i.s.toNat + (if i.x then ext36 i.ext else 0)))))

def execAadd (c : CtxId) (i : RRX) (s : State) : Out :=
  lift s fun d => d.issue c i.x fun d x =>
    guarded [badForm i.x, badIndex (above3 i.d)]
      (.ok (d.setCtx c (x.setA i.d.toNat (x.ra i.d.toNat + ext36 (x.rw i.s.toNat)))))

def execAhi (c : CtxId) (i : RRX) (s : State) : Out :=
  lift s fun d => d.issue c i.x fun d x =>
    guarded [badForm (!i.x), badIndex (above3 i.d), badReserved (nz i.s)]
      (.ok (d.setCtx c (x.setA i.d.toNat (BitVec.ofNat 36 (i.ext.toNat * 4096)))))

def execAsite (c : CtxId) (i : RRX) (s : State) : Out :=
  lift s fun d => d.issue c i.x fun d x =>
    guarded [badForm i.x, badIndex (above3 i.d), badReserved (nz i.s)]
      (.ok (d.setCtx c (x.setA i.d.toNat (BitVec.ofNat 36 (d.site x.site.toNat).addr.toNat))))

def execArdl (c : CtxId) (i : RRX) (s : State) : Out :=
  lift s fun d => d.issue c i.x fun d x =>
    guarded [badForm i.x, badIndex (above3 i.s)]
      (.ok (d.setCtx c (x.setW i.d.toNat ((x.ra i.s.toNat).setWidth 24))))

def execArdh (c : CtxId) (i : RRX) (s : State) : Out :=
  lift s fun d => d.issue c i.x fun d x =>
    guarded [badForm i.x, badIndex (above3 i.s)]
      (.ok (d.setCtx c (x.setW i.d.toNat (BitVec.ofNat 24 ((x.ra i.s.toNat).toNat / 2 ^ 24)))))

def execAwl (c : CtxId) (i : RRX) (s : State) : Out :=
  lift s fun d => d.issue c i.x fun d x =>
    guarded [badForm i.x, badIndex (above3 i.d)]
      (.ok (d.setCtx c (x.setA i.d.toNat
        (BitVec.ofNat 36 ((x.ra i.d.toNat).toNat / 2 ^ 24 * 2 ^ 24 + (x.rw i.s.toNat).toNat)))))

def execAwh (c : CtxId) (i : RRX) (s : State) : Out :=
  lift s fun d => d.issue c i.x fun d x =>
    guarded [badForm i.x, badIndex (above3 i.d)]
      (.ok (d.setCtx c (x.setA i.d.toNat
        (BitVec.ofNat 36 ((x.rw i.s.toNat).toNat % 2 ^ 12 * 2 ^ 24 + (x.ra i.d.toNat).toNat % 2 ^ 24)))))

/-- ACMP: Z and C from a_d − a_s; N and V cleared. -/
def execAcmp (c : CtxId) (i : RRX) (s : State) : Out :=
  lift s fun d => d.issue c i.x fun d x =>
    guarded [badForm i.x, badIndex (above3 i.d || above3 i.s)]
      (.ok (d.setCtx c { x with
        flags := flagWord (x.ra i.d.toNat == x.ra i.s.toNat) false
          (decide ((x.ra i.d.toNat).toNat < (x.ra i.s.toNat).toNat)) false x.fF x.fT }))

end Sys2Proof.Machine
end

