-- ==== Sys2Proof/Machine/Alu.lean ====
section
/-! DEFINITION. The ALU group and the immediate opcodes (R78 to R80). -/
namespace Sys2Proof.Machine
open Sys2Proof

/-- An ALU instruction: `f` takes the context, w_d and b. In X form, s is reserved (R78). -/
def Dev.alu (d : Dev) (c : Nat) (i : RRX) (f : Ctx → W24 → W24 → Ctx) : Dev :=
  d.issue c i.x fun d x =>
    guarded [badReserved (i.x && nz i.s)] (.ok (d.setCtx c (f x (x.rw i.d.toNat) (opB x i))))

/-- An immediate instruction (R80). -/
def Dev.aluImm (d : Dev) (c : Nat) (i : RI) (f : Ctx → W24 → W24 → Ctx) : Dev :=
  d.issue c false fun d x => .ok (d.setCtx c (f x (x.rw i.d.toNat) (imm24 i)))

/-- w_d takes a result that sets Z, N, C and V. -/
def Ctx.result (x : Ctx) (k : Nat) (r : W24) (c v : Bool) : Ctx := (x.setW k r).setZNCV r c v

def execAdd (c : CtxId) (i : RRX) (s : State) : Out :=
  lift s fun d => d.alu c i fun x a b => x.result i.d.toNat (a + b) (addC a b) (addV a b)

def execSub (c : CtxId) (i : RRX) (s : State) : Out :=
  lift s fun d => d.alu c i fun x a b => x.result i.d.toNat (a - b) (subC a b) (subV a b)

def execAnd (c : CtxId) (i : RRX) (s : State) : Out :=
  lift s fun d => d.alu c i fun x a b => x.result i.d.toNat (a &&& b) false false

def execOr (c : CtxId) (i : RRX) (s : State) : Out :=
  lift s fun d => d.alu c i fun x a b => x.result i.d.toNat (a ||| b) false false

def execXor (c : CtxId) (i : RRX) (s : State) : Out :=
  lift s fun d => d.alu c i fun x a b => x.result i.d.toNat (a ^^^ b) false false

def execMov (c : CtxId) (i : RRX) (s : State) : Out :=
  lift s fun d => d.alu c i fun x _ b => x.setW i.d.toNat b

def execCmp (c : CtxId) (i : RRX) (s : State) : Out :=
  lift s fun d => d.alu c i fun x a b => x.setZNCV (a - b) (subC a b) (subV a b)

def execTst (c : CtxId) (i : RRX) (s : State) : Out :=
  lift s fun d => d.alu c i fun x a b => x.setZNCV (a &&& b) false false

/-- The count of a shift: b[4:0] (R78). -/
def shiftCount (b : W24) : Nat := b.toNat % 32

/-- SHL sets Z, N and C (R78, R79). -/
def execShl (c : CtxId) (i : RRX) (s : State) : Out :=
  lift s fun d => d.alu c i fun x a b =>
    let r := a <<< shiftCount b
    ((x.setW i.d.toNat r).setZN r).setC (shlC a (shiftCount b))

def execShr (c : CtxId) (i : RRX) (s : State) : Out :=
  lift s fun d => d.alu c i fun x a b =>
    let r := a >>> shiftCount b
    ((x.setW i.d.toNat r).setZN r).setC (shrC a (shiftCount b))

def execSar (c : CtxId) (i : RRX) (s : State) : Out :=
  lift s fun d => d.alu c i fun x a b =>
    let r := a.sshiftRight (shiftCount b)
    ((x.setW i.d.toNat r).setZN r).setC (sarC a (shiftCount b))

/-- V of MUL: the signed product does not fit 24 bits (R78). -/
def mulV (a b : W24) : Bool := decide (a.toInt * b.toInt < -2 ^ 23 ∨ 2 ^ 23 ≤ a.toInt * b.toInt)

def execMul (c : CtxId) (i : RRX) (s : State) : Out :=
  lift s fun d => d.alu c i fun x a b => x.result i.d.toNat (a * b) false (mulV a b)

/-- Bits [47:24] of a product (R78). -/
def highHalf (p : Int) : W24 := BitVec.ofInt 24 (p / 2 ^ 24)

def execMulh (c : CtxId) (i : RRX) (s : State) : Out :=
  lift s fun d => d.alu c i fun x a b => x.result i.d.toNat (highHalf (a.toInt * b.toInt)) false false

def execMulhu (c : CtxId) (i : RRX) (s : State) : Out :=
  lift s fun d => d.alu c i fun x a b => x.result i.d.toNat (highHalf (Int.ofNat (a.toNat * b.toNat))) false false

def execNot (c : CtxId) (i : RRX) (s : State) : Out :=
  lift s fun d => d.alu c i fun x _ b => x.result i.d.toNat (~~~b) false false

def execNeg (c : CtxId) (i : RRX) (s : State) : Out :=
  lift s fun d => d.alu c i fun x _ b => x.result i.d.toNat (0 - b) (subC 0 b) (subV 0 b)

def execMin (c : CtxId) (i : RRX) (s : State) : Out :=
  lift s fun d => d.alu c i fun x a b => x.result i.d.toNat (if a.toInt ≤ b.toInt then a else b) false false

def execMax (c : CtxId) (i : RRX) (s : State) : Out :=
  lift s fun d => d.alu c i fun x a b => x.result i.d.toNat (if a.toInt ≤ b.toInt then b else a) false false

def execAbs (c : CtxId) (i : RRX) (s : State) : Out :=
  lift s fun d => d.alu c i fun x _ b =>
    x.result i.d.toNat (if b.msb then 0 - b else b) false (b == 0x800000)

def execAddi (c : CtxId) (i : RI) (s : State) : Out :=
  lift s fun d => d.aluImm c i fun x a b => x.result i.d.toNat (a + b) (addC a b) (addV a b)

def execMovi (c : CtxId) (i : RI) (s : State) : Out :=
  lift s fun d => d.aluImm c i fun x _ b => x.result i.d.toNat b false false

def execCmpi (c : CtxId) (i : RI) (s : State) : Out :=
  lift s fun d => d.aluImm c i fun x a b => x.setZNCV (a - b) (subC a b) (subV a b)

def execAndi (c : CtxId) (i : RI) (s : State) : Out :=
  lift s fun d => d.aluImm c i fun x a b => x.result i.d.toNat (a &&& b) false false

def execOri (c : CtxId) (i : RI) (s : State) : Out :=
  lift s fun d => d.aluImm c i fun x a b => x.result i.d.toNat (a ||| b) false false

end Sys2Proof.Machine
end

