-- ==== Sys2Proof/Machine/ChanOps.lean ====
section
/-! DEFINITION. What the channel rules share: roles, forcing, the force guard, trips and ramps (R55, R150 to R182). -/
namespace Sys2Proof.Machine
open Sys2Proof

def Dev.chan (d : Dev) (c : Nat) : Chan := Tab.get {} d.chans c
def Dev.setChan (d : Dev) (c : Nat) (x : Chan) : Dev := { d with chans := Tab.set {} d.chans c x }
def Dev.modChan (d : Dev) (c : Nat) (f : Chan → Chan) : Dev := d.setChan c (f (d.chan c))

def Dev.chMode (d : Dev) (c : Nat) : Nat := d.rd (Reg.CHAN.CTRL.mode c)
def Dev.chRole (d : Dev) (c : Nat) : Nat := d.rd (Reg.CHAN.STATUS.role c)
def Dev.chConn (d : Dev) (c : Nat) : Bool := d.on (Reg.CHAN.CTRL.conn c)
def Dev.chForce (d : Dev) (c : Nat) : Int := sext 24 (d.rd (Reg.CHAN.FORCE_CODE.code c))

/-- The voltage code of 0 V (R148). -/
def zeroVolt : Nat := 0xB8E38E

/-- Channels in the gang that channel `c` leads, by its gang field (R166). -/
def Dev.gangSize (d : Dev) (c : Nat) : Nat := 2 ^ d.rd (Reg.CHAN.CTRL.gang c)

/-- Whether channel `c` is the even channel of a booster pair (R176). -/
def Dev.evenOfPair (d : Dev) (c : Nat) : Bool := d.chRole c == 1 && d.rd (Reg.CHAN.CTRL.gang c) == 0
/-- Whether channel `c` is the odd channel of a booster pair. -/
def Dev.oddOfPair (d : Dev) (c : Nat) : Bool := d.chRole c == 3

/-- The channel whose fields govern channel `c`: its gang leader, or the even channel of its pair (R167, R177). -/
def Dev.lead (d : Dev) (c : Nat) : Nat :=
  if d.chRole c = 3 then c - 1
  else if d.chRole c = 2 then
    (([2, 4, 8].map fun m => c - c % m).find? fun l =>
      d.chRole l == 1 && d.rd (Reg.CHAN.CTRL.gang l) != 0 && decide (c < l + d.gangSize l)).getD c
  else c

/-- The channels that act together with channel `c`, itself included. -/
def Dev.group (d : Dev) (c : Nat) : List Nat :=
  let l := d.lead c
  if d.chRole l = 1 then
    if d.rd (Reg.CHAN.CTRL.gang l) = 0 then [l, l + 1] else (List.range (d.gangSize l)).map (l + ·)
  else [c]

/-- A mode that forces (R151). -/
def forceMode (m : Nat) : Bool := m == 1 || m == 2 || m == 4 || m == 5

/-- Whether channel `c` forces (R151). -/
def Dev.forcing (d : Dev) (c : Nat) : Bool := forceMode (d.chMode (d.lead c)) && d.chConn (d.lead c)

/-- Whether the selvedge may drive and judge channel `c` (R225). -/
def Dev.patUsable (d : Dev) (c : Nat) : Bool :=
  d.chConn c && (d.chMode c == 0 || d.chMode c == 3) && d.chRole c == 0 && !d.on (Reg.CHAN.STATUS.husk_over c)
    && ((d.chan c).ramp == .none || (d.chan c).ramp == .pattern)

/-- The pattern driver of a channel that the selvedge may not drive is off (R225). -/
def Dev.dropDrive (d : Dev) (c : Nat) : Dev :=
  let x := d.chan c
  if d.patUsable c ∨ (x.drv = .off ∧ x.carry = []) then d else d.setChan c { x with drv := .off, carry := [] }

/-- The same for every channel of a group. -/
def Dev.dropDrives (d : Dev) (c : Nat) : Dev := (d.group c).foldl (fun d k => d.dropDrive k) d

/-- The base of a channel's monitor: MON_A, or MON_B where `b` (R212). -/
def monBase (c : Nat) (b : Bool) : Nat := 0x90000 + 0x20 * c + (if b then 0x10 else 0)

/-- A guard monitor that reads outside its window (R208). -/
def Dev.guardOut (d : Dev) (base : Nat) : Bool :=
  d.on (Reg.MON.CTRL.guard_block base) && d.rd (Reg.MON.STATE.state base) != 3

/-- Whether a husk flag or boost_trip of channel `c` is set. -/
def Dev.huskFlagged (d : Dev) (c : Nat) : Bool :=
  d.on (Reg.CHAN.STATUS.husk_over c) || d.on (Reg.CHAN.STATUS.husk_short c) || d.on (Reg.CHAN.STATUS.husk_open c)
    || d.on (Reg.CHAN.STATUS.husk_reverse c) || d.on (Reg.CHAN.STATUS.boost_trip c)

/-- A flagged condition holds for channel `c` (R171). -/
def Dev.flagged (d : Dev) (c : Nat) : Bool :=
  (d.group c).any (fun k => d.huskFlagged k || (d.chan k).ramp != .none)
    || d.guardOut (monBase c false) || d.guardOut (monBase c true)

/-- A field of STATUS takes a value in every channel of the group of `c`. -/
def Dev.groupWr (d : Dev) (c : Nat) (f : Nat → Fld) (v : Nat) : Dev := (d.group c).foldl (fun d k => d.wr (f k) v) d

/-- The channels that act with `c` have not settled (R186). -/
def Dev.unsettle (d : Dev) (c : Nat) : Dev := d.groupWr c Reg.CHAN.STATUS.settled 0

/-- The trips of a channel's monitors are disarmed (R209). -/
def Dev.disarm1 (d : Dev) (c : Nat) : Dev :=
  (d.wr (Reg.MON.STATE.trip_armed (monBase c false)) 0).wr (Reg.MON.STATE.trip_armed (monBase c true)) 0

/-- The trips of every channel of the group are disarmed: it has stopped forcing (R209). -/
def Dev.disarmTrips (d : Dev) (c : Nat) : Dev := (d.group c).foldl (fun d k => d.disarm1 k) d

/-- Whether a waveform source drives or drains: ON or DRAINING (R275, R286). -/
def Dev.wfmActive (d : Dev) (c : Nat) : Bool :=
  let s := d.rd (Reg.WFM.STATUS.state c)
  decide (1 ≤ s ∧ s ≤ 4)

/-- The source of channel `c` ends at its next output instant for a cause (R284); one whose run has ended and that ramps only
does not end again. -/
def Dev.wfmCause (d : Dev) (c cause : Nat) : Dev :=
  let w : Wfm := Tab.get {} d.wfms c
  if d.wfmActive c && !(d.rd (Reg.WFM.STATUS.state c) == 4 && w.endReq.isNone) then
    { d with wfms := Tab.set {} d.wfms c { w with endReq := some (w.endReq.getD cause) } }
  else d

/-- A reading lies near a nominal value: within 2 % of its distance from `zero`, and 0.1 % of the code span. This holds the
parking resistance's ± 1 % and the accuracy of R187 and R188, and more (log entry 99). -/
def nearCode (zero nom : Int) (r : BitVec 24) : Bool := decide ((r.toInt - nom).natAbs ≤ (nom - zero).natAbs / 50 + 16777)

/-- The voltage code of 0 V as a signed number. -/
def zeroCode : Int := sext 24 zeroVolt

/-- The partition of a source's reads (R37). -/
def wavePart (c : Nat) : Partition := .shared ⟨c / 32 % 24, Nat.mod_lt _ (by decide)⟩ (.wave ⟨c % 32, Nat.mod_lt _ (by decide)⟩)

/-- A sample at an end of the code range (R162). -/
def overRange (v : BitVec 24) : Bool := v == 0x800000 || v == 0x7FFFFF

/-- The level of a 16-bit clamp code as a 24-bit code (R148). -/
def level24 (v : Nat) : Int := sext 16 v * 256

/-- A code with 24 fraction bits (R178). -/
def fracs (v : Int) : Int := v * 2 ^ 24

/-- The voltage clamps of channel `c`, low and high, as voltage codes. -/
def Dev.vLo (d : Dev) (c : Nat) : Int := level24 (d.rd (Reg.CHAN.VCLAMP.lo c))
def Dev.vHi (d : Dev) (c : Nat) : Int := level24 (d.rd (Reg.CHAN.VCLAMP.hi c))

/-- A voltage code held within the voltage clamps of channel `c`, with 24 fraction bits. -/
def Dev.clampOut (d : Dev) (c : Nat) (v : Int) : Int := clampI (fracs (d.vLo c)) (fracs (d.vHi c)) v

/-- Whether a voltage clamp of channel `c` acts as its set-point alone tells: in modes 1 and 4 the set-point lies outside
them, in mode 5 u rests at one (R163, R180). In mode 2 a reading tells it. No clamp acts on a force path that ramps to its off level
(R55; DEDUCED, log entry 118). -/
def Dev.clampHolds (d : Dev) (c : Nat) : Bool :=
  let m := d.chMode c
  if (d.chan c).rampFrom.isSome then false
  else if m = 1 ∨ m = 4 then decide (d.chForce c < d.vLo c) || decide (d.vHi c < d.chForce c)
  else if m = 5 then decide ((d.chan c).u = fracs (d.vLo c)) || decide ((d.chan c).u = fracs (d.vHi c))
  else false

/-- vclamp_act after a change of the set-point or of the clamps: in mode 2 it stays until the next reading (R163). -/
def Dev.clampForce (d : Dev) (c : Nat) : Dev :=
  if d.chMode c = 2 then d else d.wr (Reg.CHAN.STATUS.vclamp_act c) (b2n (d.clampHolds c))

/-- The clamp flags after a change of mode or connection: no reading has shown a clamp acting yet (R163). -/
def Dev.clampAfresh (d : Dev) (c : Nat) : Dev :=
  ((d.groupWr c Reg.CHAN.STATUS.iclamp_act 0).groupWr c Reg.CHAN.STATUS.vclamp_act 0).wr (Reg.CHAN.STATUS.vclamp_act c) (b2n (d.clampHolds c))

/-- In mode 4 the control output follows FORCE_CODE within the control limits (R174, R191). -/
def Dev.outFollows (d : Dev) (c : Nat) : Dev :=
  if d.chMode c = 4 then d.modChan c fun x => { x with uOut := d.clampOut c (fracs (d.chForce c)) } else d

/-- cv_active: the loop is closed and x differs from CC (R180). -/
def Dev.cvFlag (d : Dev) (e : Nat) : Dev :=
  d.wr (Reg.CHAN.STATUS.cv_active e) (b2n (!(d.chan e).loopOpen && decide ((d.chan e).x ≠ fracs (d.chForce e))))

/-- FORCE_CODE takes a new value (R150, R180, R186). -/
def Dev.setForce (d : Dev) (c v : Nat) : Dev := ((((d.wr (Reg.CHAN.FORCE_CODE.code c) v).unsettle c).clampForce c).outFollows c).cvFlag c

/-- The ramp of a channel that leaves force, held by the channel that governs it (R55, R154, R169, R182). -/
def Dev.rampOf (d : Dev) (c : Nat) (off : Bool) : Ramp := if d.evenOfPair (d.lead c) then .booster 1 off else .force off

/-- The voltage from which a force path ramps: its set-point within the clamps in force-voltage mode, and in
force-current mode the measured ball voltage, which it first forces without a step (R55). -/
def Dev.rampLevel (d : Dev) (l : Nat) : BitVec 24 :=
  if d.chMode l = 2 then (d.chan l).vNow else BitVec.ofInt 24 (clampI (d.vLo l) (d.vHi l) (d.chForce l))

/-- A hold and ramp begins; where one runs already, its end turns the channel Off too if this one does. A force path forces the
voltage of its ramp, on which no voltage clamp acts (R55). -/
def Dev.startRamp (d : Dev) (c : Nat) (off : Bool) : Dev :=
  let l := d.lead c
  let r : Ramp := match (d.chan l).ramp with
    | .force o => .force (o || off)
    | .booster k o => .booster k (o || off)
    | _ => d.rampOf c off
  let e := (d.modChan l fun x => { x with ramp := r, rampFrom := x.rampFrom.or (if d.evenOfPair l then none else some (d.rampLevel l)) }).unsettle l
  if d.evenOfPair l then e else e.groupWr l Reg.CHAN.STATUS.vclamp_act 0

/-- A trip of channel `c`: its group holds and ramps, and its mode becomes Off (R169, R170, R209). -/
def Dev.trip (d : Dev) (c : Nat) : Dev :=
  if d.forcing c then ((d.startRamp c true).modChan (d.lead c) fun x => { x with tripRamp := true }).wfmCause (d.lead c) 4 else d

/-- A husk flag is set (R170). -/
def Dev.huskFlag (d : Dev) (f : Fld) (c : Nat) : Dev := (d.wr f 1).evc 0x32 (c / 32)

/-- The level fields of the odd channel return to reset, and the pair ends (R177). -/
def Dev.pairEnd (d : Dev) (e : Nat) : Dev :=
  let o := e + 1
  let rst (d : Dev) (f : Fld) : Dev := d.wr f f.rst
  let d := (d.wr (Reg.CHAN.STATUS.role e) 0).wr (Reg.CHAN.STATUS.role o) 0
  let d := [Reg.CHAN.LVL_DRV.vil o, Reg.CHAN.LVL_DRV.vih o, Reg.CHAN.LVL_CMP.vol o, Reg.CHAN.LVL_CMP.voh o, Reg.CHAN.RATE.vt o].foldl rst d
  ((d.modChan e fun x => { x with ramp := .none, tripRamp := false, uQueue := [], tripCount := 0, loopOpen := true }).cvFlag e).clampAfresh e

/-- A waveform source whose drain has ramped shows OFF once no transaction of it is in flight (R51, R286); one whose end is still due
keeps draining until then. -/
def Dev.wfmRamped (d : Dev) (c : Nat) : Dev :=
  if d.rd (Reg.WFM.STATUS.state c) = 4 ∧ (Tab.get {} d.wfms c : Wfm).endReq.isNone ∧ d.noAccess (wavePart c) then d.wr (Reg.WFM.STATUS.state c) 0 else d

/-- The channel's mode becomes Off. -/
def Dev.modeOff (d : Dev) (l : Nat) : Dev := ((d.wr (Reg.CHAN.CTRL.mode l) 0).disarmTrips l).clampAfresh l

end Sys2Proof.Machine
end

