-- ==== Sys2Proof/Machine/PatOps.lean ====
section
/-! DEFINITION. What the rules of the pattern path share: loom errors (R541 to R543), timing sets (R227 to R230),
the bobbin's supply of vectors (R41, R252 to R256) and the Twill generator (R267, R268). -/
namespace Sys2Proof.Machine
open Sys2Proof

def Dev.pat (d : Dev) (n : Nat) : Pat := Tab.get {} d.pats n
def Dev.setPat (d : Dev) (n : Nat) (p : Pat) : Dev := { d with pats := Tab.set {} d.pats n p }
def Dev.modPat (d : Dev) (n : Nat) (f : Pat → Pat) : Dev := d.setPat n (f (d.pat n))
def Dev.modBurst (d : Dev) (n : Nat) (f : Burst → Burst) : Dev := d.modPat n fun p => { p with burst := p.burst.map f }
/-- Whether a burst runs on loom `n` (R625): `SEL_STATUS`.running. -/
def Dev.patRunning (d : Dev) (n : Nat) : Bool := (d.pat n).burst.isSome

/-! Loom errors. -/

def Dev.box (d : Dev) (n : Nat) : Contain := Tab.get {} d.contain n
def Dev.modBox (d : Dev) (n : Nat) (f : Contain → Contain) : Dev := { d with contain := Tab.set {} d.contain n (f (d.box n)) }

/-- The error window in ticks: a window of 0 acts as 1 ms (R561). -/
def Dev.errWindow (d : Dev) : Nat := max (d.rd Reg.GLB_ERR_CFG.window) 1 * 100000

/-- err_recent: the errors of loom `n` within the window (R542). -/
def Dev.errRecent (d : Dev) (n : Nat) : Nat := ((d.box n).errs.filter fun t => decide (d.elapsed t < d.errWindow)).length

/-- A quarantine of loom `n` is asked for; it begins within 2 µs (R543). -/
def Dev.askQuar (d : Dev) (n cause : Nat) : Dev :=
  if d.quar n then d else d.modBox n fun b => { b with pend := some (b.pend.getD cause) }

/-- A loom error of kind 1 to 6 (R541 to R543). -/
def Dev.loomErr (d : Dev) (n kind : Nat) : Dev :=
  let d := d.modBox n fun b => { b with errs := (b.errs.filter fun t => decide (d.elapsed t < d.errWindow)) ++ [d.reed.time] }
  let d := ((d.logRec 0x20 (n + 32 * kind)).flag Reg.GLB_ERR_STATUS.loom_err).evc 0x3B n
  if kind = 5 then d.askQuar n 2
  else if kind = 6 then d.askQuar n 3
  else if d.rd Reg.GLB_ERR_CFG.threshold ≠ 0 ∧ d.rd Reg.GLB_ERR_CFG.threshold ≤ d.errRecent n then d.askQuar n 1
  else d

/-! Timing sets: a table by 320 × set + slot of the window (R247). -/

/-- The reset value of a slot of the timing-set window (R247). -/
def tsReset (slot : Nat) : BitVec 32 :=
  if slot = 0 then 0x140
  else if slot < 64 then 0
  else if slot % 8 = 2 ∨ slot % 8 = 3 then 0x14000
  else if slot % 8 = 5 then 4
  else 0

/-- The bits of a slot that a write stores (R247). -/
def tsMask (slot : Nat) : BitVec 32 :=
  if slot = 0 then 0xFFFFFFFF
  else if slot = 1 then 0x1FF
  else if slot < 64 ∨ 5 < slot % 8 then 0
  else if slot % 8 = 5 then 7
  else 0xFFFFFFFF

def tsGet (t : Tab (BitVec 32)) (set slot : Nat) : BitVec 32 := Tab.get (tsReset slot) t (320 * set + slot)
def tsSet (t : Tab (BitVec 32)) (set slot : Nat) (v : BitVec 32) : Tab (BitVec 32) := Tab.set (tsReset slot) t (320 * set + slot) v

/-- A time value in taps (R228). -/
def taps (v : BitVec 32) : Nat := bits v.toNat 9 23 * 320 + bits v.toNat 0 9

/-- The period of a set, in taps. -/
def tsPeriod (t : Tab (BitVec 32)) (set : Nat) : Nat := (tsGet t set 0).toNat * 320 + (tsGet t set 1).toNat
/-- Word `j` of pin `k` (0 E0, 1 E1, 2 E2, 3 E3, 4 w, 5 format and term). -/
def tsPin (t : Tab (BitVec 32)) (set k j : Nat) : BitVec 32 := tsGet t set (64 + 8 * k + j)

/-- 1.25 ns, 625 ps and 80 ns in taps. -/
def minPeriod : Nat := 1280
def halfMin : Nat := 640
def strobeReach : Nat := 81920

/-- The reason for which R229 refuses pin `k` of a set whose period is `p`. -/
def tsPinReason (t : Tab (BitVec 32)) (set p k : Nat) : Option Nat :=
  let e (j : Nat) : Nat := taps (tsPin t set k j)
  if (List.range 5).any fun j => decide (319 < bits (tsPin t set k j).toNat 0 9) then some 2
  else if ¬ (e 0 ≤ e 1 ∧ e 1 < p) then some 3
  else if ¬ (e 1 + halfMin ≤ e 2 ∧ e 2 + halfMin ≤ e 1 + p) then some 4
  else if ¬ (e 3 + e 4 < p + strobeReach) then some 5
  else none

/-- The first pin and reason for which R229 refuses a set; the period comes first. -/
def tsSetReason (t : Tab (BitVec 32)) (set : Nat) : Option (Nat × Nat) :=
  let p := tsPeriod t set
  if p < minPeriod then some (0, 1)
  else if 319 < (tsGet t set 1).toNat then some (0, 2)
  else (List.range 32).findSome? fun k => (tsPinReason t set p k).map fun r => (k, r)

/-- The first failing set, pin and reason of R229. -/
def tsReason (t : Tab (BitVec 32)) : Option (Nat × Nat × Nat) :=
  (List.range 32).findSome? fun set => (tsSetReason t set).map fun r => (set, r)

/-- A pending commit takes effect at the start of a vector, or with no burst running (R230). -/
def Pat.applyCommit (p : Pat) : Pat := { p with active := p.commit.getD p.active, commit := none, trims := none }

/-! Supply. -/

/-- A vector from the two lines that can hold it, byte `o` on (R215). -/
def vecOf (l0 l1 : BitVec 512) (o : Nat) : BitVec 144 :=
  BitVec.ofNat 144 ((l0.toNat + 2 ^ 512 * l1.toNat) / 2 ^ (8 * o))

/-- What the bobbin holds at a place: a vector, a lost line, or nothing yet. -/
inductive Supply1 where
  | vec (v : BitVec 144)
  | lost
  | empty
  deriving DecidableEq, Repr

/-- Vector `v` of pass `p` of an entry (R48, R255). -/
def Entry.vector (e : Entry) (p v : Nat) : Supply1 :=
  let l0 := 18 * v / 64
  let l1 := (18 * v + 17) / 64
  let o := 18 * v % 64
  if p < e.copyTill then .vec (vecOf (e.copy[l0]?.getD 0) (e.copy[l1]?.getD 0) o)
  else
    let a := p * e.desc.passLines
    match e.lines[a + l0 - e.base]?, e.lines[a + l1 - e.base]? with
    | some (.data x), some (.data y) => .vec (vecOf x y o)
    | some .lost, _ => .lost
    | _, some .lost => .lost
    | _, _ => .empty

/-- Lines of an entry before its first lost line. -/
def Entry.sound (e : Entry) : Nat := e.base + (e.lines.takeWhile (· != .lost)).length
def Entry.hasLost (e : Entry) : Bool := e.lines.contains .lost

/-- Vectors that an entry can deliver from vector `v` of pass `p` on, of those that it will play. -/
def Entry.avail (e : Entry) (p v : Nat) : Nat :=
  let all := e.desc.passes * e.desc.length
  let l := max e.desc.passLines 1
  let have_ := if e.desc.passes ≤ e.copyTill then all
    else max (e.copyTill * e.desc.length) (e.sound / l * e.desc.length + e.sound % l * 64 / 18)
  min all have_ - (p * e.desc.length + v)

/-- Vectors of the burst that are held from the place of play on, and whether a lost line follows them (R43, R258). -/
def Burst.avail (b : Burst) : Nat × Bool :=
  match b.ents with
  | [] => (0, b.descLost)
  | e :: t =>
    t.foldl (fun r x => if r.2 then r else (r.1 + x.avail 0 0, x.hasLost)) (e.avail b.pass b.pos, e.hasLost)

/-- The run has been fetched to its end. -/
def Burst.fetched (b : Burst) : Bool :=
  match b.ents.getLast? with
  | none => b.closed
  | some e => e.full && (b.closed || e.desc.last || b.mloop)

/-- `k` vectors are held, or the rest of the burst (R43, R263, R264). A burst whose next line is lost holds all that it will play:
it starts, and ends at the place of that line (DEDUCED from R43 and R48, log entry 102). -/
def Burst.holds (b : Burst) (k : Nat) : Bool := decide (k ≤ b.avail.1) || b.avail.2 || (b.fetched && b.await.isNone)

/-- Vectors resident in the loop window, and with those of segments being loaded as they stream (R256). -/
def Pat.winUsed (p : Pat) : Nat := p.window.foldl (fun k s => k + s.desc.length) 0
def Pat.winHeld (p : Pat) : Nat :=
  p.winUsed + (match p.burst with
    | none => 0
    | some b => b.ents.foldl (fun k e => k + (if e.load && !p.window.any (·.seg == e.seg) then e.desc.length else 0)) 0)

/-- The loop window is emptied, and no load goes on (R257). -/
def Pat.emptyWindow (p : Pat) : Pat :=
  { p with window := [], loads := [], burst := p.burst.map fun b => { b with ents := b.ents.map fun e => { e with load := false } } }

/-- What the window holds beside segment `s`. -/
def Pat.winOthers (p : Pat) (s : Nat) : Nat :=
  p.winHeld - (match p.burst with
    | none => 0
    | some b => b.ents.foldl (fun k e => k + (if e.load && e.seg == s && !p.window.any (·.seg == s) then e.desc.length else 0)) 0)

/-- Vectors of an entry that can be delivered from vector `v` of pass `p` on: from the loop window, and streamed. -/
def Entry.parts (e : Entry) (p v : Nat) : Nat × Nat :=
  let all := e.avail p v
  let kept := min all (min e.copyTill e.desc.passes * e.desc.length - (p * e.desc.length + v))
  (kept, all - kept)

/-- The streamed vectors that the burst holds: in the elastic FIFO, which takes the next 128 of the run, and in the bobbin's
streaming part (R41, R271). -/
def Burst.streamed (b : Burst) : Nat × Nat :=
  let put := fun (r : Nat × Nat × Nat) (q : Nat × Nat) =>
    let a := min r.1 q.1
    let f := min (r.1 - a) q.2
    (r.1 - a - f, r.2.1 + f, r.2.2 + (q.2 - f))
  let r := match b.ents with
    | [] => (128, 0, 0)
    | e :: t => t.foldl (fun r (x : Entry) => put r (x.parts 0 0)) (put (128, 0, 0) (e.parts b.pass b.pos))
  (r.2.1, r.2.2)

/-- Lines of streamed passes that are held, and the number that the streaming capacity and the FIFO allow (R41). -/
def Burst.lineCount (b : Burst) : Nat := b.ents.foldl (fun k e => k + e.lines.length) 0
def Pat.lineRoom (p : Pat) (b : Burst) : Nat := (16384 - p.winUsed + b.streamed.1) * 18 / 64

/-- The run as followed ahead goes round in resident segments: more entries into them stand in a row than there are such segments,
so that no request is to come from following it further. -/
def Pat.circles (p : Pat) (b : Burst) : Bool :=
  decide (p.window.length < (b.ents.reverse.takeWhile fun x => p.window.any (·.seg == x.seg)).length)

/-- An entry into segment `s`: from the loop window, or streamed, and loaded where it is pinned and fits (R253 to R256). -/
def Pat.entryFor (p : Pat) (s : Nat) (e : Desc) : Entry :=
  match p.window.find? (·.seg == s) with
  | some w => { seg := s, desc := w.desc, copyTill := w.desc.passes, copy := w.lines, base := w.desc.passes * w.desc.passLines }
  | none => { seg := s, desc := e, load := e.pinned && decide (p.winHeld + e.length ≤ 8192) }

/-- A jump latched ends the pass that plays and sends the run to its target (R260). -/
def Burst.jumpTo (b : Burst) (t : Nat) : Burst :=
  match b.ents with
  | [] => b
  | e :: _ =>
    let one := (b.pass + 1) * e.desc.passLines
    let e' := { e with desc := { e.desc with loops := b.pass + 1, next := t, last := false }, stored := some (e.stored.getD e.desc), lines := e.lines.take (one - e.base) }
    { b with ents := [e'], await := none, closed := false, descLost := false }

/-- Requests in flight whose lines are wanted. -/
def Pat.asked (p : Pat) : Nat := (p.reqs.filter (·.want)).length

/-- The run goes on at the segment after its last entry, once every line before it has been asked for and while the streaming
capacity allows a line more: at once into a resident segment, otherwise by a descriptor fetch (R252, R253, R255). An entry
into a segment that is being loaded waits for the end of the load. -/
def Pat.fetchNext : Nat → Pat → Burst → Burst
  | 0, _, b => b
  | k + 1, p, b =>
    match b.ents.getLast? with
    | none => b
    | some e =>
      if b.await.isSome || b.closed || b.mloop || e.desc.last || b.ended.isSome || decide (p.asked < b.wants) || b.ents.any (·.hasLost)
          || decide (p.lineRoom b ≤ b.lineCount) || p.circles b || b.ents.any (fun x => x.load && x.seg == e.desc.next) then b
      else if p.window.any (·.seg == e.desc.next) then
        Pat.fetchNext k p { b with ents := b.ents ++ [p.entryFor e.desc.next {}] }
      else { b with await := some e.desc.next }

/-- Refill requests that loom `n` issues now: for lines wanted and not asked for, as credits and the streaming capacity allow
(R37, R255). -/
def Dev.refillNow (d : Dev) (n : Nat) : Nat :=
  let p := d.pat n
  match p.burst with
  | none => 0
  | some b => if d.granOpen && (Tab.get [] d.waitGran n).isEmpty then min (b.wants - p.asked) (min (96 - d.inUseOf n) (p.lineRoom b - b.lineCount - p.asked)) else 0

/-- The refill partition of loom `n`. -/
def refillPart (n : Nat) : Partition := .refill ⟨n % 24, Nat.mod_lt _ (by decide)⟩

/-- The descriptor that the run awaits is asked for, where a credit is free (R33, R37, R253). -/
def Dev.descAsk (d : Dev) (n : Nat) : Dev :=
  match (d.pat n).burst.bind (·.await) with
  | some s => if !(d.pat n).descs.contains (some s) && d.mayAccess (refillPart n) then d.modPat n fun p => { p with descs := p.descs ++ [some s] } else d
  | none => d

/-- Fetching goes on as far as it may: requests are issued, and the run is followed (R255). -/
def Dev.fetchOn (d : Dev) (n : Nat) : Dev :=
  let k := d.refillNow n
  let d := d.modPat n fun p =>
    let p := { p with reqs := p.reqs ++ List.replicate k (⟨d.reed.time, true⟩ : Req) }
    { p with burst := p.burst.map (p.fetchNext (p.window.length + 2)) }
  (d.descAsk n).notePeaks (refillPart n) 0

/-! The Twill generator. -/

/-- One action on a counter: the new value and its wrap (R267). -/
def twAct (a lo hi cm act : Nat) : Nat × Bool :=
  if act = 1 then (if hi ≤ a then (lo, true) else (a + 1, false))
  else if act = 2 then (if a ≤ lo then (hi, true) else (a - 1, false))
  else if act = 3 then (a ^^^ cm, false)
  else (a, false)

/-- Bit `i` of a 24-bit word; 0 beyond (R267). -/
def twBit (v i : Nat) : Bool := decide (i < 24) && bit v i

/-- Entry into a segment loads X and Y (R267). -/
def Dev.twEnter (d : Dev) (n op : Nat) : Dev :=
  let d := if d.on (Reg.TW.OP.xload n op) then
    d.wr (Reg.TW.X.x n) (if d.rd (Reg.TW.OP.xact n op) = 2 then d.rd (Reg.TW.XMAX.xmax n) else d.rd (Reg.TW.XMIN.xmin n)) else d
  if d.on (Reg.TW.OP.yload n op) then
    d.wr (Reg.TW.Y.y n) (if d.rd (Reg.TW.OP.yact n op) = 2 then d.rd (Reg.TW.YMAX.ymax n) else d.rd (Reg.TW.YMIN.ymin n)) else d

/-- The data word D under instruction `op` at step `g` (R267, R268). -/
def Dev.twData (d : Dev) (n op g : Nat) : Nat :=
  let x := d.rd (Reg.TW.X.x n)
  let y := d.rd (Reg.TW.Y.y n)
  let bg := d.rd (Reg.TW.BG.bg n)
  let m := d.rd (Reg.TW.OP.dmode n op)
  let sel := d.rd (Reg.TW.SCR_SEL.sel n)
  let v := if m = 1 then (if bit x 0 != bit y 0 then bg ^^^ 0xFFFFFF else bg)
    else if m = 2 then
      let i := maskTo (fun j => let s := bits sel (6 * j) 6; twBit (if bit s 5 then y else x) (s % 32)) 5
      bg ^^^ d.rd (Reg.TW.SCR.word n i)
    else bg
  if bit (d.rd (Reg.TW.OP.dinv n op)) g then v ^^^ 0xFFFFFF else v

/-- The 32 bits attached to a vector (R267). -/
def Dev.twBits (d : Dev) (n op g : Nat) : Nat :=
  let w := d.twData n op g
  maskTo (fun k =>
    let m := bits (d.rd (Reg.TW.PINMAP.map n (k / 4))) (8 * (k % 4)) 8
    let src := m % 4
    let v := if src = 0 then w else if src = 1 then d.rd (Reg.TW.X.x n) else if src = 2 then d.rd (Reg.TW.Y.y n) else 0
    twBit v (bits m 2 5) != bit m 7) 32

/-- The generator steps after a vector of a segment with twill_en (R267): the counters, and the next g. -/
def Dev.twStep (d : Dev) (n op g : Nat) : Dev × Nat :=
  if g + 1 ≤ d.rd (Reg.TW.OP.p_m1 n op) then (d, g + 1)
  else
    let rx := twAct (d.rd (Reg.TW.X.x n)) (d.rd (Reg.TW.XMIN.xmin n)) (d.rd (Reg.TW.XMAX.xmax n)) (d.rd (Reg.TW.XCMASK.xcmask n)) (d.rd (Reg.TW.OP.xact n op))
    let ry := twAct (d.rd (Reg.TW.Y.y n)) (d.rd (Reg.TW.YMIN.ymin n)) (d.rd (Reg.TW.YMAX.ymax n)) (d.rd (Reg.TW.YCMASK.ycmask n)) (d.rd (Reg.TW.OP.yact n op))
    let d := d.wr (Reg.TW.X.x n) rx.1
    let d := if !d.on (Reg.TW.OP.ylink n op) || rx.2 then d.wr (Reg.TW.Y.y n) ry.1 else d
    (d.evc 0x3F n, 0)

end Sys2Proof.Machine
end

