-- ==== Sys2Proof/Machine/Route.lean ====
section
/-! DEFINITION. The event routing of a loom: comparator edges, monitor edges, vector flags and Reed events on their way to the
capture unit and to the time measurement engines (R194, R202, R218, R302, R305, R316), with the trims that place them. -/
namespace Sys2Proof.Machine
open Sys2Proof

/-! Times in taps of the Reed time scale (R295, R317): they wrap with Reed time, and compare as R426 lays down. -/

/-- The span of the scale. -/
def tapSpan : Nat := 2 ^ 48 * 10240
/-- Taps from `u` to `t`. -/
def since (t u : Nat) : Nat := (t + (tapSpan - u % tapSpan)) % tapSpan
/-- `t` is at or after `u`. -/
def atOrAfter (t u : Nat) : Bool := decide (since t u < tapSpan / 2)
/-- The later of two times. -/
def later (t u : Nat) : Nat := if atOrAfter t u then t else u

/-! Trims (R305, R462, R487). -/

/-- The nominal value of a slot of a core record. -/
def coreNom (slot : Nat) : BitVec 32 := if slot < 2 then 0xFFFFFF else if slot = 2 then 0xFFFF else 0

/-- The nominal value of a slot of a loom record. -/
def loomNom (slot : Nat) : BitVec 32 :=
  if slot = 0 then 0x800000 else if slot = 1 then 0xB8E38E else if slot = 2 then 0xDC71C7 else if slot = 4 then 0x471C72
  else if slot = 5 then 0x7C71C7 else if slot = 6 then 200000000 else if slot = 8 then 0xFFFFFFFF else if slot = 9 then 0xFF else 0

def coreGet (t : Tab (BitVec 32)) (g slot : Nat) : BitVec 32 := Tab.get (coreNom slot) t (64 * g + slot)
def loomGet (t : Tab (BitVec 32)) (n slot : Nat) : BitVec 32 := Tab.get (loomNom slot) t (16 * n + slot)

/-- The field that holds the ball pair of a spare (R562). -/
def ballFld (n j : Nat) : Fld := if j = 33 then Reg.LOOM.SPARE.s33_ball n else Reg.LOOM.SPARE.s32_ball n

/-- The core that serves ball pair `k` of loom `n`. -/
def Dev.coreOf (d : Dev) (n k : Nat) : Nat :=
  if d.rd (ballFld n 32) = k then 32 else if d.rd (ballFld n 33) = k then 33 else k

/-- The core whose comparators see ball pair `k`: from the instant of an exchange on, the incoming one (R327). -/
def Dev.coreNow (d : Dev) (n k : Nat) : Nat :=
  match (d.box n).moving with
  | some e => if e.k = k then e.dest else d.coreOf n k
  | none => d.coreOf n k

/-- The active value of slot `i` of the core record that serves channel `c` (R464). -/
def Dev.trim (d : Dev) (c i : Nat) : BitVec 32 := coreGet d.cal.coreA (34 * (c / 32) + d.coreOf (c / 32) (c % 32)) i

/-- A raw code corrected by a gain and an offset (R487): raw × (1 + gain × 2^−24) + offset. Rounded to nearest and held at the
ends of the code span, which is DEDUCED (log entry 117). -/
def corrected (gain offset : BitVec 32) (raw : BitVec 24) : BitVec 24 :=
  BitVec.ofInt 24 (clampI (-8388608) 8388607
    (raw.toInt + roundDiv (raw.toInt * sext 24 gain.toNat) 16777216 + sext 24 offset.toNat))

/-- What the converter of channel `c` makes of raw codes of its voltage, of its current on range `r`, and of a shunt on shunt range
`r` (R464, R487). -/
def Dev.voltCode (d : Dev) (c : Nat) (raw : BitVec 24) : BitVec 24 := corrected (d.trim c 3) (d.trim c 4) raw
def Dev.currentCode (d : Dev) (c r : Nat) (raw : BitVec 24) : BitVec 24 := corrected (d.trim c (5 + r)) (d.trim c (10 + r)) raw
def Dev.shuntCode (d : Dev) (c r : Nat) (raw : BitVec 24) : BitVec 24 := corrected (d.trim c (15 + r % 2)) (d.trim c (17 + r % 2)) raw

/-- The time at the ball of a comparator edge that channel `c` sees at `t`: less the delays of the core's comparator path and
of the ball, and the loom's time offset, of the active records (R295, R305, R316). The signs are DEDUCED (log entry 100). -/
def Dev.atBall (d : Dev) (c : Nat) (lo : Bool) (t : Nat) : Nat :=
  let n := c / 32
  let t0 : TrimSet := (d.pat n).trims.getD ⟨d.cal.coreA, d.cal.loomA, d.cal.deskA⟩
  let core := sext 24 (coreGet t0.core (34 * n + d.coreNow n (c % 32)) (if lo then 30 else 29)).toNat
  let desk := sext 16 ((Tab.get 0 t0.desk c).toNat / 65536)
  let loom := sext 24 (loomGet t0.loom n 7).toNat
  ((Int.ofNat t - core - desk - loom) % Int.ofNat tapSpan).toNat

/-! The capture unit's state and trigger select (R296, R302, R314). -/

def Dev.cap (d : Dev) (n : Nat) : Cap := Tab.get {} d.caps n
def Dev.setCap (d : Dev) (n : Nat) (x : Cap) : Dev := { d with caps := Tab.set {} d.caps n x }
def Dev.modCap (d : Dev) (n : Nat) (f : Cap → Cap) : Dev := d.setCap n (f (d.cap n))

/-- State codes of R314. -/
def cIdle : Nat := 0
def cArming : Nat := 1
def cArmed : Nat := 2
def cPost : Nat := 3
def cRearm : Nat := 4
def cDone : Nat := 5
def Dev.capState (d : Dev) (n : Nat) : Nat := d.rd (Reg.LOOM.CAP_STATUS.state n)
def Dev.setCapState (d : Dev) (n st : Nat) : Dev := d.wr (Reg.LOOM.CAP_STATUS.state n) st
/-- A sequence is in progress (R297). -/
def Dev.capBusy (d : Dev) (n : Nat) : Bool := d.capState n != cIdle && d.capState n != cDone

/-- Now, in taps (R295): events that reach a unit are placed at the start of their tick (DEDUCED). -/
def Dev.nowTaps (d : Dev) : Nat := d.now * 10240

/-- Byte of lane `k`; its channel in the loom, and its comparator selection. -/
def CapDesc.laneByte (e : CapDesc) (k : Nat) : Nat := ((e.lane[k]?).getD 0).toNat
def CapDesc.laneChan (e : CapDesc) (k : Nat) : Nat := e.laneByte k % 32
def CapDesc.laneCmp (e : CapDesc) (k : Nat) : Nat := e.laneByte k / 32 % 4

/-- Channel `c` is a lane of its loom's sequence, from the end of arming to DONE or IDLE (R293, R312). -/
def Dev.capLane (d : Dev) (c : Nat) : Bool :=
  let n := c / 32
  let e := (d.cap n).desc
  (d.capState n == cArmed || d.capState n == cPost || d.capState n == cRearm) && e.cls != 1
    && (List.range e.lanes).any fun k => e.laneChan k == c % 32

/-- A converter sequence holds channel `k`'s converter, from the end of arming to DONE or IDLE (R293). -/
def Dev.capHolds (d : Dev) (c : Nat) : Bool := (d.cap (c / 32)).desc.cls == 0 && d.capLane c

/-- Whether a source event qualifies (R302). -/
def trigMatches (v : Nat) (ev : TrigEvent) : Bool :=
  let q := bits v 4 4
  let id := bits v 8 16
  let into (k : Nat) : Bool := (k == 3 && bit q 0) || (k == 4 && bit q 1) || (k == 2 && bit q 2)
  match ev with
  | .cmp k lo rising => v % 16 == 1 && id % 32 == k.val && bit id 5 == lo && (if rising then bit q 0 else bit q 1)
  | .mon k b st => v % 16 == 2 && id % 32 == k.val && bit id 5 == b && into st
  | .lmon m st => v % 16 == 3 && id % 8 == m.val && into st
  | .vflag one => v % 16 == 4 && bit id 0 == one
  | .reed c => v % 16 == 5 && (c.toNat ^^^ id % 256) &&& (id / 256) == 0
  | .mill => v % 16 == 6

/-- The sequence counts source events: from the time its capture became ARMED on (R303). -/
def Dev.capCounts (d : Dev) (n : Nat) : Bool := d.capState n == cArmed || d.capState n == cPost || d.capState n == cRearm

/-- A source event sets out for the capture unit of loom `n`, where its sequence waits for such events; it reaches the unit as
TRIGGER_DECISION within 250 ns (R302, R305). -/
def Dev.offerTrig (d : Dev) (n : Nat) (ev : TrigEvent) (place : Nat) : Dev :=
  if d.capBusy n && trigMatches (d.cap n).desc.trig.toNat ev then d.modCap n fun x => { x with pend := x.pend ++ [(ev, place)] } else d

/-! The lanes of a Mill (R336 to R338). -/

def Dev.mill (d : Dev) (n : Nat) : Mill := Tab.get {} d.mills n
def Dev.setMill (d : Dev) (n : Nat) (x : Mill) : Dev := { d with mills := Tab.set {} d.mills n x }
def Dev.modMill (d : Dev) (n : Nat) (f : Mill → Mill) : Dev := d.setMill n (f (d.mill n))

/-- State codes of R349. -/
def mIdle : Nat := 0
def mLoading : Nat := 1
def mRunning : Nat := 2
def mWaiting : Nat := 3

/-- The kernel runs or waits, and has not ended. -/
def Mill.live (x : Mill) : Bool := (x.state == mRunning || x.state == mWaiting) && !x.ended

/-- The slot of a source (R336), and whether the source is enabled. -/
def Mill.slotOf (x : Mill) (src : Nat) : Nat := popcount x.mask.toNat src
def Mill.takes (x : Mill) (src : Nat) : Bool := x.live && bit x.mask.toNat src

/-- A conversion of a source sets out on its lane (R338); the Mill takes it as MILL_LANE_SAMPLE within 1 µs. -/
def Dev.laneFeed (d : Dev) (n src : Nat) (code : BitVec 24) : Dev :=
  if (d.mill n).takes src then d.modMill n fun x => { x with feed := x.feed ++ [(src, code)] } else d

/-! The inputs of the time measurement engines (R315, R316). -/

def Dev.tme (d : Dev) (e : Nat) : Tme := Tab.get {} d.tmes e
def Dev.setTme (d : Dev) (e : Nat) (x : Tme) : Dev := { d with tmes := Tab.set {} d.tmes e x }
def Dev.modTme (d : Dev) (e : Nat) (f : Tme → Tme) : Dev := d.setTme e (f (d.tme e))

/-- Source and polarity of an input (R316): polarity 0 acts as rising, and sources 3 and 4 rise only. -/
def Dev.tmeSrc (d : Dev) (e : Nat) (b : Bool) : Nat := d.rd (if b then Reg.TME.SRC_B.src e else Reg.TME.SRC_A.src e)
def Dev.tmeK (d : Dev) (e : Nat) (b : Bool) : Nat := d.rd (if b then Reg.TME.SRC_B.k e else Reg.TME.SRC_A.k e)
def Dev.tmePol (d : Dev) (e : Nat) (b : Bool) : Nat :=
  let p := d.rd (if b then Reg.TME.SRC_B.edge e else Reg.TME.SRC_A.edge e)
  if 3 ≤ d.tmeSrc e b ∨ p = 0 then 1 else p
/-- An edge of an input qualifies. -/
def Dev.tmeQual (d : Dev) (e : Nat) (b rising : Bool) : Bool :=
  let p := d.tmePol e b
  p == 3 || (p == 1 && rising) || (p == 2 && !rising)

/-- An edge of a source sets out for the inputs of loom `n` that select it; the timestamper takes it as TME_TIMESTAMP. -/
def Dev.feedTme (d : Dev) (n : Nat) (sel : Nat → Bool → Bool) (rising : Bool) (t : Nat) : Dev :=
  if d.unit (kTme n) = .off ∨ d.unit (kTme n) = .held then d
  else (List.range 8).foldl (fun d i => [false, true].foldl (fun (d : Dev) b =>
    if sel (8 * n + i) b then d.modTme (8 * n + i) fun x => { x with feed := x.feed ++ [⟨b, rising, t⟩] } else d) d) d

/-- An output of a comparator of channel `c` changes at `t`, at the ball (R194, R302, R316). -/
def Dev.routeCmp (d : Dev) (c : Nat) (lo rising : Bool) (t : Nat) : Dev :=
  (d.offerTrig (c / 32) (.cmp ⟨c % 32, Nat.mod_lt _ (by decide)⟩ lo rising) t).feedTme (c / 32)
    (fun e b => d.tmeSrc e b == (if lo then 2 else 1) && d.tmeK e b == c % 32) rising t

/-- A vector flag of loom `n`, at the start of the vector's first period (R218). -/
def Dev.routeFlag (d : Dev) (n : Nat) (one : Bool) (t : Nat) : Dev :=
  (d.offerTrig n (.vflag one) t).feedTme n
    (fun e b => d.tmeSrc e b == 3 && d.on (if b then Reg.TME.SRC_B.vf e else Reg.TME.SRC_A.vf e) == one) true t

/-- A Reed event is acted on (R302, R316). -/
def Dev.routeReed (d : Dev) (code : BitVec 8) : Dev :=
  iter (fun n d => (d.offerTrig n (.reed code) d.nowTaps).feedTme n
    (fun e b => d.tmeSrc e b == 4 &&
      (code.toNat ^^^ d.rd (if b then Reg.TME.SRC_B.code e else Reg.TME.SRC_A.code e))
        &&& d.rd (if b then Reg.TME.SRC_B.mask e else Reg.TME.SRC_A.mask e) == 0) true d.nowTaps) 24 d

/-! Comparators (R194, R232, R627). -/

/-- The outputs `hi` and `lo` of a comparator meet what the code of pin `k` asks (R193, R220). -/
def Sched.meets (s : Sched) (k : Nat) (hi lo : Bool) : Bool :=
  (!s.cl.getLsbD k || lo) && (!s.ch.getLsbD k || hi) && (!s.cm.getLsbD k || (!hi && !lo))

/-- The outputs of pin `k` have stood at `hi` and `lo` up to `t`: what of the pin's strobe or window lies before `t` is judged by
them, and one that has closed before `t` is done (R232). An LG logs the state at E3 (R242). -/
def Sched.see (s : Sched) (k t : Nat) (hi lo : Bool) : Sched :=
  let p := Tab.get (0, 0) s.span k
  if s.done.getLsbD k || !(s.cl ||| s.ch ||| s.cm ||| s.lg).getLsbD k || atOrAfter p.1 t then s
  else
    { s with miss := if s.meets k hi lo then s.miss else s.miss ||| (1#32 <<< k),
             lgHi := if s.lg.getLsbD k && hi then s.lgHi ||| (1#32 <<< k) else s.lgHi,
             done := if atOrAfter p.2 t then s.done else s.done ||| (1#32 <<< k) }

/-- The strobes and windows of the period close: those not done are judged by the outputs `h` and `l` as they stand. -/
def Sched.close (s : Sched) (h l : BitVec 32) : Sched :=
  { s with miss := s.miss ||| (~~~s.done &&& ((s.cl &&& ~~~l) ||| (s.ch &&& ~~~h) ||| (s.cm &&& (h ||| l)))),
           lgHi := s.lgHi ||| (~~~s.done &&& s.lg &&& h), done := ~~~0 }

/-- The outputs of channel `c` have stood as they are up to `t`: the open strobes of its pin take note (R232). -/
def Dev.strobesSee (d : Dev) (c t : Nat) : Dev :=
  if (d.pat (c / 32)).sched.isEmpty then d
  else d.modPat (c / 32) fun p => { p with sched := p.sched.map fun s => s.see (c % 32) t (d.chan c).cmpHi (d.chan c).cmpLo }

/-- Whether the comparators of loom `n` are powered (R194, R627). -/
def Dev.cmpPowered (d : Dev) (n : Nat) : Bool :=
  d.unit (kPattern n) == .on || d.unit (kTme n) == .on || d.unit (kCapture n) == .on
    || d.unit (kPattern n) == .draining || !(d.pat n).sched.isEmpty

/-- Outputs of comparators that are not powered read 0. -/
def Dev.cmpSettle (d : Dev) (n : Nat) : Dev :=
  if d.cmpPowered n then d else iter (fun k d => d.modChan (32 * n + k) fun x => { x with cmpHi := false, cmpLo := false }) 32 d

end Sys2Proof.Machine
end

