-- ==== Sys2Proof/Machine/Channel.lean ====
section
/-! DEFINITION. The channel commands: settings, conversions, ramps and the husk (R150 to R191, R617, R622 to R624). -/
namespace Sys2Proof.Machine
open Sys2Proof

/-- Refusal codes of CHAN[c].STATUS (R189). -/
def rjRange : Nat := 1
def rjGuard : Nat := 2
def rjMember : Nat := 3
def rjForm : Nat := 4
def rjOwner : Nat := 5
def rjQuar : Nat := 6

/-- A write to a channel block is refused with a reason (R190). -/
def Dev.chanReject (d : Dev) (c r : Nat) : Dev :=
  (d.wr (Reg.CHAN.STATUS.reject_code c) r).rejectWith (Reg.CHAN.STATUS.set_reject c) (r == rjOwner)

/-! The fields of CTRL (R622 gives their order). -/

/-- Whether channel `c` is Off and at rest. -/
def Dev.atOff (d : Dev) (c : Nat) : Bool := d.chMode c == 0 && (d.chan c).ramp == .none

/-- The site that channel `c` is mapped to; none: unmapped, whatever site bits its entry keeps (R145). -/
def Dev.siteOf (d : Dev) (c : Nat) : Option Nat :=
  let v := Tab.get 0 d.chmap c
  if 1024 ≤ v then some (v - 1024) else none

/-- The channels `l` to `l + m − 1` belong to one site, or to none (R166, R176). -/
def Dev.oneSite (d : Dev) (l m : Nat) : Bool := (List.range m).all fun i => d.siteOf (l + i) == d.siteOf l

/-- A gang may be formed of `m` channels from `c` (R166). -/
def Dev.mayGang (d : Dev) (c m : Nat) : Bool :=
  c % 32 % m == 0 && d.oneSite c m && (List.range m).all fun i => d.atOff (c + i) && d.chRole (c + i) == 0

/-- A write of gang (R166). -/
def Dev.setGang (d : Dev) (c v : Nat) : Except Nat Dev :=
  if d.oddOfPair c then .error rjMember
  else if v = 0 then
    if d.atOff c then
      .ok ((List.range (d.gangSize c)).foldl (fun (d : Dev) i => d.wr (Reg.CHAN.STATUS.role (c + i)) 0) (d.wr (Reg.CHAN.CTRL.gang c) 0))
    else .error rjForm
  else if d.mayGang c (2 ^ v) then
    .ok ((List.range (2 ^ v)).foldl (fun (d : Dev) i => (d.wr (Reg.CHAN.STATUS.role (c + i)) (if i = 0 then 1 else 2)).dropDrive (c + i)) (d.wr (Reg.CHAN.CTRL.gang c) v))
  else .error rjForm

/-- Full scale of a current range, in units of 2 µA (R157). -/
def rangeScale : Nat → Nat
  | 0 => 1
  | 1 => 10
  | 2 => 100
  | 3 => 1000
  | _ => 16000

/-- Whether a range code is defined for channel `c` (R157). -/
def Dev.rangeOk (d : Dev) (c v : Nat) : Bool := if d.evenOfPair c then decide (v < 2) else decide (v < 5)

/-- Full scale of a booster shunt range, in units of 50 mV (R157). A pair formed while the even channel's range field holds 2 to 4,
for which no shunt range is given, keeps the field and takes the scale of code 1 (DESIGN CHOICE, log entry 118). -/
def shuntScale (v : Nat) : Nat := if v = 0 then 1 else 5

/-- A reading coded on a full scale `old` as a code on the full scale `new`; at an end of the span it stays there. -/
def recode (old new : Nat) (i : BitVec 24) : BitVec 24 :=
  BitVec.ofInt 24 (clampI (-8388608) 8388607 (roundDiv (i.toInt * Int.ofNat old) new))

/-- The present current and shunt readings of the group of `c`, coded on the range just set (R157, R622). -/
def Dev.recodeGroup (d : Dev) (c old new : Nat) : Dev :=
  let f := if d.evenOfPair c then recode (shuntScale old) (shuntScale new) else recode (rangeScale old) (rangeScale new)
  (d.group c).foldl (fun d k => d.modChan k fun x => { x with iNow := f x.iNow }) d

/-- A write of range (R157 to R159). The odd channel of a pair refuses any write of CTRL (R177); a gang member refuses a
defined range (R167). -/
def Dev.setRange (d : Dev) (c v : Nat) : Except Nat Dev :=
  if d.oddOfPair c then .error rjMember
  else if !d.rangeOk c v then .error rjRange
  else if 2 ≤ d.chRole c then .error rjMember
  else
    let old := d.rd (Reg.CHAN.CTRL.range c)
    let d1 := ((d.wr (Reg.CHAN.CTRL.range c) v).unsettle c).recodeGroup c old v
    if d.chMode c = 2 then
      let n := roundDiv (d.chForce c * Int.ofNat (rangeScale old)) (rangeScale v)
      if n < -8388608 ∨ 8388607 < n then .error rjRange
      else .ok ((d1.wr (Reg.CHAN.FORCE_CODE.code c) (toCode 24 n)).wfmCause c 3)
    else .ok (d1.wfmCause c 3)

/-- FORCE_CODE as a mode change loads it; none: it keeps its value (R152). From mode 5 to 4 it is the whole part of the
control output, rounded down: DESIGN CHOICE, no rule states how its fraction bits are dropped (log entry 98). -/
def Dev.loadFor (d : Dev) (c v : Nat) : Option Nat :=
  let old := d.chMode c
  if v = 0 ∨ v = 3 then none
  else if old = 0 ∨ !d.chConn c then
    if v = 1 ∨ v = 4 then some zeroVolt else if v = 2 then some 0 else some (Config.freeCode d.freeCtr).toNat
  else if v = 1 then some (d.chan c).vNow.toNat
  else if v = 2 then some (if old = 1 then (d.chan c).iNow.toNat else 0)
  else if v = 5 then some (d.chan (c + 1)).iNow.toNat
  else some (toCode 24 ((d.chan c).uOut / 2 ^ 24))

/-- A write of mode is out of range (R150, R153, R176). -/
def Dev.modeBad (d : Dev) (c v : Nat) : Bool :=
  decide (5 < v) || ((v == 4 || v == 5) && c % 2 == 1) || (v == 5 && d.chMode c != 4) || (d.evenOfPair c && (v == 1 || v == 2))

/-- A booster pair may be formed of `c` and `c + 1` (R176). -/
def Dev.mayPair (d : Dev) (c : Nat) : Bool :=
  d.atOff c && d.atOff (c + 1) && d.chRole c == 0 && d.chRole (c + 1) == 0 && d.oneSite c 2

/-- A channel that forces takes mode 0 or 3: it ramps, and the mode field shows the new value at once (R154). A pair
that does not force ends at once. -/
def Dev.leaveForce (d : Dev) (c v : Nat) : Dev :=
  if d.forcing c then ((d.disarmTrips c).startRamp c false |>.wr (Reg.CHAN.CTRL.mode c) v).clampAfresh c
  else if d.evenOfPair c ∧ (d.chan c).ramp = .none then ((d.wr (Reg.CHAN.CTRL.mode c) v).unsettle c).pairEnd c
  else ((d.wr (Reg.CHAN.CTRL.mode c) v).unsettle c).clampAfresh c

/-- The mode becomes `v`, which forces, with FORCE_CODE loaded before (R152, R176, R181). The pattern driver does not drive the
ball any more (R225), and a pair's comparators read 0 (R194). -/
def Dev.enterForce (d : Dev) (c v : Nat) : Dev :=
  let u := (d.chan c).uOut
  let s := sext 24 (d.chan (c + 1)).iNow.toNat
  let d1 := match d.loadFor c v with
    | some x => (if v = 5 ∧ !d.chConn c then d.tookFree else d).wr (Reg.CHAN.FORCE_CODE.code c) x
    | none => d
  let d1 := if v = 4 ∧ d.chMode c ≠ 5 then (d1.wr (Reg.CHAN.STATUS.role c) 1).wr (Reg.CHAN.STATUS.role (c + 1)) 3 else d1
  let d1 := d1.wr (Reg.CHAN.CTRL.mode c) v
  let d1 := if v = 5 then d1.modChan c fun y => { y with u := u, x := fracs s, uQueue := [], tripCount := 0, loopOpen := false }
    else if v = 4 then d1.modChan c fun y => { y with uOut := d1.clampOut c (fracs (d1.chForce c)), uQueue := [], tripCount := 0, loopOpen := true }
    else d1
  let d1 := if v = 4 then (d1.modChan c fun y => { y with cmpHi := false, cmpLo := false }).modChan (c + 1) fun y => { y with cmpHi := false, cmpLo := false } else d1
  (((d1.unsettle c).clampAfresh c).cvFlag c).dropDrives c

/-- A write of mode (R150 to R154, R171, R176). The flags of the odd channel do not bar the write that forms the pair: it is not yet
the booster partner of R171 (DESIGN CHOICE, log entry 118). -/
def Dev.setMode (d : Dev) (c v : Nat) : Except Nat Dev :=
  if d.oddOfPair c then .error rjMember
  else if d.modeBad c v then .error rjRange
  else if 2 ≤ d.chRole c then .error rjMember
  else if v = 4 ∧ d.chMode c ≠ 5 ∧ !d.mayPair c then .error rjForm
  else if forceMode v && d.chConn c && d.flagged c then .error rjGuard
  else if forceMode v then .ok ((d.enterForce c v).wfmCause c 3)
  else .ok ((d.leaveForce c v).wfmCause c 3)

/-- A write of conn (R151, R154, R171, R182); a gang member's own field has no effect (R167). -/
def Dev.setConn (d : Dev) (c v : Nat) : Except Nat Dev :=
  if d.oddOfPair c then .error rjMember
  else if d.chRole c = 2 then .ok (d.wr (Reg.CHAN.CTRL.conn c) v)
  else if v = 1 ∧ forceMode (d.chMode c) ∧ d.flagged c then .error rjGuard
  else if v = 0 ∧ d.forcing c then
    .ok (((((d.disarmTrips c).startRamp c (d.evenOfPair c)).wr (Reg.CHAN.CTRL.conn c) v).clampAfresh c).wfmCause c 3)
  else
    let d1 := (d.wr (Reg.CHAN.CTRL.conn c) v).clampAfresh c
    .ok (((if forceMode (d.chMode c) then d1.unsettle c else d1).wfmCause c 3).dropDrives c)

/-- A field of CTRL that only stores: meas_v, short_time, rev_check. -/
def Dev.setPlain (d : Dev) (c : Nat) (f : Fld) (v : Nat) : Except Nat Dev :=
  if d.oddOfPair c then .error rjMember else .ok (d.wr f v)

/-- The fields of CTRL in the order of R622. -/
def ctrlFields (c : Nat) : List Fld :=
  [Reg.CHAN.CTRL.gang c, Reg.CHAN.CTRL.range c, Reg.CHAN.CTRL.mode c, Reg.CHAN.CTRL.conn c, Reg.CHAN.CTRL.meas_v c,
   Reg.CHAN.CTRL.short_time c, Reg.CHAN.CTRL.rev_check c]

/-- Field `i` of that order is written (R622). -/
def Dev.setCtrl (d : Dev) (c i v : Nat) : Except Nat Dev :=
  match i with
  | 0 => d.setGang c v
  | 1 => d.setRange c v
  | 2 => d.setMode c v
  | 3 => d.setConn c v
  | 4 => d.setPlain c (Reg.CHAN.CTRL.meas_v c) v
  | 5 => d.setPlain c (Reg.CHAN.CTRL.short_time c) v
  | _ => d.setPlain c (Reg.CHAN.CTRL.rev_check c) v

/-- Whether a written field stops force: accepted from any master while the loom is quarantined (R545). -/
def stopsForce (i v : Nat) : Bool := (i == 2 && (v == 0 || v == 3)) || (i == 3 && v == 0)

/-- The reason for which a write to a channel block is refused whatever it holds (R536, R545). -/
def Dev.blockReject (d : Dev) (m : Master) (c : Nat) : Option Nat :=
  if d.quar (c / 32) then some rjQuar else if d.owns m (loomBlock (c / 32)) then none else some rjOwner

/-- Field `i` of a CTRL write, with its value: judged if it differs from what is held (R190, R617, R622). -/
def Dev.ctrlField (d : Dev) (m : Master) (c v i : Nat) : Dev :=
  let f := (ctrlFields c).getD i (Reg.CHAN.CTRL.gang c)
  let w := bits v f.lo f.w
  if d.rd f = w then d
  else
    match (if d.quar (c / 32) ∧ stopsForce i w then none else d.blockReject m c) with
    | some r => d.chanReject c r
    | none =>
      match d.setCtrl c i w with
      | .ok d' => d'
      | .error r => d.chanReject c r

/-- The fields `is` of a CTRL write, one after another (R622). -/
def Dev.ctrlWrite (d : Dev) (m : Master) (c v : Nat) (is : List Nat) : Dev := is.foldl (fun d i => d.ctrlField m c v i) d

/-- A write of CTRL: behind a MEAS, mode, range, gang, conn and meas_v wait for its end (R155). DESIGN CHOICE (log entry 98):
the write waits whole, so that each of these fields is compared with what is held (R617) when it is applied. The MEAS looked at is
that of the channel written: whether one on a member of its gang or on its odd channel holds the write too, no rule states. -/
def Dev.chanCtrl (d : Dev) (m : Master) (c v : Nat) : Dev :=
  if (d.chan c).meas.isSome then
    (d.modChan c fun x => { x with deferred := x.deferred ++ [.reg m v 0] }).ctrlWrite m c v [5, 6]
  else d.ctrlWrite m c v [0, 1, 2, 3, 4, 5, 6]

def execChanCtrlWrite (m : Master) (c : ChanId) (v : BitVec 32) (s : State) : Out := lift s fun d => d.judged (·.chanCtrl m c.val v.toNat)

/-- A write of FORCE_CODE judged by the channel (R167, R171). -/
def Dev.setForceCode (d : Dev) (c v : Nat) : Except Nat Dev :=
  if d.chRole c = 2 then .error rjMember
  else if d.oddOfPair c then .ok (d.wr (Reg.CHAN.FORCE_CODE.code c) v)
  else if d.forcing c ∧ d.flagged c then .error rjGuard
  else .ok (d.setForce c v)

/-- R171, R189, R275: a write of the FORCE_CODE slot. -/
def Dev.forceCode (d : Dev) (m : Master) (c v : Nat) : Dev :=
  if d.rd (Reg.CHAN.FORCE_CODE.code c) = v % 2 ^ 24 then d
  else if d.wfmActive c then d.wr (Reg.WFM.STATUS.force_ignored c) 1
  else
    match d.blockReject m c with
    | some r => d.chanReject c r
    | none =>
      match d.setForceCode c (v % 2 ^ 24) with
      | .ok d' => d'
      | .error r => d.chanReject c r

def execForceCodeWrite (m : Master) (c : ChanId) (v : BitVec 32) (s : State) : Out := lift s fun d => d.forceCode m c.val v.toNat

/-- The two ends of a clamp slot (R164). -/
def clampLo (c : Nat) (current : Bool) : Fld := if current then Reg.CHAN.ICLAMP.lo c else Reg.CHAN.VCLAMP.lo c
def clampHi (c : Nat) (current : Bool) : Fld := if current then Reg.CHAN.ICLAMP.hi c else Reg.CHAN.VCLAMP.hi c

/-- Both ends of a clamp take the values given, where the high end is not below the low (R164). A gang member's own are without
effect (R167). -/
def Dev.setClamp (d : Dev) (c : Nat) (current : Bool) (lo hi : Nat) : Except Nat Dev :=
  if sext 16 hi < sext 16 lo then .error rjRange
  else
    let d := (d.wr (clampLo c current) lo).wr (clampHi c current) hi
    .ok (if d.chRole c = 2 then d else (d.clampForce c).outFollows c)

/-- R164, R191: a write of a clamp slot; the odd channel of a pair has no current clamp. -/
def Dev.clampSlot (d : Dev) (m : Master) (c : Nat) (current : Bool) (v : Nat) : Dev :=
  if (d.oddOfPair c ∧ current) ∨ (d.rd (clampLo c current) = bits v 0 16 ∧ d.rd (clampHi c current) = bits v 16 16) then d
  else
    match d.blockReject m c with
    | some r => d.chanReject c r
    | none =>
      match d.setClamp c current (bits v 0 16) (bits v 16 16) with
      | .ok d' => d'
      | .error r => d.chanReject c r

def execClampSlotWrite (m : Master) (c : ChanId) (current : Bool) (v : BitVec 32) (s : State) : Out :=
  lift s fun d => d.clampSlot m c.val current v.toNat

/-- The W1C flags of STATUS in the order of their bits 4 to 10 (R189). -/
def statusFlags (c : Nat) : List Fld :=
  [Reg.CHAN.STATUS.husk_short c, Reg.CHAN.STATUS.husk_open c, Reg.CHAN.STATUS.husk_reverse c, Reg.CHAN.STATUS.husk_over c,
   Reg.CHAN.STATUS.boost_trip c, Reg.CHAN.STATUS.over_range c, Reg.CHAN.STATUS.set_reject c]

/-- Clears the flags of STATUS written 1; a husk flag whose condition still holds is set again (R172). -/
def Dev.clearFlags (d : Dev) (c v holds : Nat) : Dev :=
  let d := (List.range 7).foldl (fun (d : Dev) i => if bit v (4 + i) then d.wr ((statusFlags c).getD i (Reg.CHAN.STATUS.set_reject c)) 0 else d) d
  let d := (List.range 5).foldl (fun (d : Dev) i => if bit v (4 + i) && bit holds i then d.huskFlag ((statusFlags c).getD i (Reg.CHAN.STATUS.set_reject c)) c else d) d
  if d.on (Reg.CHAN.STATUS.husk_over c) then d else d.modChan c fun x => { x with opened := false }

/-- R172: a write of STATUS. -/
def Dev.huskClear (d : Dev) (m : Master) (c v holds : Nat) : Dev :=
  if bits v 4 7 = 0 then d
  else
    match d.blockReject m c with
    | some r => d.chanReject c r
    | none => d.clearFlags c v holds

def execHuskFlagClear (m : Master) (c : ChanId) (v : BitVec 32) (holds : BitVec 5) (s : State) : Out :=
  lift s fun d => d.huskClear m c.val v.toNat holds.toNat

/-! Settings by CHAN, and what a MEAS has deferred (R100 to R103, R155, R165). -/

/-- One end of a clamp: sub 0 V high, 1 V low, 2 I high, 3 I low (R100). -/
def Dev.setClampEnd (d : Dev) (c sub : Nat) (b : W24) : Except Nat Dev :=
  let cur := decide (2 ≤ sub)
  let v := bits b.toNat 0 16
  if b.toInt < -32768 ∨ 32767 < b.toInt then .error rjRange
  else if d.oddOfPair c ∧ cur then .ok d
  else if sub % 2 = 0 then d.setClamp c cur (d.rd (clampLo c cur)) v else d.setClamp c cur v (d.rd (clampHi c cur))

/-- A level: 0 VIH, 1 VIL, 2 VOH, 3 VOL, 4 VT (R100); of a pair only the off level is a level (R191). -/
def Dev.setLevel (d : Dev) (c sub : Nat) (b : W24) : Except Nat Dev :=
  if b.toInt < -32768 ∨ 32767 < b.toInt then .error rjRange
  else if d.oddOfPair c ∨ (d.evenOfPair c ∧ sub ≠ 1) then .ok d
  else .ok (d.wr (match sub with
    | 0 => Reg.CHAN.LVL_DRV.vih c
    | 1 => Reg.CHAN.LVL_DRV.vil c
    | 2 => Reg.CHAN.LVL_CMP.voh c
    | 3 => Reg.CHAN.LVL_CMP.vol c
    | _ => Reg.CHAN.RATE.vt c) (bits b.toNat 0 16))

/-- The setting that a CHAN instruction makes: operations 0 to 5 of R100. A setting equal to what is held changes
nothing and is not judged (R617). -/
def Dev.chanSetting (d : Dev) (c op sub : Nat) (b : W24) : Except Nat Dev :=
  let same (f : Fld) : Bool := decide (b.toNat = d.rd f)
  match op with
  | 0 => if same (Reg.CHAN.CTRL.mode c) then .ok d else d.setMode c b.toNat
  | 1 => if same (Reg.CHAN.CTRL.range c) then .ok d else d.setRange c b.toNat
  | 2 =>
    if d.wfmActive c then .ok (d.wr (Reg.WFM.STATUS.force_ignored c) 1)
    else if d.oddOfPair c then .error rjMember
    else if same (Reg.CHAN.FORCE_CODE.code c) then .ok d else d.setForceCode c b.toNat
  | 3 => d.setClampEnd c sub b
  | 4 => d.setLevel c sub b
  | _ =>
    if 1 < b.toNat then .error rjRange
    else if same (Reg.CHAN.CTRL.conn c) then .ok d else d.setConn c b.toNat

/-- The fault of a setting that is refused; none: the refusal is recorded and the instruction completes (R103, R166). -/
def settingFault (r : Nat) : Option (BitVec 24) :=
  if r = rjRange then some (fOperand 0x0104)
  else if r = rjGuard then some (fChannel 0x0201)
  else if r = rjMember then some (fChannel 0x0202)
  else none

/-- A CHAN setting is applied or refused: the device, and the fault. -/
def Dev.chanApply (d : Dev) (c op sub : Nat) (b : W24) : Dev × Option (BitVec 24) :=
  if d.quar (c / 32) then (d, some (fQuarantine (c / 32)))
  else
    match d.chanSetting c op sub b with
    | .ok d' => (d', none)
    | .error r =>
      match settingFault r with
      | some w => (d, some w)
      | none => (d.chanReject c r, none)

/-- A waiting CHAN is applied, and its context released (R101). -/
def Dev.chanRelease (d : Dev) (k : Nat) : Dev :=
  match (d.ctx k).wait with
  | .chan c op sub b =>
    let r := d.chanApply c op sub b
    r.1.release k (match r.2 with
      | some w => .fault w
      | none => .done)
  | _ => d

/-- One deferred setting is applied (R155). -/
def Dev.applyDeferred (d : Dev) (c : Nat) (x : Deferred) : Dev :=
  match x with
  | .reg m v _ => d.ctrlWrite m c v [0, 1, 2, 3, 4]
  | .ctx k => d.chanRelease k

/-- Settings that a MEAS in progress defers: mode, range and conn (R155). -/
def deferredOp (op : Nat) : Bool := op == 0 || op == 1 || op == 5

/-- A MEAS of `n` samples begins on channel `k` (R161). -/
def Dev.measBegin (d : Dev) (c k n : Nat) : Dev :=
  d.modChan k fun y => { y with meas := some ⟨c, n, n, 0, false⟩ }

/-- The MEAS and CHAN that waited for channel `k` go on, in context order: at the end of an exchange, or of a MEAS or a capture while no
exchange runs (R104). -/
def Dev.chanResume (d : Dev) (k : Nat) : Dev :=
  if d.on (Reg.CHAN.STATUS.exchanging k) then d
  else d.ctxs.foldl (fun (d : Dev) e =>
    let x := d.ctx e.1
    if x.state = .waiting ∧ x.rel = .none then
      match x.wait with
      | .measWait j n ss =>
        if j = k ∧ (d.chan k).meas.isNone ∧ !d.capHolds k then
          if d.quar (k / 32) then d.release e.1 (.fault (fQuarantine (k / 32)))
          else if d.chMode (d.lead k) = 0 then d.release e.1 (.fault (fChannel 0x0203))
          else (d.setCtx e.1 { x with wait := .meas k ss }).measBegin e.1 k n.toNat
        else d
      | .chan j op _ _ =>
        if j = k then
          if deferredOp op && (d.chan k).meas.isSome then
            if (d.chan k).deferred.contains (.ctx e.1) then d else d.modChan k fun y => { y with deferred := y.deferred ++ [.ctx e.1] }
          else d.chanRelease e.1
        else d
      | _ => d
    else d) d

/-! Conversions (R160 to R162, R624). -/

/-- Whether the reading of channel `c` is its voltage code (R150). -/
def Dev.readsVolt (d : Dev) (c : Nat) : Bool :=
  if d.oddOfPair c then false
  else if d.chMode (d.lead c) = 1 then d.on (Reg.CHAN.CTRL.meas_v (d.lead c)) else true

/-- The current clamps of channel `c`, low and high, as current codes. -/
def Dev.iLo (d : Dev) (c : Nat) : Int := level24 (d.rd (Reg.CHAN.ICLAMP.lo c))
def Dev.iHi (d : Dev) (c : Nat) : Int := level24 (d.rd (Reg.CHAN.ICLAMP.hi c))

/-- The clamps that a reading shows to be acting, on the limits of the channel that governs (R163, R167, R180). A ramping
force path forces voltage (R55). -/
def Dev.clampActs (d : Dev) (c : Nat) (v i : BitVec 24) : Dev :=
  let l := d.lead c
  if (d.chan l).rampFrom.isSome ∨ d.chMode l = 1 then
    d.wr (Reg.CHAN.STATUS.iclamp_act c) (b2n (decide (i.toInt ≤ d.iLo l) || decide (d.iHi l ≤ i.toInt)))
  else if d.chMode l = 2 then
    d.wr (Reg.CHAN.STATUS.vclamp_act c) (b2n (decide (v.toInt ≤ d.vLo l) || decide (d.vHi l ≤ v.toInt)))
  else d

/-- The current into the parking resistance of 100 kΩ at a voltage code, coded on range `r` (R148, R157, R624). -/
def parkedI (r : Nat) (v : Int) : Int := clampI (-8388608) 8388607 (roundDiv ((v - zeroCode) * 45) (2 * rangeScale r))
/-- The voltage code of a current code of range `r` through the parking resistance. -/
def parkedV (r : Nat) (i : Int) : Int := zeroCode + roundDiv (i * Int.ofNat (rangeScale r) * 2) 45

/-- The set-point of a parked channel, and the node voltage that its forced current would give. In a gang the leader's fields govern
every member, each core at its own node with its own share of the current, and a leader's code of the total is that of a share
(R161, R167). -/
def Dev.parkedSet (d : Dev) (c : Nat) : Int := clampI (d.vLo (d.lead c)) (d.vHi (d.lead c)) (d.chForce (d.lead c))
def Dev.parkedNode (d : Dev) (c : Nat) : Int := parkedV (d.rd (Reg.CHAN.CTRL.range (d.lead c))) (d.chForce (d.lead c))

/-- Whether readings are what the parked node of channel `c` gives (R624). -/
def Dev.parkedReads (d : Dev) (c : Nat) (v i : BitVec 24) : Bool :=
  match d.chMode (d.lead c) with
  | 1 => nearCode zeroCode (d.parkedSet c) v && nearCode 0 (parkedI (d.rd (Reg.CHAN.CTRL.range (d.lead c))) (d.parkedSet c)) i
  | 2 => nearCode zeroCode (clampI (d.vLo (d.lead c)) (d.vHi (d.lead c)) (d.parkedNode c)) v
  | 3 => nearCode zeroCode zeroCode v
  | _ => true

/-- Whether the heddle matrix parks the core of channel `c`, which is in no booster pair (R624). -/
def Dev.parked (d : Dev) (c : Nat) : Bool :=
  !d.evenOfPair c && !d.oddOfPair c && !d.chConn (d.lead c) && (d.chan (d.lead c)).ramp == .none

/-- vclamp_act of a parked channel in mode 2: the node voltage that the forced current would give lies outside (R624). -/
def Dev.parkedClamp (d : Dev) (c : Nat) : Bool :=
  decide (d.parkedNode c < d.vLo (d.lead c)) || decide (d.vHi (d.lead c) < d.parkedNode c)

/-- A sample reaches the MEAS in progress, whose last one returns the mean and lets what it deferred be applied (R155, R161). -/
def Dev.measSample (d : Dev) (c : Nat) (r : BitVec 24) : Dev :=
  match (d.chan c).meas with
  | none => d
  | some q =>
    let q := { q with left := q.left - 1, sum := q.sum + r.toInt, isOver := q.isOver || overRange r }
    if q.left = 0 then
      let w := (d.chan c).deferred
      let d := d.modChan c fun x => { x with meas := none, deferred := [] }
      let d := (d.release q.ctx (.meas (BitVec.ofInt 24 (roundDiv q.sum q.total)) q.isOver)).evc 0x37 (c / 32)
      (w.foldl (fun d x => d.applyDeferred c x) d).chanResume c
    else d.modChan c fun x => { x with meas := some q }

/-- The clamp flags at a reading of a channel, parked or not (R163, R624). -/
def Dev.clampReads (d : Dev) (c : Nat) (v i : BitVec 24) : Dev :=
  if d.parked c && d.chMode (d.lead c) == 2 then d.wr (Reg.CHAN.STATUS.vclamp_act c) (b2n (d.parkedClamp c)) else d.clampActs c v i

/-- The corrected codes of one sample of channel `c`, from its raw codes; a gang's range is its leader's (R167, R487). -/
def Dev.sampleOf (d : Dev) (c : Nat) (rawV rawI : BitVec 24) : BitVec 24 × BitVec 24 :=
  (d.voltCode c rawV, d.currentCode c (d.rd (Reg.CHAN.CTRL.range (d.lead c))) rawI)

/-- R160: the converter of channel `c` takes one sample of both quantities, as corrected codes. -/
def Dev.convert (d : Dev) (c : Nat) (v i : BitVec 24) : Dev :=
  let d := d.modChan c fun x => { x with vNow := v, iNow := i }
  let r := if d.readsVolt c then v else i
  let d := (d.clampReads c v i).evc 0x38 (c / 32)
  let d := if overRange r then d.wr (Reg.CHAN.STATUS.over_range c) 1 else d
  (d.laneFeed (c / 32) (c % 32) r).measSample c r

/-- A conversion at the channel's own rate, from raw codes. A channel that a converter sequence holds makes none (R293). A parked
channel reads its node (R624): readings that no such node gives do not come about. -/
def Dev.conversion (d : Dev) (c : Nat) (rawV rawI : BitVec 24) : Dev :=
  let r := d.sampleOf c rawV rawI
  if d.capHolds c || (d.parked c && !d.parkedReads c r.1 r.2) then d else d.convert c r.1 r.2

def execConversionInstant (c : ChanId) (v i : BitVec 24) (s : State) : Out := lift s fun d => d.conversion c.val v i

/-! Ramps and settling (R55, R154, R186). -/

/-- R55: the ramp of a channel ends. It has settled, unless the mode becomes Off only now, as after a trip or a drain: R186 then has
the settling time of that change still to run. -/
def Dev.rampEnd (d : Dev) (c : Nat) : Dev :=
  match (d.chan c).ramp with
  | .force off =>
    let d := (d.modChan c fun x => { x with ramp := .none, rampFrom := none, tripRamp := false }).groupWr c Reg.CHAN.STATUS.settled (b2n !(off && d.chMode c != 0))
    ((if off then d.modeOff c else d).clampAfresh c).wfmRamped c
  | .pattern => (d.modChan c fun x => { x with ramp := .none, drv := .off }).wr (Reg.CHAN.STATUS.settled c) 1
  | _ => d

def execRampComplete (c : ChanId) (s : State) : Out := lift s fun d => d.rampEnd c.val

/-- R186: the settling time has passed. -/
def execSettleTimeEnd (c : ChanId) (s : State) : Out :=
  lift s fun d => if (d.chan (d.lead c.val)).ramp = .none then d.wr (Reg.CHAN.STATUS.settled c.val) 1 else d

/-! The husk (R169, R170). -/

/-- Overstress: the output opens with no ramp, and the mode becomes Off; a pair ends so, and the rest of a gang ramps. -/
def Dev.overstress (d : Dev) (c : Nat) : Dev :=
  let d := (d.huskFlag (Reg.CHAN.STATUS.husk_over c) c).dropDrive c
  let l := d.lead c
  if d.forcing c then
    let d := d.modChan c fun x => { x with opened := true }
    if d.evenOfPair l then ((((d.wfmCause l 4).modeOff l).unsettle l).pairEnd l).wfmRamped l
    else
      let d := if (d.group c).length = 1 then (d.modChan c fun x => { x with ramp := .none, rampFrom := none }).unsettle c
        else (d.startRamp c true).modChan l fun x => { x with tripRamp := true }
      let d := (d.wfmCause l 4).modeOff l
      if (d.chan l).ramp = .none then d.wfmRamped l else d
  else d

def execHuskOverstress (c : ChanId) (s : State) : Out := lift s fun d => d.overstress c.val

/-- Whether channel `c` forces in mode 1 or 2. -/
def Dev.forcing12 (d : Dev) (c : Nat) : Bool := d.forcing c && (d.chMode (d.lead c) == 1 || d.chMode (d.lead c) == 2)

/-- A short is found: the clamp that R170 names has acted without break, and is acting. -/
def Dev.shortFound (d : Dev) (c : Nat) : Dev :=
  let f := if d.chMode (d.lead c) = 1 then Reg.CHAN.STATUS.iclamp_act c else Reg.CHAN.STATUS.vclamp_act c
  ((d.wr f 1).huskFlag (Reg.CHAN.STATUS.husk_short c) c).trip c

/-- A short: watched while short_time is not 0. -/
def execHuskShort (c : ChanId) (s : State) : Out :=
  lift s fun d => if d.forcing12 c.val ∧ d.rd (Reg.CHAN.CTRL.short_time c.val) ≠ 0 then d.shortFound c.val else d

/-- An open sense path (R623). -/
def execHuskOpen (c : ChanId) (s : State) : Out :=
  lift s fun d => if d.forcing12 c.val then (d.huskFlag (Reg.CHAN.STATUS.husk_open c.val) c.val).trip c.val else d

/-- A reversal: watched with rev_check, and in booster mode. -/
def execHuskReversal (c : ChanId) (s : State) : Out :=
  lift s fun d =>
    if d.on (Reg.CHAN.CTRL.rev_check c.val) ∨ d.evenOfPair c.val ∨ d.oddOfPair c.val then
      (d.huskFlag (Reg.CHAN.STATUS.husk_reverse c.val) c.val).trip c.val
    else d

end Sys2Proof.Machine
end

