-- ==== Sys2Proof/Machine/Capture.lean ====
section
/-! DEFINITION. Capture units (R291 to R314). Times of frames and triggers are in taps (R295). -/
namespace Sys2Proof.Machine
open Sys2Proof

/-! The descriptor (R296, R302). -/

/-- A descriptor from its 48 bytes. -/
def capDescOf (v : Nat) : CapDesc :=
  { ring := bits v 0 27, ringLines := bits v 32 24, cls := bits v 56 2, reduce := bit v 58, queue := bit v 59, lanes := bits v 60 3 + 1,
    pre := bits v 64 24, post := bits v 88 24, captures := bits v 112 16,
    lane := (List.range 8).map fun k => BitVec.ofNat 8 (bits v (128 + 8 * k) 8),
    interval := bits v 192 24, div := bits v 224 16, occ := bits v 240 16, trig := BitVec.ofNat 32 (bits v 256 32), record := bits v 288 27 }

/-- The reserved bits of a descriptor. -/
def capRsv (v : Nat) : Bool :=
  bits v 27 5 != 0 || bit v 63 || bits v 216 8 != 0 || bits v 280 8 != 0 || bits v 315 5 != 0 || bits v 320 64 != 0
    || (List.range 8).any fun k => bit v (135 + 8 * k)

/-- Frame bytes F (R292), and the capacity of a ring (R298). -/
def CapDesc.frameBytes (e : CapDesc) : Nat := if e.cls = 2 then 8 else (if e.reduce then 6 else 3) * e.lanes
def CapDesc.capacity (e : CapDesc) : Nat := 64 * e.ringLines / max e.frameBytes 1

/-- Fields of the trigger select word (R302). -/
def CapDesc.src (e : CapDesc) : Nat := e.trig.toNat % 16
def CapDesc.qual (e : CapDesc) : Nat := bits e.trig.toNat 4 4

/-- The trigger source is defined, with a good qualifier and identifier (R302). -/
def trigOk (v : Nat) : Bool :=
  let q := bits v 4 4
  let id := bits v 8 16
  match v % 16 with
  | 0 => q == 0 && id == 0
  | 1 => decide (1 ≤ q ∧ q ≤ 3 ∧ id < 64)
  | 2 => decide (1 ≤ q ∧ q ≤ 7 ∧ id < 64)
  | 3 => decide (1 ≤ q ∧ q ≤ 7 ∧ id < 8)
  | 4 => q == 0 && decide (id < 2)
  | 5 => q == 0
  | 6 => q == 0 && id == 0
  | _ => false

/-- Two lanes name one channel. -/
def CapDesc.twice (e : CapDesc) : Bool :=
  (List.range e.lanes).any fun i => (List.range i).any fun j => e.laneChan i == e.laneChan j

/-- The status of a request to arm, in the order of R297; `site`: ARM by a context of that site. -/
def Dev.capJudge (d : Dev) (n : Nat) (v : Nat) (site : Option Nat) : Nat :=
  let e := capDescOf v
  let ls := List.range e.lanes
  let c (k : Nat) : Nat := 32 * n + k
  if capRsv v || e.cls == 3 || e.post == 0 || e.captures == 0 || decide (e.ringLines < 4) || (e.reduce != (e.interval != 0))
      || ((List.range 8).any fun k => decide (e.lanes ≤ k) && e.laneByte k != 0) || (e.cls == 1 && e.lanes != 1)
      || (e.cls != 2 && ls.any fun k => e.laneCmp k != 0) then 3
  else if (if e.cls = 0 then decide (e.div < 16) else e.div != 0) then 5
  else if (e.reduce && e.cls == 2) || !trigOk (e.trig.toNat % 2 ^ 24) then 6
  else if e.cls ≠ 1 ∧ (e.twice || (e.cls == 0 && ls.any fun k => d.chMode (d.lead (c (e.laneChan k))) == 0) || (e.cls == 2 && ls.any fun k => e.laneCmp k == 0)) then 4
  else if site.any fun i => (e.cls != 1 && ls.any fun k => !d.inSite (c (e.laneChan k)) i)
      || ((e.src == 1 || e.src == 2) && !d.inSite (c (bits e.trig.toNat 8 5)) i) then 8
  else if 2 ^ 27 < e.ring + e.captures * e.ringLines ∨ 2 ^ 27 < e.record + e.captures then 7
  else if e.capacity < e.pre + e.post then 1
  else 0

/-- A request to arm has its status; 0 arms (R297, R299). -/
def Dev.capArm (d : Dev) (n st v : Nat) : Dev :=
  let d := d.wr (Reg.LOOM.CAP_STATUS.arm_status n) st
  if st ≠ 0 then d.wr (Reg.LOOM.CAP_STATUS.arm_reject n) 1
  else ((((d.setCap n { desc := capDescOf v }).setCapState n cArming).wr (Reg.LOOM.CAP_INDEX.capture n) 0).wr (Reg.LOOM.CAP_STATUS.queued n) 0).wr
    (Reg.LOOM.CAP_SLOT.slot n) 0

/-- The partition of capture traffic of loom `n` (R37). -/
def capPart (n : Nat) : Partition := .shared ⟨n % 24, Nat.mod_lt _ (by decide)⟩ .capture

/-- The partition through which a write of CAP_ARM reads a descriptor, where none of the conditions before it refuses it (R37, R297). -/
def Dev.capArmReads (d : Dev) (m : Master) (n : Nat) : Option Partition :=
  if d.owns m (loomBlock n) && d.unit (kCapture n) == .on && !d.capBusy n then some (capPart n) else none

/-- A write of CAP_ARM (R297). -/
def Dev.capArmWrite (d : Dev) (m : Master) (n v : Nat) : Dev :=
  if !d.owns m (loomBlock n) then (d.capArm n 9 0).refuse true
  else if d.unit (kCapture n) ≠ .on then (d.capArm n 0xA 0).refuse false
  else if d.capBusy n then (d.capArm n 2 0).refuse false
  else
    let r := (d.passing (capPart n) (linesOf (16 * bits v 0 29) 48)).readBytes (.loom n) (16 * bits v 0 29) 48
    match r.2 with
    | none => (r.1.capArm n 0xB 0).refuse false
    | some bs =>
      let st := r.1.capJudge n (leVal bs) none
      let d := r.1.capArm n st (leVal bs)
      if st = 0 then d else d.refuse false

def execCapArmWrite (m : Master) (n : LoomId) (v : BitVec 32) (s : State) : Out := lift s fun d =>
    d.writing m (d.capArmReads m n.val) (.capArmWrite m n v) (·.capArmWrite m n.val v.toNat)

/-! Lanes. -/

/-- The lanes' channels are free again: what waited for them goes on (R293). -/
def Dev.capRelease (d : Dev) (n : Nat) : Dev :=
  let e := (d.cap n).desc
  if e.cls = 0 then (List.range e.lanes).foldl (fun d k => d.chanResume (32 * n + e.laneChan k)) d else d

/-- A core exchange takes place on channel `c` (R293): in REARM the next sample is one of the next capture. -/
def Dev.capExchange (d : Dev) (c : Nat) : Dev :=
  if !d.capLane c then d
  else if d.capState (c / 32) = cRearm then d.modCap (c / 32) fun x => { x with exchNext := true }
  else d.modCap (c / 32) fun x => { x with exchange := true }

/-! Triggers (R302 to R306). -/

/-- A trigger is lost (R306). -/
def Dev.capLose (d : Dev) (n : Nat) : Dev :=
  ((((d.modCap n fun x => { x with lost := min (x.lost + 1) 0xFFFFFF }).bump (Reg.LOOM.CAP_LOST.count n)).wr (Reg.LOOM.CAP_STATUS.lost n) 1).irqLoom
    Reg.LOOM.IRQ_CAUSE.cap_err n).evc 0x1D n

/-- A trigger is acted on: frames from `from_` on are post-trigger frames. -/
def Dev.capAct (d : Dev) (n : Nat) (t : Trig) (from_ : Nat) (queued : Bool) : Dev :=
  ((d.modCap n fun x => { x with trig := some t, trigFrom := from_, wasQueued := queued }).setCapState n cPost).evc 0x1C n

/-- A trigger reaches the unit (R301, R306, R308). One placed before the end of arming was placed while the unit was busy: it
is held, and the busy time being over it acts at once, or it is lost. One that arrives in the tick of a disarm or drain is of its
step (DESIGN CHOICE, log entry 119); afterwards a capture that has had its trigger is still busy, and one that has not is over. -/
def Dev.capTrigger (d : Dev) (n : Nat) (t : Trig) : Dev :=
  let x := d.cap n
  if !d.capBusy n || x.endAt == some d.nowTaps then d
  else if d.capState n = cArmed then
    if x.closing.isSome then d
    else if atOrAfter t.place x.from_ then d.capAct n t t.place false
    else if x.desc.queue then d.capAct n t x.from_ true
    else d.capLose n
  else if (d.cap n).desc.queue && (d.cap n).held.isNone then
    (d.modCap n fun x => { x with held := some t }).wr (Reg.LOOM.CAP_STATUS.queued n) 1
  else d.capLose n

/-- A software trigger is placed at the instant at which it reaches the unit (R304). -/
def Dev.capSoft (d : Dev) (n src : Nat) : Dev := d.capTrigger n ⟨src, d.nowTaps⟩

def execCapCmdTrig (m : Master) (n : LoomId) (s : State) : Out :=
  lift s fun d =>
    if d.owns m (loomBlock n.val) then d.capSoft n.val 9 else d.rejectWith (Reg.LOOM.CAP_STATUS.cmd_reject n.val) true

/-- Where a trigger is placed: a Mill trigger of the Mill class falls just before the next word (R302). -/
def Dev.trigPlace (d : Dev) (n : Nat) (ev : TrigEvent) (place : Nat) : Nat :=
  match ev with
  | .mill => if (d.cap n).desc.cls = 1 then later d.nowTaps ((d.cap n).lastT + 1) else d.nowTaps
  | _ => place

/-- A source event reaches the unit: the occurrences-th since the capture became ARMED, or since the last trigger, is a
trigger (R303); one that comes while the sequence is still ARMING is not counted. -/
def Dev.capEvent (d : Dev) (n : Nat) (ev : TrigEvent) (place : Nat) : Dev :=
  let x := d.cap n
  if !d.capCounts n || !trigMatches x.desc.trig.toNat ev then d
  else if x.seen + 1 < x.desc.occ then d.setCap n { x with seen := x.seen + 1 }
  else (d.setCap n { x with seen := 0 }).capTrigger n ⟨x.desc.src, d.trigPlace n ev place⟩

/-- A source event on its way reaches the unit (R302, R305). Of several, the one placed first comes first, so that of two for
one capture the earlier acts (R308). -/
def Dev.trigArrives (d : Dev) (n : Nat) (ev : TrigEvent) (place : Nat) : Dev :=
  let x := d.cap n
  if x.pend.contains (ev, place) && x.pend.all fun e => atOrAfter e.2 place then
    (d.setCap n { x with pend := x.pend.erase (ev, place) }).capEvent n ev place
  else d

def execTriggerDecision (n : LoomId) (ev : TrigEvent) (place : Nat) (s : State) : Out := lift s fun d => d.trigArrives n.val ev place

/-- A held trigger is acted on when the busy time ends, at `t` (R306). -/
def Dev.capHeld (d : Dev) (n t : Nat) : Dev :=
  match (d.cap n).held with
  | none => d
  | some g => ((d.modCap n fun x => { x with held := none }).wr (Reg.LOOM.CAP_STATUS.queued n) 0).capAct n g t true

/-- The number of the first sample instant at or after now: instants are counted from Reed time 0 (R293). -/
def Dev.nextK (d : Dev) (e : CapDesc) : Nat := (8 * d.now + (25 * e.div - 1)) / max (25 * e.div) 1

/-- Arming is complete: the sequence is ARMED (R299). -/
def execArmingComplete (n : LoomId) (s : State) : Out :=
  lift s fun d =>
    if d.capState n.val = cArming then
      ((d.modCap n.val fun x => { x with from_ := d.nowTaps, seen := 0, nextK := d.nextK x.desc }).setCapState
        n.val cArmed).capHeld n.val d.nowTaps
    else d

/-! Frames (R292 to R295, R305). -/

/-- A frame is dropped: it is counted and flagged (R311). -/
def Dev.capDrop (d : Dev) (n : Nat) : Dev :=
  ((((d.modCap n fun x => { x with dropped := min (x.dropped + 1) 0xFFFFFF }).bump (Reg.LOOM.CAP_DROP.count n)).wr (Reg.LOOM.CAP_STATUS.gap n) 1).irqLoom
    Reg.LOOM.IRQ_CAUSE.cap_err n).evc 0x1B n

/-- The sequence takes frames: not before the end of arming, nor after its last post-trigger frame; a disarm lets only
the reduction interval in progress go on (R309). -/
def Dev.capTakes (d : Dev) (n : Nat) : Bool :=
  let x := d.cap n
  (d.capState n == cArmed || d.capState n == cPost) && (x.closing.isNone || decide (x.redN ≠ 0))

/-- The slot of a frame passes: the trigger frame is found, frames are counted (R300, R301). -/
def Cap.slotOf (x : Cap) (t : Nat) : Cap :=
  let c := max x.desc.capacity 1
  let hit := x.trig.isSome && x.trigFrame.isNone && atOrAfter t x.trigFrom
  let x := if hit then { x with trigFrame := some (x.written % c), validPre := min x.desc.pre x.written } else x
  { x with written := x.written + 1, slotTime := Tab.set 0 x.slotTime (x.written % c) t, postDone := if x.trigFrame.isSome then x.postDone + 1 else x.postDone }

/-- The last post-trigger frame has passed: the capture closes with cause 0 (R307). -/
def Dev.capFilled (d : Dev) (n : Nat) : Dev :=
  let x := d.cap n
  if x.trigFrame.isSome && decide (x.desc.post ≤ x.postDone) then
    let d := d.setCap n { x with closing := some (x.closing.getD 0), hold := [], redN := 0 }
    if d.rd (Reg.LOOM.CAP_INDEX.capture n) + 1 < x.desc.captures ∧ x.closing.isNone then d.setCapState n cRearm else d
  else d

/-- Frames in the hold: those dropped take no room in it. -/
def Cap.held4096 (x : Cap) : Bool := decide (4096 ≤ (x.hold.filter (!·.gone)).length)

/-- A frame takes its place in the hold: behind those of earlier instants, and behind those of its own with a lower key. -/
def putFrame (f : Frame) (l : List Frame) : List Frame :=
  let late := (l.reverse.takeWhile fun g => (g.t == f.t && decide (f.key < g.key)) || (g.t != f.t && atOrAfter g.t f.t)).length
  l.take (l.length - late) ++ f :: l.drop (l.length - late)

/-- A frame with its instant and bytes enters the hold, or is dropped where 4,096 are held: its slot then passes in its turn,
but in the event class (R305, R311). -/
def Dev.capFrame (d : Dev) (n : Nat) (f : Frame) : Dev :=
  if !(d.cap n).held4096 then d.modCap n fun x => { x with hold := putFrame f x.hold }
  else
    let d := d.capDrop n
    if (d.cap n).desc.cls = 2 then d else d.modCap n fun x => { x with hold := putFrame { f with gone := true } x.hold }

/-- One sample of every lane at instant `t`, reduced where the descriptor says (R292). -/
def Dev.capSample (d : Dev) (n t : Nat) (vs : List Int) : Dev :=
  let x := d.cap n
  if !atOrAfter t x.from_ then d
  else if !x.desc.reduce then d.capFrame n { t := t, bytes := vs.flatMap fun v => leBytes 3 (toCode 24 v) }
  else
    let ks := List.range vs.length
    let mn := ks.map fun k => if x.redN = 0 then vs.getD k 0 else min (Tab.get 0 x.redMin k) (vs.getD k 0)
    let mx := ks.map fun k => if x.redN = 0 then vs.getD k 0 else max (Tab.get 0 x.redMax k) (vs.getD k 0)
    let tab (l : List Int) : Tab Int := ks.foldl (fun t k => Tab.set 0 t k (l.getD k 0)) []
    if x.redN + 1 < x.desc.interval + 1 then d.setCap n { x with redN := x.redN + 1, redMin := tab mn, redMax := tab mx }
    else (d.setCap n { x with redN := 0, redMin := [], redMax := [] }).capFrame n
      { t := t, bytes := ks.flatMap fun k => leBytes 3 (toCode 24 (mn.getD k 0)) ++ leBytes 3 (toCode 24 (mx.getD k 0)) }

/-- The channel of a lane cannot take a sample: it is Off, or ramps after a trip (R293). -/
def Dev.laneOff (d : Dev) (c : Nat) : Bool := d.chMode (d.lead c) == 0 || (d.chan (d.lead c)).tripRamp

/-- What a converter lane records of its channel's present readings: the code its mode gives, the booster loop's latest sample on
a pair, or the mark of a sample that the channel cannot take (R293). -/
def Dev.laneCode (d : Dev) (c : Nat) : Int × Bool :=
  if d.laneOff c then (-8388608, true)
  else if d.evenOfPair c || (!d.oddOfPair c && d.readsVolt c) then ((d.chan c).vNow.toInt, false)
  else ((d.chan c).iNow.toInt, false)

/-- The readings of a lane's channel after its sample of raw code `v`: of the quantity that its mode gives, the corrected sample. -/
def Dev.laneSample (d : Dev) (c : Nat) (v : BitVec 24) : BitVec 24 × BitVec 24 :=
  let r := d.sampleOf c v v
  if d.readsVolt c then (r.1, (d.chan c).iNow) else ((d.chan c).vNow, r.2)

/-- A lane that is no booster pair's converts at the capture's instants: its reading follows, with its over-range flag
(R160, R162, R293). -/
def Dev.laneConvert (d : Dev) (c : Nat) (v : BitVec 24) : Dev :=
  let x := d.chan c
  if d.laneOff c then d
  else if d.evenOfPair c then d.laneFeed (c / 32) (c % 32) x.vNow
  else if d.oddOfPair c then d.laneFeed (c / 32) (c % 32) x.iNow
  else d.convert c (d.laneSample c v).1 (d.laneSample c v).2

/-- Codes that the lanes of a sequence can give: parked ones give their node's (R624). -/
def Dev.codesOk (d : Dev) (n : Nat) (e : CapDesc) (codes : List (BitVec 24)) : Bool :=
  (List.range e.lanes).all fun k =>
    let c := 32 * n + e.laneChan k
    let r := d.sampleOf c (codes.getD k 0) (codes.getD k 0)
    let set := d.parkedSet c
    !d.parked c || (if d.readsVolt c then d.parkedReads c r.1 (BitVec.ofInt 24 (parkedI (d.rd (Reg.CHAN.CTRL.range (d.lead c))) set))
      else d.parkedReads c (BitVec.ofInt 24 set) r.2)

/-- The next sample instant of a converter sequence (R293): a multiple of div × 31.25 ns. The lanes convert from the end of arming on,
also while the sequence takes no frame. -/
def Dev.capInstant (d : Dev) (n : Nat) (codes : List (BitVec 24)) : Dev :=
  let x := d.cap n
  let e := x.desc
  let k := if 2 ^ 51 ≤ 25 * e.div * x.nextK then 0 else x.nextK
  let u := 25 * e.div * k
  if e.cls ≠ 0 ∨ !d.capCounts n ∨ !d.comes (u / 8) ∨ !d.codesOk n e codes then d
  else
    let d := d.advanceTo (u / 8)
    let d := (List.range e.lanes).foldl (fun d k => d.laneConvert (32 * n + e.laneChan k) (codes.getD k 0)) d
    let d := d.modCap n fun x => { x with nextK := k + 1 }
    if d.capTakes n then
      let rs := (List.range e.lanes).map fun k => d.laneCode (32 * n + e.laneChan k)
      (d.modCap n fun x => { x with laneInvalid := x.laneInvalid || rs.any (·.2) }).capSample n (1280 * u % tapSpan) (rs.map (·.1))
    else d

def execCaptureSampleInstant (n : LoomId) (codes : List (BitVec 24)) (s : State) : Out := lift s fun d => d.capInstant n.val codes

/-- A word of the Mill reaches the capture unit (R294): false where the word is discarded. -/
def Dev.capMillWord (d : Dev) (n : Nat) (w : Int) : Dev × Bool :=
  if (d.cap n).desc.cls ≠ 1 ∨ !d.capBusy n then (d, false)
  else if d.capTakes n then
    let t := later d.nowTaps ((d.cap n).lastT + 1)
    ((d.modCap n fun x => { x with lastT := t }).capSample n t [w], true)
  else (d, true)

/-- A comparator edge of channel `c` at an event sequence, at `t` at the ball (R295). -/
def Dev.capEdge (d : Dev) (c : Nat) (lo level : Bool) (t : Nat) : Dev :=
  let n := c / 32
  let e := (d.cap n).desc
  if e.cls = 2 ∧ d.capTakes n then
    match (List.range e.lanes).find? fun k => e.laneChan k == c % 32 && bit (e.laneCmp k) (b2n lo) with
    | some k => d.capFrame n { t := t, key := 2 * k + b2n lo, bytes := leBytes 6 (t % 2 ^ 48) ++ [BitVec.ofNat 8 (k + 8 * b2n lo + 16 * b2n level), 0] }
    | none => d
  else d

/-- The hold of a frame, 256 ns, in taps (R305). -/
def capHoldTaps : Nat := 262144

/-- A request is a line that the capture unit of loom `n` writes. -/
def Held.isLine (h : Held) (n : Nat) : Bool :=
  drawKey h.q == drawKey (capPart n) && (match h.ask with | .cmd (.granaryLineAccess _ _ _ _ _) => true | _ => false)

/-- Lines that wait in the outgoing queue of loom `n` for a shared credit (R34, R311). -/
def Dev.capQueued (d : Dev) (n : Nat) : Nat := ((d.waiting (capPart n)).filter (·.isLine n)).length

/-- The newest request of the outgoing queue of loom `n`, where it is a line that frames can still be packed into, and its line. -/
def Dev.capTail (d : Dev) (n : Nat) : Option Nat :=
  ((d.waiting (capPart n)).filter (·.isLine n)).getLast?.bind fun h => match h.ask with
    | .cmd (.granaryLineAccess _ l (.write _ _) _ _) => some l.toNat
    | _ => none

/-- The bytes of `bs`, which start at address `a`, that lie in line `l`: the data of a line write, and its byte enables. -/
def lineData (a l : Nat) (bs : List Byte) : BitVec 512 × BitVec 64 :=
  let at_ (j : Nat) : Option Byte := if a ≤ 64 * l + j then bs[64 * l + j - a]? else none
  (BitVec.ofNat 512 (leVal ((List.range 64).map fun j => (at_ j).getD 0)), BitVec.ofNat 64 (maskTo (fun j => (at_ j).isSome) 64))

/-- The bits of a line whose bytes are enabled. -/
def byteMask (be : BitVec 64) : BitVec 512 := BitVec.ofNat 512 (leVal ((List.range 64).map fun j => if be.getLsbD j then 255#8 else 0))

/-- Enabled bytes of a line join the newest request of the queue. -/
def packLine (n : Nat) (w : BitVec 512) (be : BitVec 64) : List Held → List Held
  | [] => []
  | h :: t =>
    if h.isLine n && !t.any (·.isLine n) then
      (match h.ask with
        | .cmd (.granaryLineAccess q l (.write w0 be0) e0 e1) =>
          { h with ask := .cmd (.granaryLineAccess q l (.write ((w0 &&& ~~~byteMask be) ||| (w &&& byteMask be)) (be0 ||| be)) e0 e1) }
        | _ => h) :: t
    else h :: packLine n w be t

/-- The part of a frame in line `l` goes out: packed into the line that waits at the end of the queue (R311), or as a line write of its
own; `e` is what the controller's correction finds in the line's first half, where it merges a part (R381). -/
def Dev.capLine (d : Dev) (n a l : Nat) (bs : List Byte) (e : Ecc) : Dev :=
  let w := lineData a l bs
  if d.capTail n = some l then
    { d with waitGran := Tab.set [] d.waitGran (partKey (capPart n)) (packLine n w.1 w.2 (d.waiting (capPart n))) }
  else d.lineAccess (capPart n) (BitVec.ofNat 27 l) (.write w.1 w.2) e .good

/-- The bytes `bs` from address `a` go out. -/
def Dev.capWrite (d : Dev) (n a : Nat) (bs : List Byte) (e : Ecc) : Dev :=
  (List.range (linesOf a bs.length)).foldl (fun (d : Dev) i => d.capLine n a (a / 64 + i) bs (if i = 0 then e else .good)) d

/-- Entries of the outgoing queue that a frame of `len` bytes at `a` takes. -/
def Dev.capTakesLines (d : Dev) (n a len : Nat) : Nat := linesOf a len - b2n (d.capTail n == some (a / 64))

/-- The slot of a frame passes (R300, R314), and the capture may be complete. -/
def Dev.capPass (d : Dev) (n t : Nat) (wrote : Bool) : Dev :=
  let d := d.modCap n fun x =>
    let y := x.slotOf t
    if wrote && y.trigFrame.isSome then { y with postWritten := y.postWritten + 1 } else y
  (d.wr (Reg.LOOM.CAP_SLOT.slot n) ((d.cap n).written % max (d.cap n).desc.capacity 1)).capFilled n

/-- A decision is on its way whose trigger is placed at or before `t`: it reaches the unit within 250 ns, before the hold of a frame of
that instant is over (R305). -/
def Cap.undecided (x : Cap) (t : Nat) : Bool := x.pend.any fun e => atOrAfter t e.2

/-- The oldest frame leaves the hold for the outgoing queue of 64 lines, or finds it full and is dropped (R300, R301, R311). -/
def Dev.capFrameOut (d : Dev) (n : Nat) (e : Ecc) : Dev :=
  let x := d.cap n
  match x.hold with
  | [] => d
  | f :: rest =>
    let out := (f.t + capHoldTaps) % tapSpan / 10240
    if !d.comes out || x.undecided f.t then d
    else
      let d := (d.advanceTo out).setCap n { x with hold := rest }
      let i := x.written % max x.desc.capacity 1
      let a := 64 * (x.desc.ring + d.rd (Reg.LOOM.CAP_INDEX.capture n) * x.desc.ringLines) + x.desc.frameBytes * i
      if f.gone then d.capPass n f.t false
      else if 64 < d.capQueued n + d.capTakesLines n a f.bytes.length then
        let d := d.capDrop n
        if x.desc.cls = 2 then d else d.capPass n f.t false
      else ((d.capWrite n a f.bytes e).evc 0x1A n).capPass n f.t true

def execCaptureFrameRelease (n : LoomId) (e : Ecc) (s : State) : Out := lift s fun d => d.capFrameOut n.val e

/-! Records and ends (R306 to R312). -/

/-- The 64 bytes of a record. -/
def Cap.record (x : Cap) (j : Nat) : List Byte :=
  let e := x.desc
  let c := max e.capacity 1
  let done := x.trigFrame.isSome
  let vp := if done then x.validPre else min e.pre x.written
  let first := if done then (x.trigFrame.getD 0 + c - vp % c) % c else (x.written - vp) % c
  let t0 := if x.written = 0 then 0 else Tab.get 0 x.slotTime first
  let tr := if done then x.trig.getD ⟨0, 0⟩ else ⟨0, 0⟩
  let st := x.closing.getD 0 + 8 * b2n done + 16 * b2n (decide (vp < e.pre)) + 32 * b2n (done && x.wasQueued) + 64 * b2n (decide (x.dropped ≠ 0))
    + 128 * b2n x.laneInvalid + 256 * b2n x.exchange
  let bs := leBytes 2 st ++ leBytes 2 j ++ leBytes 3 vp ++ leBytes 3 x.postWritten ++ leBytes 3 first ++ leBytes 3 (x.trigFrame.getD 0)
    ++ leBytes 6 (tr.place / 10240) ++ leBytes 2 (tr.place % 10240) ++ leBytes 6 (t0 / 10240) ++ leBytes 2 (t0 % 10240)
    ++ leBytes 1 tr.src ++ leBytes 3 x.dropped ++ leBytes 3 x.lost ++ leBytes 1 e.frameBytes ++ leBytes 4 (e.ring + j * e.ringLines) ++ leBytes 3 e.capacity
  bs ++ List.replicate (64 - bs.length) 0

/-- A record waits to be closed: its frames have left the hold, and their lines have completed at the Granary (R310). -/
def Dev.capCloses (d : Dev) (n : Nat) : Bool :=
  let x := d.cap n
  x.closing.isSome && x.hold.isEmpty && decide (x.redN = 0) && Tab.get 0 d.inUse (drawKey (capPart n)) == 0 && d.capQueued n == 0

/-- A record is written and closed, once its frames have left the hold and completed at the Granary (R310). -/
def Dev.capClose (d : Dev) (n : Nat) : Dev :=
  let x := d.cap n
  match x.closing with
  | none => d
  | some k =>
    if !d.capCloses n || !d.mayAccess (capPart n) then d
    else
      let j := d.rd (Reg.LOOM.CAP_INDEX.capture n)
      let d := ((d.passing (capPart n) 1).writeBytes (.loom n) (64 * (x.desc.record + j)) ((x.record j).map some)).1
      let d := (((d.wr (Reg.LOOM.CAP_STATUS.closed n) 1).irqLoom Reg.LOOM.IRQ_CAUSE.cap_closed n).evc 0x1E n).unitEvent 3 n
      if d.capState n = cRearm ∧ k = 0 ∧ !x.quit then d.modCap n fun x => { x with closing := none, lost := 0 }
      else
        let d := if x.held.isSome then d.capLose n else d
        let d := (d.modCap n fun x => { x with closing := none, held := none, pend := [] }).wr (Reg.LOOM.CAP_STATUS.queued n) 0
        (d.setCapState n (if k = 0 ∧ !x.quit then cDone else cIdle)).capRelease n

def execCaptureRecordClose (n : LoomId) (s : State) : Out := lift s fun d =>
    d.accessing (if d.capCloses n.val then some (capPart n.val) else none) (.captureRecordClose n) (·.capClose n.val)

/-- Re-arming is complete: the next capture of the sequence is ARMED in its own ring, the record before being closed (R307). -/
def Dev.capRearm (d0 : Dev) (n : Nat) : Dev :=
  let d := if d0.capState n = cRearm then d0.capClose n else d0
  let x := d.cap n
  if d.capState n ≠ cRearm ∨ x.closing.isSome then d
  else
    let t := d.nowTaps
    let d := (d.wr (Reg.LOOM.CAP_INDEX.capture n) (d.rd (Reg.LOOM.CAP_INDEX.capture n) + 1)).wr (Reg.LOOM.CAP_SLOT.slot n) 0
    let d := d.setCap n { desc := x.desc, from_ := t, held := x.held, pend := x.pend, lost := x.lost, exchange := x.exchNext, nextK := if reached (25 * x.desc.div * x.nextK / 8) d.now then x.nextK else d.nextK x.desc, lastT := x.lastT }
    (d.setCapState n cArmed).capHeld n t

def execRearmComplete (n : LoomId) (s : State) : Out := lift s fun d => d.capRearm n.val

/-- A capture is ended with a cause: a disarm, a drain or a quarantine (R309). A sequence still arming has no frame. One whose last
post-trigger frame has passed keeps its end cause, and the sequence is IDLE, not DONE, once its record is closed. -/
def Dev.capEnd (d : Dev) (n cause : Nat) : Dev :=
  if !d.capBusy n then d
  else
    let d := d.modCap n fun x => { x with endAt := some d.nowTaps, quit := x.quit || x.closing.isSome }
    let d := if d.capState n = cRearm then d.capClose n else d
    let rearm := d.capState n == cRearm || d.capState n == cArming
    if !d.capBusy n ∨ (d.capState n = cRearm ∧ (d.cap n).closing.isSome) then d else
    let d := d.modCap n fun x =>
      { x with closing := some (x.closing.getD cause), hold := if cause = 3 || rearm then [] else x.hold, redN := if cause = 3 || rearm then 0 else x.redN }
    if rearm then
      (((d.modCap n fun x => { x with closing := none, held := none }).wr (Reg.LOOM.CAP_STATUS.queued n) 0).setCapState n cIdle).capRelease n
    else if cause = 3 then d.capClose n
    else d

def execCapCmdDisarm (_m : Master) (n : LoomId) (s : State) : Out := lift s fun d => d.capEnd n.val 1

/-! The CAP instructions (R109, R110). -/

/-- The conditions of a CAP for loom `n` (R110, R117). -/
def Dev.capChecks (d : Dev) (x : Ctx) (n : Nat) : List (Bool × BitVec 24) :=
  [(decide (23 < n), fOperand 0x0108), (!d.loomInSite n x.site.toNat, fOperand 0x0103)]

def Dev.capUnit (d : Dev) (n : Nat) : List (Bool × BitVec 24) :=
  [(d.quar n, fQuarantine n), (d.unit (kCapture n) != .on, fUnitDisabled 3 n)]

/-- The conditions of ARM before its descriptor is read. -/
def Dev.armChecks (d : Dev) (i : RRX) (x : Ctx) : List (Bool × BitVec 24) :=
  let n := loomOf x (i.ext.toNat % 32)
  [badForm (!i.x), badIndex (above3 i.s)] ++ d.capChecks x n ++ [(decide (granSize < (x.ra i.s.toNat).toNat + 48), fAddress 1)] ++ d.capUnit n

/-- ARM: the status in w_d, Z where armed. The faults of R110, that of an uncorrectable descriptor with them, come before the
table of R297. -/
def execArm (c : CtxId) (i : RRX) (s : State) : Out :=
  lift s fun d => d.withCredit c i.x (.arm c i) (d.armChecks i) fun d => d.issue c i.x fun d x =>
    let n := loomOf x (i.ext.toNat % 32)
    let a := (x.ra i.s.toNat).toNat
    let r := (d.passing (shuttlePart x.home.toNat) (linesOf a 48)).readBytes (GSrc.shuttle x.home.toNat) a 48
    guarded (d.armChecks i x) (match r.2 with
      | none => .faultIn r.1 (fData 1)
      | some bs =>
        let st := if r.1.capBusy n then 2 else r.1.capJudge n (leVal bs) (some x.site.toNat)
        .ok ((r.1.capArm n st (leVal bs)).modCtx c fun y => (y.setW i.d.toNat (BitVec.ofNat 24 st)).setZ (st == 0)))

/-- DISARM. -/
def execDisarm (c : CtxId) (i : RRX) (s : State) : Out :=
  lift s fun d => d.issue c i.x fun d x =>
    let n := loomOf x ((opB x i).toNat % 32)
    guarded ([badReserved (nz i.d || (i.x && nz i.s))] ++ d.capChecks x n ++ d.capUnit n) (.ok (d.capEnd n 1))

/-- TRIG. -/
def execTrig (c : CtxId) (i : RRX) (s : State) : Out :=
  lift s fun d => d.issue c i.x fun d x =>
    let n := loomOf x ((opB x i).toNat % 32)
    guarded ([badReserved (nz i.d || (i.x && nz i.s))] ++ d.capChecks x n ++ d.capUnit n) (.ok (d.capSoft n 8))

end Sys2Proof.Machine
end

