-- ==== Sys2Proof/Machine/Mill.lean ====
section
/-! DEFINITION. The Mill beside its operations (R330 to R339, R346 to R356): lanes, images, starts and ends. -/
namespace Sys2Proof.Machine
open Sys2Proof

/-- The status word (R352). -/
def Mill.status (x : Mill) : Nat :=
  x.cause + 16 * b2n x.sat + 32 * b2n x.accSat + 64 * b2n x.inDrop + 128 * b2n x.outDisc + 256 * b2n x.exchange + 512 * b2n x.calBus + 65536 * x.code

/-! Data memory (R333). -/

def Mill.word (x : Mill) (a : Nat) : BitVec 24 := Tab.get 0 x.dm a
/-- Writes a data word, which clears an error that it held. -/
def Mill.setWord (x : Mill) (a : Nat) (v : BitVec 24) : Mill := { x with dm := Tab.set 0 x.dm a v, dmErr := Tab.set .good x.dmErr a .good }

/-- The 3-byte words of a list of bytes (R344, R346). -/
def words3 : Nat → List Byte → List (BitVec 24)
  | 0, _ => []
  | k + 1, bs => BitVec.ofNat 24 (leVal (bs.take 3)) :: words3 k (bs.drop 3)

/-! Ends (R349 to R351). -/

/-- The kernel ends with a cause; lanes stop, and IDLE follows when its posted writes have completed. -/
def Mill.stop (x : Mill) (cause : Nat) : Mill := { x with ended := true, cause := cause, wait := .none, feed := [], ask := none }

/-- The Mill of loom `n` enters IDLE: the contexts that wait on it are told (R93, R109, R110, R349). -/
def Dev.millToIdle (d : Dev) (n : Nat) : Dev :=
  let d := d.modMill n fun x => { x with state := mIdle, ended := false, wait := .none, load := none, ask := none }
  let x := d.mill n
  let d := (d.irqLoom Reg.LOOM.IRQ_CAUSE.mill_idle n).unitEvent 4 n
  if x.cause = 4 then
    ((d.releaseIf (fun y => match y.wait with | .mwait k _ => k == n | .mload k _ => k == n | .mstart k _ => k == n | .mloading k => k == n | _ => false)
      (.fault (fUnitDisabled 2 n))).modMill n fun x => { x with queue := [] })
  else d.releaseIf (fun y => match y.wait with | .mwait k _ => k == n | _ => false) (.value (BitVec.ofNat 24 x.status))

/-- The kernel has ended and its posted writes have completed: IDLE, and after cause 7 HELD (R350, R52). Where the loom has been
released before that, the release acts on the unit once it is HELD (R547; DESIGN CHOICE, log entry 120). -/
def execMillIdle (n : LoomId) (s : State) : Out :=
  lift s fun d =>
    let x := d.mill n.val
    if x.ended && x.posted == 0 then
      let d := d.evc 0x21 n.val
      let d := (if x.cause = 0 then d else d.irqLoom Reg.LOOM.IRQ_CAUSE.mill_err n.val).millToIdle n.val
      if d.quar n.val || x.cause == 7 then d.setUnit (kMill n.val) .held else d
    else d

/-- A stop from any master: at the step boundary the kernel ends. Beside a start that waits, it leaves that start
unmade (R350, R351). -/
def Dev.millStop (d : Dev) (n : Nat) : Dev :=
  let x := d.mill n
  if x.live then d.setMill n (x.stop 1)
  else if x.state = mIdle then
    match x.queue with
    | c :: rest =>
      match (d.ctx c).wait with
      | .mstart _ _ => (d.setMill n { x with queue := rest, cause := 1 }).release c .done
      | _ => d
    | [] => d
  else d

def execMillCmdStop (_m : Master) (n : LoomId) (s : State) : Out := lift s fun d => d.millStop n.val

/-- A drain, or a quarantine (cause 7), reaches the Mill at a step boundary (R54, R350). -/
def Dev.millCut (d : Dev) (n cause : Nat) : Dev :=
  let x := d.mill n
  if x.live then d.setMill n (x.stop cause)
  else if x.state = mLoading then (d.setMill n { x with cause := cause }).millToIdle n
  else d

/-- Quarantine of the loom: the Mill is HELD once its kernel has ended and its posted writes have completed (R350, R544). -/
def Dev.millQuar (d : Dev) (n : Nat) : Dev :=
  let d := d.millCut n 7
  if (d.mill n).ended then d else d.setUnit (kMill n) .held

/-! Starts (R330, R348). -/

/-- The state of R330 at a start. -/
def Mill.started (x : Mill) (entry : Nat) : Mill :=
  { x with a := 0, v := [], z := false, neg := false, ags := [], loop0 := none, loop1 := none, gaddr := 0, pc := entry, steps := 0,
           state := mRunning, wait := .none, cause := 0, sat := false, accSat := false, inDrop := false, outDisc := false,
           exchange := false, calBus := false, code := 0, row := [], avail := [], feed := [], ended := false }

def Dev.millStart (d : Dev) (n entry : Nat) : Dev := d.modMill n (·.started entry)

/-- A register start (R348, R351, R355). -/
def execMillCmdStart (m : Master) (n : LoomId) (entry : BitVec 11) (stop : Bool) (s : State) : Out :=
  lift s fun d =>
    let reject (r : Nat) (own : Bool) : Dev := (d.wr (Reg.LOOM.MILL_STATE.reject_code n.val) r).rejectWith (Reg.LOOM.MILL_STATE.start_reject n.val) own
    if !d.owns m (loomBlock n.val) then (if stop then (reject 1 true).millStop n.val else reject 1 true)
    else if stop then
      if (d.mill n.val).state = mIdle then d.modMill n.val fun x => { x with cause := 1 } else d.millStop n.val
    else if (d.mill n.val).state ≠ mIdle then reject 2 false
    else if d.unit (kMill n.val) ≠ .on then reject 3 false
    else d.millStart n.val entry.toNat

/-- A load takes the Mill through LOADING (R347). -/
def Dev.millLoad (d : Dev) (n a c : Nat) : Dev := d.modMill n fun x => { x with state := mLoading, load := some (a, c) }

/-- The first context that waits for IDLE starts its kernel or its load (R348). -/
def Dev.millQueued (d : Dev) (n : Nat) : Dev :=
  let x := d.mill n
  match x.queue with
  | [] => d
  | c :: rest =>
    if x.state ≠ mIdle then d
    else
      let d := d.setMill n { x with queue := rest }
      if d.unit (kMill n) ≠ .on then d.release c (.fault (if d.quar n then fQuarantine n else fUnitDisabled 2 n))
      else match (d.ctx c).wait with
        | .mstart _ e => (d.millStart n e.toNat).release c .done
        | .mload _ a => (d.millLoad n a.toNat c).modCtx c fun y => { y with wait := .mloading n }
        | _ => d

def execQueuedMillStart (n : LoomId) (s : State) : Out := lift s fun d => d.millQueued n.val

/-! Images (R346, R347). -/

/-- The partition of a Mill's reads and writes (R37). -/
def millPart (n : Nat) : Partition := .shared ⟨n % 24, Nat.mod_lt _ (by decide)⟩ .mill


/-- The header of an image. -/
structure MHead where
  nOp : Nat
  nD : Nat
  d0 : Nat
  mask : BitVec 34
  inBase : Nat
  lg : Nat
  hist : Nat
  deriving DecidableEq, Repr

/-- The number of lanes that a mask enables (R336). -/
def lanesOf (m : BitVec 34) : Nat := popcount m.toNat 34

/-- A header that keeps the rules of R346, from its 32 bytes. -/
def millHead (v : Nat) : Option MHead :=
  let h : MHead := { nOp := bits v 16 16, nD := bits v 32 16, d0 := bits v 48 16, mask := BitVec.ofNat 34 (bits v 64 34),
                     inBase := bits v 104 16, lg := bits v 120 4, hist := bits v 128 16 }
  let nl := lanesOf h.mask
  if bits v 0 16 = 1 ∧ 1 ≤ h.nOp ∧ h.nOp ≤ 2048 ∧ h.nD ≤ 32768 ∧ h.d0 + h.nD ≤ 32768 ∧ bits v 98 6 = 0 ∧ h.inBase ≤ 32767 ∧ bits v 124 4 = 0
      ∧ bits v 144 112 = 0 ∧ (nl = 0 ∨ (4 ≤ h.lg ∧ h.lg ≤ 10 ∧ h.hist < 2 ^ h.lg ∧ h.inBase + nl * 2 ^ h.lg ≤ 32768)) then some h
  else none

/-- An accepted image is stored (R347). -/
def Mill.image (x : Mill) (h : MHead) (ops data : List (BitVec 24)) : Mill :=
  let pm := (List.range h.nOp).foldl (fun t i => Tab.set 0 t i (ops.getD i 0)) []
  let x := (List.range h.nD).foldl (fun (x : Mill) i => x.setWord (h.d0 + i) (data.getD i 0)) x
  { x with pm := pm, pmErr := [], mask := h.mask, inBase := h.inBase, lg := h.lg, hist := h.hist,
           cause := 0, sat := false, accSat := false, inDrop := false, outDisc := false, exchange := false, calBus := false, code := 0 }

/-- The load of context `c` has ended with result `r`: the context goes on, where it still waits for it (R133). -/
def Dev.loadOver (d : Dev) (n c : Nat) (r : Release) : Dev := if (d.ctx c).wait = .mloading n then d.release c r else d

/-- The image has been read: `e` is what the correction finds in it beside what the Granary holds. -/
def Dev.millLoaded (d : Dev) (n : Nat) (e : Ecc) : Dev :=
  let x := d.mill n
  match x.load with
  | none => d
  | some (a, c) =>
    let bad (d : Dev) : Dev :=
      (((d.modMill n fun x => { x with pm := [], pmErr := [], cause := 5 }).millToIdle n).loadOver n c (.fault (fData 1)))
    let r := (d.passing (millPart n) (linesOf a 32)).touchAll (.loom n) (a / 32) (fun h => if h = a / 32 then e else .good) (halves a 32)
    if !r.2 then bad r.1
    else match millHead (leVal (r.1.bytesAt a 32)) with
      | none => ((r.1.modMill n fun x => { x with cause := 6 }).millToIdle n).loadOver n c .done
      | some h =>
        let len := 3 * (h.nOp + h.nD)
        if granSize < a + 32 + len then ((r.1.modMill n fun x => { x with cause := 6 }).millToIdle n).loadOver n c .done
        else
          let r := (r.1.passing (millPart n) (linesOf (a + 32) len)).readBytes (.loom n) (a + 32) len
          match r.2 with
          | none => bad r.1
          | some bs => ((r.1.modMill n fun x => x.image h (words3 h.nOp bs) (words3 h.nD (bs.drop (3 * h.nOp)))).millToIdle n).loadOver n c .done

/-- The errors that the memories come to hold: of data words, and of operations (R333). -/
def Mill.errors (x : Mill) (r : ImageRead) : Mill :=
  { x with dmErr := r.dm.foldl (fun t e => Tab.set .good t e.1.toNat e.2) x.dmErr,
           pmErr := r.pm.foldl (fun t i => Tab.set false t i.toNat true) x.pmErr }

/-- The image arrives. The operand says too which words of the memories hold an error from then on, until they are written
(DESIGN CHOICE: no command says when an error strikes; log entry 108). -/
def execMillImageLoaded (n : LoomId) (r : ImageRead) (s : State) : Out :=
  lift s fun d =>
    if (d.mill n.val).load.isSome then
      d.accessing (some (millPart n.val)) (.millImageLoaded n r) fun d => (d.millLoaded n.val r.gran).modMill n.val (·.errors r)
    else d

/-! Lanes (R336 to R339). -/

/-- WAITIN is satisfied (R343). -/
def Mill.inputs (x : Mill) (all : Bool) (slot n : Nat) : Bool :=
  if all then (List.range (lanesOf x.mask)).all fun q => decide (n ≤ Tab.get 0 x.avail q) else decide (n ≤ Tab.get 0 x.avail slot)

/-- WAITIN lowers the counts that it waited for. -/
def Mill.consume (x : Mill) (all : Bool) (slot n : Nat) : Mill :=
  (List.range (lanesOf x.mask)).foldl (fun (x : Mill) q =>
    if all || q == slot then { x with avail := Tab.set 0 x.avail q (Tab.get 0 x.avail q - n) } else x) x

/-- The next PC after the operation at `p`, with the loops that end there: the inner level first (R342). `none`: past 2,047. -/
def Mill.nextPc (x : Mill) : Mill × Option Nat :=
  let p := x.pc
  let at0 := x.loop0.any (·.last == p)
  let at1 := x.loop1.any (·.last == p)
  let inner0 : Bool := match x.loop0, x.loop1 with
    | some l, some k => decide (k.first < l.first)
    | some _, none => true
    | none, _ => false
  let back (l : MLoop) : Bool := decide (1 < l.count)
  let try0 (x : Mill) : Mill × Option Nat := match x.loop0 with
    | some l => if at0 then (if back l then ({ x with loop0 := some { l with count := l.count - 1 } }, some l.first) else ({ x with loop0 := none }, none)) else (x, none)
    | none => (x, none)
  let try1 (x : Mill) : Mill × Option Nat := match x.loop1 with
    | some l => if at1 then (if back l then ({ x with loop1 := some { l with count := l.count - 1 } }, some l.first) else ({ x with loop1 := none }, none)) else (x, none)
    | none => (x, none)
  let r := if inner0 then try0 x else try1 x
  match r.2 with
  | some t => (r.1, some t)
  | none =>
    let q := if inner0 then try1 r.1 else try0 r.1
    match q.2 with
    | some t => (q.1, some t)
    | none => (q.1, if p + 1 < 2048 then some (p + 1) else none)

/-- An operation is complete: the next follows, or the kernel ends with cause 2 past 2,047 (R340). -/
def Mill.advance (x : Mill) : Mill :=
  let r := x.nextPc
  match r.2 with
  | some t => { r.1 with pc := t, state := mRunning, wait := .none }
  | none => r.1.stop 2

/-- A waiting WAITIN or GSYNC meets its condition (R341, R343). -/
def Mill.poll (x : Mill) : Mill :=
  if !x.live then x
  else match x.wait with
    | .waitin all q n => if x.inputs all q n then (x.consume all q n).advance else x
    | .gsync => if x.posted = 0 then x.advance else x
    | _ => x

/-- A sample arrives on the lane of a source: it is written, or dropped (R338). -/
def Dev.millSample (d : Dev) (n src : Nat) (code : BitVec 24) : Dev :=
  let x := d.mill n
  if !x.takes src then d
  else
    let q := x.slotOf src
    let depth := 2 ^ x.lg
    let av := Tab.get 0 x.avail q
    if av + x.hist < depth then
      let r := Tab.get 0 x.row q
      let x := x.setWord ((x.inBase + r % depth * lanesOf x.mask + q) % 32768) code
      let x := { x with row := Tab.set 0 x.row q (r + 1), avail := Tab.set 0 x.avail q (av + 1) }
      (d.peak (Reg.LOOM.MILL_PEAK.peak n) (av + 1)).setMill n x.poll
    else ((d.setMill n { x with inDrop := true }).bump (Reg.LOOM.MILL_DROP.count n)).evc 0x20 n

/-- Spare core 32 or 33 serves a ball pair (R21, R551). -/
def Dev.spareServes (d : Dev) (n : Nat) (s33 : Bool) : Bool :=
  d.rd (if s33 then Reg.LOOM.SPARE.s33_ball n else Reg.LOOM.SPARE.s32_ball n) < 32

/-- The spare is being exchanged: into a ball pair, or out of the one that it serves (R337). -/
def Dev.spareMoves (d : Dev) (n core : Nat) : Bool :=
  (d.box n).moving.any fun e => e.dest == core || d.rd (if core = 33 then Reg.LOOM.SPARE.s33_ball n else Reg.LOOM.SPARE.s32_ball n) == e.k

/-- The calibration engine uses the bus of loom `n` (a core on it, or the check and the ladder phase, R470), or the spare
is being exchanged (R337). -/
def Dev.busInUse (d : Dev) (n core : Nat) : Bool :=
  (Tab.get none d.cal.work n).any (·.stage == 1)
    || (d.rd Reg.CAL_STATUS.state == 1 && decide (d.rd Reg.CAL_STATUS.phase < 2) && d.rd Reg.CAL_STATUS.loom == n)
    || d.spareMoves n core

/-- What the converter of core `j` of loom `n` makes of a raw voltage code (R464, R487). -/
def Dev.spareCode (d : Dev) (n j : Nat) (raw : BitVec 24) : BitVec 24 :=
  corrected (coreGet d.cal.coreA (34 * n + j) 3) (coreGet d.cal.coreA (34 * n + j) 4) raw

/-- A spare core that serves no ball pair, or is being exchanged, converts the calibration bus (R337): the marker of a bus in
use, or its reading. The ladder drives the bus at the tap selected: a reading that is not near it does not come about (log entry
99). -/
def Dev.spareSample (d : Dev) (n : Nat) (s33 : Bool) (raw : BitVec 24) : Dev :=
  let v := d.spareCode n (if s33 then 33 else 32) raw
  let src := if s33 then 33 else 32
  let tap := d.rd (Reg.LOOM.SPARE_MEAS.tap n)
  if d.busInUse n src then
    (if (d.mill n).takes src then d.modMill n fun x => { x with calBus := true } else d).laneFeed n src 0x800000
  else if tap < 6 ∧ !nearCode zeroCode (sext 24 (loomNom tap).toNat) v then d
  else d.laneFeed n src v

/-- The oldest sample on its way from a source reaches the memory of the Mill (R338). -/
def execMillLaneSample (n : LoomId) (src : Fin 34) (code : BitVec 24) (s : State) : Out :=
  lift s fun d =>
    let x := d.mill n.val
    if x.feed.find? (fun y => y.1 == src.val) = some (src.val, code) then
      (d.setMill n.val { x with feed := x.feed.erase (src.val, code) }).millSample n.val src.val code
    else d

def execSpareConversion (n : LoomId) (s33 : Bool) (code : BitVec 24) (s : State) : Out :=
  lift s fun d =>
    if d.spareServes n.val s33 && !d.spareMoves n.val (if s33 then 33 else 32) then d
    else (d.evc 0x38 n.val).spareSample n.val s33 code

/-- A core exchange on a source (R339). -/
def Dev.millExchange (d : Dev) (c : Nat) : Dev :=
  d.modMill (c / 32) fun x => if x.takes (c % 32) then { x with exchange := true } else x

/-! The window (R335, R356). -/

/-- A read of word `i` of the page that master `k` selects: an error that is corrected is noted (R333). -/
def Dev.millWinRead (d : Dev) (k i : Nat) : Dev :=
  let n := d.rd (Reg.GLB_MILL_SEL.loom k)
  let a := 8192 * d.rd (Reg.GLB_MILL_SEL.page k) + i
  if a < 32768 ∧ Tab.get .good (d.mill n).dmErr a = .corr then
    (d.modMill n fun x => { x with dmErr := Tab.set .good x.dmErr a .good }).wr (Reg.LOOM.MILL_STATE.ecc_corr n) 1
  else d

/-- A write through the memory window: page 0 to 3 data words, page 4 operations. -/
def execMillWindowWrite (m : Master) (i : Fin 8192) (v : BitVec 32) (s : State) : Out :=
  lift s fun d =>
    let k := masterCode m
    let n := d.rd (Reg.GLB_MILL_SEL.loom k)
    let page := d.rd (Reg.GLB_MILL_SEL.page k)
    let w := v.setWidth 24
    let cur := if page = 4 then Tab.get 0 (d.mill n).pm i.val else (d.mill n).word (8192 * page + i.val)
    let reject (own : Bool) : Dev := if w = cur then d else d.rejectWith (Reg.GLB_MILL_SEL.write_reject k) own
    if !d.owns m (loomBlock n) then reject true
    else if page = 4 then
      if (d.mill n).state ≠ mIdle ∨ 2048 ≤ i.val then reject false
      else d.modMill n fun x => { x with pm := Tab.set 0 x.pm i.val w, pmErr := Tab.set false x.pmErr i.val false }
    else d.modMill n fun x => x.setWord (8192 * page + i.val) w

end Sys2Proof.Machine
end

