-- ==== Sys2Proof/Machine/Monitor.lean ====
section
/-! DEFINITION. Comparator outputs and sampled window monitors (R192 to R214). -/
namespace Sys2Proof.Machine
open Sys2Proof

/-! Comparators (R192, R194). -/

/-- An output of a comparator of channel `c` goes to `level` at `t`, in taps: it counts, and it reaches the capture unit, the
trigger sources and the time measurement engines at its time at the ball (R194). -/
def Dev.cmpOut (d : Dev) (c : Nat) (lo level : Bool) (t : Nat) : Dev :=
  let b := d.atBall c lo t
  let d := if level then d.evc ((if lo then 0x60 else 0x40) + c % 32) (c / 32) else d
  (d.routeCmp c lo level b).capEdge c lo level b

/-- The voltage `v` of CH_F crosses a level of channel `c` at `t`: CMP_HI is V > VOH, CMP_LO is V < VOL (R192, R194). A pair's
comparators read 0, and so do those that are not powered. -/
def Dev.cmpEdge (d : Dev) (c : Nat) (v : BitVec 24) (t : Nat) : Dev :=
  let x := d.chan c
  if !d.cmpPowered (c / 32) || d.oddOfPair c || d.evenOfPair c then d
  else
    let hi := decide (level24 (d.rd (Reg.CHAN.LVL_CMP.voh c)) < v.toInt)
    let lo := decide (v.toInt < level24 (d.rd (Reg.CHAN.LVL_CMP.vol c)))
    let d := if hi = x.cmpHi then d else (((d.strobesSee c (d.atBall c false t)).modChan c fun x => { x with cmpHi := hi }).cmpOut c false hi t)
    if lo = x.cmpLo then d else (((d.strobesSee c (d.atBall c true t)).modChan c fun x => { x with cmpLo := lo }).cmpOut c true lo t)

/-- The voltage is given as a voltage code (R148), as the comparators see it, and the time in taps within the Reed tick. -/
def execCmpEdge (c : ChanId) (v : BitVec 24) (sub : Fin 10240) (s : State) : Out := lift s fun d => d.cmpEdge c.val v (d.nowTaps + sub.val)

/-! Monitors. -/

/-- The base of a monitor's slots (R212, R213). -/
def monIdBase : MonId → Nat
  | .chan c b => monBase c.val b
  | .loom n m => 0x98000 + 0x80 * n.val + 0x10 * m.val

/-- The loom of a monitor. -/
def monLoom : MonId → Nat
  | .chan c _ => c.val / 32
  | .loom n _ => n.val

/-- State codes (R207). -/
def monOff : Nat := 0
def monUnres : Nat := 1
def monBelow : Nat := 2
def monInside : Nat := 3
def monAbove : Nat := 4
def monDrain : Nat := 5
def monHeld : Nat := 6

/-- Whether a monitor is ON (R207). -/
def monOn (st : Nat) : Bool := decide (1 ≤ st ∧ st ≤ 4)

/-- Hysteresis in codes (R212). -/
def hystCodes : Nat → Int
  | 0 => 0
  | 1 => 4
  | 2 => 16
  | _ => 64

/-- The new state at a tick (R201): the input `v` and the thresholds in units of 1/256 of a threshold code. -/
def monNext (st : Nat) (lo hi : Nat) (hyst : Nat) (v : Int) : Nat :=
  let h : Int := if st = monUnres then 0 else hystCodes hyst
  let t (x : Int) : Int := 256 * x
  if t (Int.ofNat hi) < v then monAbove
  else if v < t (Int.ofNat lo) then monBelow
  else if st = monAbove ∧ t (Int.ofNat hi - h) < v then monAbove
  else if st = monBelow ∧ v < t (Int.ofNat lo + h) then monBelow
  else monInside

/-- Whether a bit of MON_PEND shows this monitor (R214). -/
def Dev.monPend (d : Dev) (b : Nat) : Bool :=
  d.on (Reg.MON.STATE.enter b) || d.on (Reg.MON.STATE.rise_out b) || d.on (Reg.MON.STATE.fall_out b) || d.on (Reg.MON.STATE.guard_trip b)

/-- A flag of a monitor is set; its MON_PEND bit rising is a cause of the loom (R401). -/
def Dev.monFlag (d : Dev) (id : MonId) (f : Fld) : Dev :=
  if d.monPend (monIdBase id) then d.wr f 1 else (d.wr f 1).irqLoom Reg.LOOM.IRQ_CAUSE.mon_pend (monLoom id)

/-- The flag of a destination state, and its place in evt_mask and among the sources of R559. -/
def edgeFlag (b st : Nat) : Fld :=
  if st = monInside then Reg.MON.STATE.enter b else if st = monAbove then Reg.MON.STATE.rise_out b else Reg.MON.STATE.fall_out b
def edgeIdx (st : Nat) : Nat := if st = monInside then 0 else if st = monAbove then 1 else 2

/-- An edge into state `st`, at the tick instant now (R202): it is offered to the trigger sources, masked or not. -/
def Dev.monEdge (d : Dev) (id : MonId) (st : Nat) : Dev :=
  let b := monIdBase id
  let d := (d.monFlag id (edgeFlag b st)).bump (Reg.MON.COUNT.edges b)
  match id with
  | .chan c isB =>
    let d := if bit (d.rd (Reg.MON.CTRL.evt_mask b)) (edgeIdx st) then d.unitEvent 6 (c.val + 1024 * b2n isB) else d
    ((d.evc 0x2C (c.val / 32)).evc (0x2D + edgeIdx st) (c.val / 32)).offerTrig (c.val / 32) (.mon ⟨c.val % 32, Nat.mod_lt _ (by decide)⟩ isB st) d.nowTaps
  | .loom n m => (d.evc 0x31 n.val).offerTrig n.val (.lmon m st) d.nowTaps

/-- The guard trip of a channel monitor at the end of a tick into state `st` (R209); the tick that resolves the monitor fires
none (R203). -/
def Dev.monGuard (d : Dev) (id : MonId) (resolves : Bool) (st : Nat) : Dev :=
  match id with
  | .loom _ _ => d
  | .chan c _ =>
    let b := monIdBase id
    if d.on (Reg.MON.CTRL.guard_trip b) then
      if st = monInside then (if d.forcing c.val then d.wr (Reg.MON.STATE.trip_armed b) 1 else d)
      else if d.on (Reg.MON.STATE.trip_armed b) && !resolves then
        (((d.wr (Reg.MON.STATE.trip_armed b) 0).monFlag id (Reg.MON.STATE.guard_trip b)).evc 0x30 (c.val / 32)).trip c.val
      else d
    else d

/-- The divider in use (R204). -/
def Dev.monDiv (d : Dev) (b : Nat) : Nat := (Tab.get {} d.mons b).divNow
/-- The divider for the ticks after now, of an enable or of a tick: the next one comes `gap` ticks of Reed time later at the
earliest (R204). -/
def Dev.setMonDiv (d : Dev) (b v gap : Nat) : Dev := { d with mons := Tab.set {} d.mons b ⟨v, some (d.reed.time + BitVec.ofNat 48 gap)⟩ }

/-- A tick at `t` would come too soon after the last one, or after an enable. -/
def MonSched.soon (x : MonSched) (t : Nat) : Bool :=
  x.notBefore.any fun e => decide (1 ≤ (e - BitVec.ofNat 48 t).toNat) && decide ((e - BitVec.ofNat 48 t).toNat ≤ 25)

/-- The next tick of a monitor: the first multiple of its period from now on (R199) that does not come within 250 ns of its last
tick (R204). Where Reed time wraps the two rules meet: a multiple too soon after the last tick is left out (DESIGN CHOICE, log
entry 114). -/
def Dev.nextTick (d : Dev) (b : Nat) : Nat :=
  let per := 25 * max (d.monDiv b) 1
  let x := Tab.get {} d.mons b
  let t := multipleFrom d.now per
  if !x.soon t then t
  else if !x.soon (multipleAfter t per) then multipleAfter t per
  else multipleAfter (multipleAfter t per) per

/-- The input that a monitor watches: CH_S, or CH_F where src is 1; a loom monitor's is fixed (R197, R212). -/
def Dev.monInput (d : Dev) (id : MonId) (v : MonIn) : Int :=
  match id with
  | .chan _ _ => Int.ofNat (if d.on (Reg.MON.CTRL.src (monIdBase id)) then v.force else v.sense)
  | .loom _ _ => Int.ofNat v.sense

/-- A tick of a monitor (R199 to R206); a draining one shows OFF from the instant of it. -/
def Dev.monTick (d : Dev) (id : MonId) (v : MonIn) : Dev :=
  let b := monIdBase id
  let st := d.rd (Reg.MON.STATE.state b)
  let t := d.nextTick b
  if !d.comes t then d
  else if st = monDrain then (d.advanceTo t).wr (Reg.MON.STATE.state b) monOff
  else if monOn st then
    let d := d.advanceTo t
    let n := monNext st (d.rd (Reg.MON.WIN.lo b)) (d.rd (Reg.MON.WIN.hi b)) (d.rd (Reg.MON.CTRL.hyst b)) (d.monInput id v)
    let d := (d.wr (Reg.MON.STATE.state b) n).setMonDiv b (d.rd (Reg.MON.CTRL.div b)) 25
    let d := if st ≠ monUnres ∧ n ≠ st then d.monEdge id n else d
    d.monGuard id (st == monUnres) n
  else d

def execMonitorTick (id : MonId) (v : MonIn) (s : State) : Out := lift s fun d => d.monTick id v

/-- A write to a monitor is refused (R212). -/
def Dev.monReject (d : Dev) (b r : Nat) : Dev :=
  (d.wr (Reg.MON.STATE.reject_code b) r).rejectWith (Reg.MON.STATE.set_reject b) (r == 2)

/-- The fields of a monitor's CTRL but en: a loom monitor has no src and no guard (R213). -/
def monCtrlFields (id : MonId) : List Fld :=
  let b := monIdBase id
  match id with
  | .chan _ _ => [Reg.MON.CTRL.src b, Reg.MON.CTRL.hyst b, Reg.MON.CTRL.div b, Reg.MON.CTRL.guard_block b, Reg.MON.CTRL.guard_trip b, Reg.MON.CTRL.evt_mask b]
  | .loom _ _ => [Reg.MON.CTRL.hyst b, Reg.MON.CTRL.div b, Reg.MON.CTRL.evt_mask b]

/-- One field of CTRL takes a new value (R203, R204, R209, R212). -/
def Dev.monField (d : Dev) (m : Master) (id : MonId) (v : Nat) (f : Fld) : Dev :=
  let b := monIdBase id
  let w := bits v f.lo f.w
  if d.rd f = w then d
  else if !d.owns m (loomBlock (monLoom id)) then d.monReject b 2
  else if f = Reg.MON.CTRL.div b ∧ (w = 0 ∨ 4000 < w) then d.monReject b 1
  else
    let d1 := d.wr f w
    if f = Reg.MON.CTRL.src b ∧ monOn (d.rd (Reg.MON.STATE.state b)) then d1.wr (Reg.MON.STATE.state b) monUnres
    else if f = Reg.MON.CTRL.guard_trip b ∧ w = 0 then d1.wr (Reg.MON.STATE.trip_armed b) 0
    else d1

/-- en of a monitor is written: 0 by any master, 1 by the owner (R51 to R53, R206, R621). -/
def Dev.monEn (d : Dev) (m : Master) (id : MonId) (v : Bool) : Dev :=
  let b := monIdBase id
  let st := d.rd (Reg.MON.STATE.state b)
  if v = monOn st then d
  else if !v then d.wr (Reg.MON.STATE.state b) monDrain
  else if !d.owns m (loomBlock (monLoom id)) then d.monReject b 2
  else if st = monOff ∧ !d.safeBars then (d.wr (Reg.MON.STATE.state b) monUnres).setMonDiv b (d.rd (Reg.MON.CTRL.div b)) 1
  else d.monReject b 3

/-- A write of 1 to en of a monitor, which a write of 0 in the same arbitration step beats (R53, R206). -/
def Dev.monEnable (d : Dev) (m : Master) (id : MonId) (clash : Bool) : Dev :=
  if clash then (d.monEn m id false).monReject (monIdBase id) (if d.owns m (loomBlock (monLoom id)) then 3 else 2) else d.monEn m id true

/-- R212: a write of CTRL. -/
def Dev.monCtrl (d : Dev) (m : Master) (id : MonId) (v : Nat) : Dev :=
  ((monCtrlFields id).foldl (fun d f => d.monField m id v f) d).monEn m id (bit v 0)

def execMonCtrlWrite (m : Master) (id : MonId) (v : BitVec 32) (s : State) : Out := lift s fun d => d.judged (·.monCtrl m id v.toNat)

/-- R164, R205: a write of WIN, both codes judged together. -/
def Dev.monWin (d : Dev) (m : Master) (id : MonId) (v : Nat) : Dev :=
  let b := monIdBase id
  let lo := bits v 0 12
  let hi := bits v 16 12
  if d.rd (Reg.MON.WIN.lo b) = lo ∧ d.rd (Reg.MON.WIN.hi b) = hi then d
  else if !d.owns m (loomBlock (monLoom id)) then d.monReject b 2
  else if hi < lo then d.monReject b 1
  else (d.wr (Reg.MON.WIN.lo b) lo).wr (Reg.MON.WIN.hi b) hi

def execMonWinWrite (m : Master) (id : MonId) (v : BitVec 32) (s : State) : Out := lift s fun d => d.monWin m id v.toNat

end Sys2Proof.Machine
end

