-- ==== Sys2Proof/Machine/Crypto.lean ====
section
/-! DEFINITION. The three algorithms that the security block and the flash port compute: SHA-256, AES-256 in
counter mode (R441, R521), and the verification of the LMS signatures of R521 and R601 (RFC 8554). -/
namespace Sys2Proof.Machine
open Sys2Proof

/-! SHA-256. Its constants are by definition the leading fraction bits of roots of the first primes. -/

/-- The first 64 primes: the numbers up to 311 that no smaller prime up to 17 divides. -/
def shaPrimes : List Nat :=
  (List.range 312).filter fun n => decide (2 ≤ n) && [2, 3, 5, 7, 11, 13, 17].all fun p => n == p || n % p != 0

/-- The largest number below `r + 2 ^ n` whose `k`-th power is at most `v`, bit by bit from the top. -/
def rootBits (k v : Nat) : Nat → Nat → Nat
  | 0, r => r
  | n + 1, r => rootBits k v n (if (r + 2 ^ n) ^ k ≤ v then r + 2 ^ n else r)

/-- The first 32 fraction bits of the `k`-th root of `p`. -/
def rootFraction (k p : Nat) : BitVec 32 := BitVec.ofNat 32 (rootBits k (p * 2 ^ (32 * k)) 36 0)

/-- The round constants: of cube roots. -/
def shaK : List (BitVec 32) := shaPrimes.map (rootFraction 3)

/-- The initial hash value: of square roots. -/
def shaInit : List (BitVec 32) := (shaPrimes.take 8).map (rootFraction 2)

/-- Exclusive or of a word's rotations by the amounts `rs`. -/
def rotations (x : BitVec 32) (rs : List Nat) : BitVec 32 := rs.foldl (fun y r => y ^^^ x.rotateRight r) 0

/-- The next word of a message schedule, of which `w` holds the last sixteen words, oldest first. -/
def shaNext (w : List (BitVec 32)) : BitVec 32 :=
  let part := fun (i shift : Nat) (rs : List Nat) => let x := w.getD i 0; rotations x rs ^^^ x >>> shift
  [w.getD 0 0, part 1 3 [7, 18], w.getD 9 0, part 14 10 [17, 19]].foldl (· + ·) 0

/-- Where `sel` has a 1 the bit of `x`, elsewhere that of `y`. -/
def choose (sel x y : BitVec 32) : BitVec 32 := y ^^^ (sel &&& (x ^^^ y))

/-- One round with constant `k` and schedule word `t`: the eight words move up by one, the last drops out and enters the sums
that make the first and the fifth. -/
def shaRound (v : List (BitVec 32)) (k t : BitVec 32) : List (BitVec 32) :=
  match v with
  | x0 :: x1 :: x2 :: x3 :: y0 :: y1 :: y2 :: y3 :: _ =>
    let low := choose y0 y1 y2 + rotations y0 [6, 11, 25] + y3 + (k + t)
    let high := choose (x0 ^^^ x1) x2 x0 + rotations x0 [2, 13, 22]
    (high + low) :: x0 :: x1 :: x2 :: (low + x3) :: y0 :: y1 :: [y2]
  | _ => v

/-- The rounds of one block. -/
def shaRounds : List (BitVec 32) → List (BitVec 32) → List (BitVec 32) → List (BitVec 32)
  | [], _, v => v
  | k :: t, w, v => shaRounds t (w.drop 1 ++ [shaNext w]) (shaRound v k (w.getD 0 0))

/-- The sixteen big-endian words of a block. -/
def shaWords (b : List Byte) : List (BitVec 32) :=
  (List.range 16).map fun i => BitVec.ofNat 32 (beVal ((b.drop (4 * i)).take 4))

/-- One block after another. -/
def shaBlocks : Nat → List Byte → List (BitVec 32) → List (BitVec 32)
  | 0, _, h => h
  | n + 1, m, h => shaBlocks n (m.drop 64) (List.zipWith (· + ·) h (shaRounds shaK (shaWords m) h))

/-- The `n` big-endian bytes of `v`. -/
def beBytes (n v : Nat) : List Byte := (leBytes n v).reverse

/-- The SHA-256 digest of a message, 32 bytes. -/
def sha256 (m : List Byte) : List Byte :=
  let n := m.length
  let p := m ++ [0x80] ++ List.replicate ((119 - n % 64) % 64) 0 ++ beBytes 8 (8 * n)
  (shaBlocks (p.length / 64) p shaInit).flatMap fun w => beBytes 4 w.toNat

/-- A digest as one number: byte 0 is bits [7:0] (R12). -/
def digestVal (m : List Byte) : BitVec 256 := BitVec.ofNat 256 (leVal (sha256 m))

/-! AES-256. -/

/-- Multiplication by x in the field of AES. -/
def gfX (a : BitVec 8) : BitVec 8 := if a.getLsbD 7 then (a <<< 1) ^^^ 0x1B else a <<< 1

/-- The product of `a` and the low `n` bits of `b`. -/
def gfMul (a b : BitVec 8) : Nat → BitVec 8
  | 0 => 0
  | n + 1 => (if b.getLsbD (8 - (n + 1)) then a else 0) ^^^ gfMul (gfX a) b n

/-- `a` to the power 2^(k+1) − 2: seven steps give the inverse, `a` to the power 254. -/
def gfInv (a : BitVec 8) : Nat → BitVec 8
  | 0 => 1
  | k + 1 => let r := gfMul (gfInv a k) a 8; gfMul r r 8

/-- The substitution box. -/
def aesSub (a : BitVec 8) : BitVec 8 :=
  let b := gfInv a 7
  b ^^^ b.rotateLeft 1 ^^^ b.rotateLeft 2 ^^^ b.rotateLeft 3 ^^^ b.rotateLeft 4 ^^^ 0x63

/-- The box as a table. -/
def aesBox : List (BitVec 8) := (List.range 256).map fun i => aesSub (BitVec.ofNat 8 i)

/-- The box of four bytes. -/
def subWord (box : List (BitVec 8)) (w : List Byte) : List Byte := w.map fun b => box.getD b.toNat 0

/-- Bytewise exclusive or. -/
def xorBytes (a b : List Byte) : List Byte := List.zipWith (· ^^^ ·) a b

/-- The round key words of a 32-byte key, newest first: word i comes from words i − 1 and i − 8. -/
def aesExpand (box : List (BitVec 8)) : Nat → Nat → BitVec 8 → List (List Byte) → List (List Byte)
  | 0, _, _, w => w
  | n + 1, i, rc, w =>
    let p := w.getD 0 []
    let t := if i % 8 = 0 then xorBytes (subWord box (p.drop 1 ++ p.take 1)) [rc, 0, 0, 0]
             else if i % 8 = 4 then subWord box p else p
    aesExpand box n (i + 1) (if i % 8 = 0 then gfX rc else rc) (xorBytes (w.getD 7 []) t :: w)

/-- The fifteen round keys. -/
def aesKeys (box : List (BitVec 8)) (key : List Byte) : List (List Byte) :=
  let w := (aesExpand box 52 8 1 (((List.range 8).map fun i => (key.drop (4 * i)).take 4).reverse)).reverse
  (List.range 15).map fun r => ((w.drop (4 * r)).take 4).flatten

/-- The substitution and the shift of the rows. -/
def aesShift (box : List (BitVec 8)) (s : List Byte) : List Byte :=
  (List.range 16).map fun i => box.getD (s.getD ((i + 4 * (i % 4)) % 16) 0).toNat 0

/-- The mixing of one column. -/
def aesMix (s : List Byte) : List Byte :=
  (List.range 16).map fun i =>
    let c := fun j => s.getD (i / 4 * 4 + (i + j) % 4) 0
    gfX (c 0) ^^^ (gfX (c 1) ^^^ c 1) ^^^ c 2 ^^^ c 3

/-- The rounds of one block, over the keys that remain. -/
def aesRounds (box : List (BitVec 8)) : List (List Byte) → List Byte → List Byte
  | [], s => s
  | [k], s => xorBytes (aesShift box s) k
  | k :: t, s => aesRounds box t (xorBytes (aesMix (aesShift box s)) k)

/-- One block, enciphered. -/
def aesBlock (box : List (BitVec 8)) (keys : List (List Byte)) (b : List Byte) : List Byte :=
  aesRounds box (keys.drop 1) (xorBytes b (keys.getD 0 []))

/-- Counter mode from block number `x`: each 16 bytes meet the cipher of nonce × 2^64 + x, a big-endian number (R441). -/
def ctrFrom (box : List (BitVec 8)) (keys : List (List Byte)) (nonce : Nat) : Nat → Nat → List Byte → List Byte
  | 0, _, _ => []
  | n + 1, x, m => xorBytes (m.take 16) (aesBlock box keys (beBytes 16 (nonce * 2 ^ 64 + x))) ++ ctrFrom box keys nonce n (x + 1) (m.drop 16)

/-- AES-256 in counter mode over bytes from offset `16 × x`. A fuse key's byte 0 is its bits [7:0] (DEDUCED, R12). -/
def aesCtr (key : BitVec 256) (nonce x : Nat) (m : List Byte) : List Byte :=
  let box := aesBox
  ctrFrom box (aesKeys box (leBytes 32 key.toNat)) nonce ((m.length + 15) / 16) x m

/-! LMS (RFC 8554) with LMS_SHA256_M32_H20 and LMOTS_SHA256_N32_W8. -/

/-- A chain of LM-OTS from step `j`: `n` hashes. -/
def otsChain (pre : List Byte) : Nat → Nat → List Byte → List Byte
  | 0, _, t => t
  | n + 1, j, t => otsChain pre n (j + 1) (sha256 (pre ++ [BitVec.ofNat 8 j] ++ t))

/-- The candidate LM-OTS public key of a signature over `m`. -/
def otsKey (pre : List Byte) (c y m : List Byte) : List Byte :=
  let q := sha256 (pre ++ beBytes 2 0x8181 ++ c ++ m)
  let cs := sumTo (fun i => 255 - (q.getD i 0).toNat) 32
  let digits := q ++ beBytes 2 cs
  sha256 (pre ++ beBytes 2 0x8080 ++ (List.range 34).flatMap fun i =>
    let a := (digits.getD i 0).toNat
    otsChain (pre ++ beBytes 2 i) (255 - a) a ((y.drop (32 * i)).take 32))

/-- From node `node` to the root, over the path that remains. -/
def lmsRoot (id : List Byte) : Nat → Nat → List Byte → List Byte → List Byte
  | 0, _, _, t => t
  | h + 1, node, path, t =>
    let p := path.take 32
    let pair := if node % 2 = 1 then p ++ t else t ++ p
    lmsRoot id h (node / 2) (path.drop 32) (sha256 (id ++ beBytes 4 (node / 2) ++ beBytes 2 0x8383 ++ pair))

/-- Whether a 1,772-byte signature over `m` verifies under a 56-byte public key (R521, R601). -/
def lmsVerify (pub sig m : List Byte) : Bool :=
  let id := (pub.drop 8).take 16
  let q := beVal (sig.take 4)
  let pre := id ++ sig.take 4
  pub.length == 56 && sig.length == 1772 && beVal (pub.take 4) == 8 && beVal ((pub.drop 4).take 4) == 4
    && beVal ((sig.drop 4).take 4) == 4 && beVal ((sig.drop 1128).take 4) == 8 && decide (q < 2 ^ 20)
    && lmsRoot id 20 (2 ^ 20 + q) (sig.drop 1132)
        (sha256 (id ++ beBytes 4 (2 ^ 20 + q) ++ beBytes 2 0x8282 ++ otsKey pre ((sig.drop 8).take 32) ((sig.drop 40).take 1088) m))
      == pub.drop 24

end Sys2Proof.Machine
end

