-- ==== Sys2Proof/Machine/Xip.lean ====
section
/-! DEFINITION. The XIP window as the core shuttle sees it (R440, R442, R443). -/
namespace Sys2Proof.Machine
open Sys2Proof

/-- First byte of the program region (R118). -/
def Dev.progBase (d : Dev) : Nat := d.rd Reg.GLB_PROG_BASE.base * 2 ^ 24

/-- Offset in the XIP window of byte address `a`, for the core shuttle only (R440). -/
def Dev.xipOff (d : Dev) (home a : Nat) : Option Nat :=
  if home = 24 ∧ d.on Reg.FL_XIP.en ∧ d.progBase ≤ a ∧ a - d.progBase < (d.rd Reg.FL_XIP.pages_m1 + 1) * 4096
  then some (a - d.progBase) else none

/-- Byte `i` of a cached page. -/
def pageByte (p : BitVec 32768) (i : Nat) : Byte := p.extractLsb' (8 * i) 8

/-- The cached page of window page `p`. -/
def Flash.page (f : Flash) (p : Nat) : Option (BitVec 32768) := (f.cache.find? (·.1 == p)).map (·.2)

/-- Page `p` is used: it is the most recently used (R442). -/
def Flash.use (f : Flash) (p : Nat) : Flash :=
  match f.page p with
  | some v => { f with cache := (p, v) :: f.cache.filter (·.1 != p) }
  | none => f

/-- The window pages that `n` bytes from `a` need and the cache lacks (R442). -/
def Dev.xipMissing (d : Dev) (home a n : Nat) : List Nat :=
  ((List.range n).filterMap fun i => (d.xipOff home (a + i)).bind fun o =>
    if (d.flash.page (o / 4096)).isNone then some (o / 4096) else none).eraseDups

/-- The command of opcode `op` as the port sends it, with `k` address bytes of `a`, most significant first: in 8D-8D-8D the
inverted opcode follows, and there are four (R435). The order of the address bytes is that of JESD251 (PRESUMED). -/
def Dev.flashHead (d : Dev) (op : BitVec 8) (k a : Nat) : List (BitVec 8) :=
  if d.on Reg.FL_CFG.mode then [op, ~~~op] ++ (leBytes (if k = 0 then 0 else 4) a).reverse else op :: (leBytes k a).reverse

/-- The flash address of window page `p`: page base_page + p of its select (R440). -/
def Dev.xipAddr (d : Dev) (p : Nat) : Nat := (d.rd Reg.FL_XIP.base_page + p) * 4096

/-- The read of window page `p` (R440, R442, R445). -/
def Dev.fillTx (d : Dev) (p : Nat) : FlashTx :=
  { fill := true, sel := d.on Reg.FL_XIP.sel, dummy := d.rd Reg.FL_CFG.dummy,
    head := d.flashHead (BitVec.ofNat 8 (d.rd Reg.FL_CFG.rd_op)) (if d.on Reg.FL_CFG.addr4 then 4 else 3) (d.xipAddr p) }

/-- The transaction of a direct command with the word `w` of FL_CMD, address `a` and the data that it writes (R438). -/
def Dev.directTx (d : Dev) (w a : BitVec 32) (data : List Byte) : FlashTx :=
  { fill := false, sel := w.getLsbD 11, dummy := if w.getLsbD 12 then d.rd Reg.FL_CFG.dummy else 0, data := data,
    head := d.flashHead (w.setWidth 8) (match bits w.toNat 8 2 with | 0 => 0 | 1 => 3 | _ => 4) a.toNat }

/-- An idle port starts the next transaction: a fill that waits before a direct command (R437), which waits for its buffer (R438). -/
def Dev.flashNext (d : Dev) : Dev :=
  if d.flash.run.isSome then d
  else
    let next := match d.flash.fills, d.flash.cmd with
      | f :: _, _ => some (d.fillTx f.page)
      | [], some (w, a, _, bs) => if d.flash.unread then none else some (d.directTx w a bs)
      | [], none => none
    { d with flash := { d.flash with run := next } }

/-- Asks for the fill of a page; a fill of that page that runs or waits serves this miss too (R442). -/
def Dev.askFill (d : Dev) (p c : Nat) (fetch : Bool) : Dev :=
  if d.flash.fills.any (fun f => f.page == p && f.ctx == c && f.fetch == fetch) then d
  else Dev.flashNext { d with flash := { d.flash with fills := d.flash.fills ++ [{ page := p, second := false, ctx := c, fetch := fetch }] } }

/-- Loads `n` bytes for a shuttle: window bytes from the XIP cache, every other byte from the Granary. None where a
Granary half is uncorrectable. -/
def Dev.loadBytes (d : Dev) (home a n : Nat) : Dev × Option (List Byte) :=
  let out := (List.range n).filterMap fun i => if (d.xipOff home (a + i)).isNone then some ((a + i) / 32) else none
  let r := out.eraseDups.foldl (fun (q : Dev × Bool) h => let t := q.1.touch (.shuttle home) h .good; (t.1, q.2 && t.2)) (d, true)
  let d1 := (List.range n).foldl (fun (d : Dev) i => match d.xipOff home (a + i) with
    | some o => { d with flash := d.flash.use (o / 4096) }
    | none => d) r.1
  (d1, if r.2 then some ((List.range n).map fun i =>
      match d.xipOff home (a + i) with
      | some o => ((d.flash.page (o / 4096)).map (pageByte · (o % 4096))).getD 0
      | none => d.byte (a + i)) else none)

end Sys2Proof.Machine
end

