-- ==== Sys2Proof/Machine/Flash.lean ====
section
/-! DEFINITION. The flash port: direct commands (R435 to R439) and the XIP cache's fills (R440 to R443). -/
namespace Sys2Proof.Machine
open Sys2Proof

/-- The block of the flash port (R535). -/
def flashBlock : Nat := 6

/-- The boot has locked `FL_XIP` and the nonce (R603): a slot has passed VERIFY. -/
def Dev.xipLocked (d : Dev) : Bool := d.rd Reg.SEC_STATUS.stage == 3 || d.rd Reg.SEC_STATUS.stage == 4

/-- Who the flash port's Granary accesses count as in GLB_GRAN_ERR_HI: the security block (DEDUCED, R384). -/
def flashSrc : GSrc := ⟨6, 0⟩

/-- The fields of `FL_CMD` that a write stores (R445). -/
def flCmdFields : List Fld :=
  [Reg.FL_CMD.opcode, Reg.FL_CMD.abytes, Reg.FL_CMD.dir, Reg.FL_CMD.sel, Reg.FL_CMD.use_dummy, Reg.FL_CMD.len]

/-- Whether every field of `fs` already holds what slot value `v` gives it (R617). -/
def Dev.holdsAll (d : Dev) (fs : List Fld) (v : Nat) : Bool := fs.all fun f => d.rd f == bits v f.lo f.w

/-- Stores the fields `fs` from slot value `v`. -/
def Dev.putAll (d : Dev) (fs : List Fld) (v : Nat) : Dev := fs.foldl (fun d f => d.wr f (bits v f.lo f.w)) d

/-- The refusal code that a direct command meets (R438). -/
def Dev.flashReason (d : Dev) (m : Master) (v : Nat) : Option Nat :=
  let ab := bits v 8 2
  if !d.owns m flashBlock then some 1
  else if d.on Reg.FL_STATUS.busy then some 2
  else if ab = 3 ∨ (d.on Reg.FL_CFG.mode ∧ ab = 1) ∨ (d.on Reg.FL_CFG.mode ∧ bit v 10 ∧ bits v 13 12 % 2 = 1) then some 3
  else if granSize < 64 * d.rd Reg.FL_BUF.line + bits v 13 12 then some 4
  else none

/-- A direct command ends: done is set (R438). -/
def Dev.flashDone (d : Dev) : Dev :=
  ({ d with flash := { d.flash with cmd := none, unread := false } }.wr Reg.FL_STATUS.busy 0).flag Reg.FL_STATUS.done

/-- The buffer of a write is read whole, once the Granary takes the access; where a line of it is uncorrectable, nothing is sent
(R377, R438). -/
def Dev.flashBuffer (d : Dev) : Dev :=
  match d.flash.cmd with
  | some (w, x, a, _) =>
    let len := bits w.toNat 13 12
    if !d.flash.unread then d
    else if decide (0 < len) && !d.mayAccess .security then d.asks .security (.flashTransactionComplete [])
    else
      let r := (d.passing .security (linesOf a len)).readBytes flashSrc a len
      match r.2 with
      | some bs => { r.1 with flash := { r.1.flash with cmd := some (w, x, a, bs), unread := false } }
      | none => (r.1.flag Reg.FL_STATUS.buf_ecc).flashDone
  | none => d

/-- A direct command starts (R438). -/
def Dev.flashStart (d : Dev) (v : Nat) : Dev :=
  let c := (BitVec.ofNat 32 v, BitVec.ofNat 32 (d.rd Reg.FL_ADDR.addr), 64 * d.rd Reg.FL_BUF.line, [])
  ({ d with flash := { d.flash with cmd := some c, unread := bit v 10 } }.wr Reg.FL_STATUS.busy 1).flashBuffer.flashNext

/-- A write of `FL_CMD` (R438, R617): a refused command leaves the whole slot as it is. -/
def Dev.flashCommand (d : Dev) (m : Master) (v : Nat) : Dev :=
  if bit v 25 then
    match d.flashReason m v with
    | some r => (d.wr Reg.FL_STATUS.reject_code r).rejectWith Reg.FL_STATUS.cmd_reject (r == 1)
    | none => (d.putAll flCmdFields v).flashStart v
  else if d.holdsAll flCmdFields v then d
  else if d.owns m flashBlock then d.putAll flCmdFields v
  else (d.wr Reg.FL_STATUS.reject_code 1).rejectWith Reg.FL_STATUS.cmd_reject true

def execFlashDirectCommand (m : Master) (v : BitVec 32) (s : State) : Out := lift s fun d => d.flashCommand m v.toNat

/-- The direct command whose transaction is in progress, with its buffer. -/
def Dev.flashLive (d : Dev) : Option (BitVec 32 × Nat) :=
  if d.flash.run.any (fun t => !t.fill) then d.flash.cmd.map fun c => (c.1, c.2.2.1) else none

/-- The direct transaction with word `w` can end so: a read has brought the bytes `bs`, `full` where every strobe edge came. -/
def Dev.flashFits (d : Dev) (w : BitVec 32) (bs : List Byte) (full : Bool) : Bool :=
  let len := bits w.toNat 13 12
  let write := bit w.toNat 10
  if full then bs.length == (if write then 0 else len) else !write && d.on Reg.FL_CFG.mode && decide (0 < len) && decide (bs.length ≤ len)

/-- The direct transaction ends with the bytes `bs` (R438, R439), and the next one starts (R437). Before it a write's buffer is
read. -/
def Dev.flashEnd (d : Dev) (bs : List Byte) (full : Bool) : Dev :=
  match d.flashLive with
  | none => d.flashBuffer.flashNext
  | some (w, a) =>
    if !d.flashFits w bs full then d
    else
      let d := ((if bit w.toNat 10 then d else d.passing .security (linesOf a (bits w.toNat 13 12))).writeBytes flashSrc a (bs.map some)).1
      let d := { d with flash := { d.flash with run := none } }
      ((if full then d else d.flag Reg.FL_STATUS.dqs_err).flashDone).flashNext

/-- The end of a transaction stores what it read, through the credits of the security block (R37, R438). -/
def Dev.flashStores (d : Dev) (bs : List Byte) (full : Bool) : Option Partition :=
  d.flashLive.bind fun c => if d.flashFits c.1 bs full && !bit c.1.toNat 10 && decide (0 < bits c.1.toNat 13 12) then some .security else none

def execFlashTransactionComplete (bytes : List (BitVec 8)) (s : State) : Out :=
  lift s fun d => d.accessing (d.flashStores bytes true) (.flashTransactionComplete bytes) (·.flashEnd bytes true)

def execFlashDqsTimeout (bytes : List (BitVec 8)) (s : State) : Out :=
  lift s fun d => d.accessing (d.flashStores bytes false) (.flashDqsTimeout bytes) (·.flashEnd bytes false)

/-! The XIP cache. -/

/-- A raw page as the port decrypts it (R441). -/
def Dev.xipPlain (d : Dev) (p : Nat) (raw : BitVec 32768) : List Byte :=
  aesCtr Config.flashKey (d.rd Reg.FL_NONCE.nonce) (256 * p) (leBytes 4096 raw.toNat)

/-- A page enters the cache, most recently used first; the sixteen most recent stay (R442). -/
def Flash.enter (f : Flash) (p : Nat) (v : BitVec 32768) : Flash :=
  { f with cache := ((p, v) :: f.cache.filter (·.1 != p)).take 16, fills := f.fills.filter (·.page != p) }

/-- A page has failed twice: the access that caused the fill faults (R443). -/
def Dev.fillFailed (d : Dev) (f : Fill) (rest : List Fill) : Dev :=
  let d := ({ d with flash := { d.flash with fills := rest } }.bump Reg.FL_STATUS.fails).flag Reg.FL_STATUS.hash_fail
  let x := d.ctx f.ctx
  if x.state = .ready ∧ x.slot.isSome then d.faultCtx f.ctx (if f.fetch then fFetch 1 else fData 1) else d

/-- What the end of a fill with the page `raw` does to the cache (R442, R443). -/
def Dev.filled (d : Dev) (raw : BitVec 32768) (dqs : Bool) : Dev :=
  match d.flash.fills with
  | [] => d
  | f :: rest =>
    let d := d.evc 0x9E 24
    let plain := d.xipPlain f.page raw
    if (dqs || !d.on Reg.FL_CFG.mode) && digestVal plain == Tab.get 0 d.flash.hash f.page then
      { d with flash := d.flash.enter f.page (BitVec.ofNat 32768 (leVal plain)) }
    else if f.second then d.fillFailed f rest
    else { d with flash := { d.flash with fills := { f with second := true } :: rest } }

/-- The fill that runs, the oldest, ends with the page as read, and the next transaction starts (R437). -/
def Dev.fillEnd (d : Dev) (raw : BitVec 32768) (dqs : Bool) : Dev :=
  if d.flash.run.any (·.fill) then ({ d with flash := { d.flash with run := none } }.filled raw dqs).flashNext else d

def execXipCacheFillComplete (raw : BitVec 32768) (dqs : Bool) (s : State) : Out := lift s fun d => d.fillEnd raw dqs

/-- The fields of `FL_XIP`. -/
def flXipFields : List Fld := [Reg.FL_XIP.en, Reg.FL_XIP.sel, Reg.FL_XIP.pages_m1, Reg.FL_XIP.base_page]

/-- Whether a window of `n` pages from `base` lies within select `sel` (R440). -/
def Dev.xipFits (d : Dev) (sel : Bool) (base n : Nat) : Bool :=
  decide ((base + n) * 4096 ≤ 2 ^ d.rd (if sel then Reg.FL_CFG.size1_log2 else Reg.FL_CFG.size0_log2))

/-- A write of `FL_XIP` (R440, R442, R445, R603); one that is not refused empties the cache. -/
def Dev.flXip (d : Dev) (m : Master) (v : Nat) : Dev :=
  let same := d.holdsAll flXipFields v
  if !same && !d.owns m flashBlock then d.rejectWith Reg.FL_CFG.cfg_reject true
  else if !same && d.xipLocked then d.rejectWith Reg.GLB_STATUS.lock_reject false
  else if !same && bit v 0 && !d.xipFits (bit v 1) (bits v 14 16) (bits v 2 12 + 1) then d.rejectWith Reg.FL_CFG.cfg_reject false
  else { d.putAll flXipFields v with flash := { d.flash with cache := [] } }

def execFlXipWrite (m : Master) (v : BitVec 32) (s : State) : Out := lift s fun d => d.flXip m v.toNat

end Sys2Proof.Machine
end

