-- ==== Sys2Proof/Machine/Wait.lean ====
section
/-! DEFINITION. WAITD, WAITU and WAITE (R92 to R94). -/
namespace Sys2Proof.Machine
open Sys2Proof

/-- Whether a selector names a defined source and an identifier in range (R93). -/
def selOk (v : Nat) : Bool :=
  let id := v % 2 ^ 20
  match v / 2 ^ 20 with
  | 1 => decide (id < 2 ^ 16)
  | 2 => decide (id < 24)
  | 3 => decide (id < 24)
  | 4 => decide (id < 24)
  | 5 => decide (id < 192)
  | 6 => decide (id < 2048 ∧ id % 1024 < 768)
  | 7 => decide (id < 10240)
  | 8 => decide (id < 8)
  | _ => false

/-- Whether a level condition holds now (R93, R94). -/
def Dev.levelHolds (d : Dev) (v : Nat) : Bool :=
  let id := v % 2 ^ 20
  match v / 2 ^ 20 with
  | 2 => (Tab.get {} d.pats id).burst.isNone
  | 4 => (Tab.get {} d.mills id).state == 0
  | 7 => (d.ctx id).state == .halted || (d.ctx id).state == .parked
  | _ => false

/-- A deadline is met by the instructions that R136 names. -/
def Dev.meet (d : Dev) (c : Nat) : Dev := d.modCtx c fun x => { x with deadline := 0 }

/-- WAITD: b = 0 acts as YIELD. -/
def execWaitd (c : CtxId) (i : RRX) (tmo : Bool) (rsv : BitVec 6) (s : State) : Out :=
  lift s fun d => d.issue c i.x fun d x =>
    guarded [badReserved (tmo || rsv != 0 || nz i.d || (i.x && nz i.s))]
      (if opB x i = 0 then .ok (d.meet c)
       else .stays (d.waitOn c .time i.x 1 0 (d.now + (opB x i).toNat) true))

/-- The Reed time that WAITU names (R92). -/
def waituTime (x : Ctx) (i : RRX) : Nat := (x.rw i.d.toNat).toNat * 2 ^ 24 + (x.rw i.s.toNat).toNat

def execWaitu (c : CtxId) (i : RRX) (tmo : Bool) (rsv : BitVec 6) (s : State) : Out :=
  lift s fun d => d.issue c i.x fun d x =>
    guarded [badForm i.x, badReserved (tmo || rsv != 0)]
      (if reached d.now (waituTime x i) then .ok (d.meet c)
       else .stays (d.waitOn c .time false 1 0 (waituTime x i) true))

/-- WAITE: a level condition that holds ends it at once (R94). -/
def execWaite (c : CtxId) (i : RRX) (tmo : Bool) (rsv : BitVec 6) (s : State) : Out :=
  lift s fun d => d.issue c i.x fun d x =>
    guarded [badReserved (rsv != 0 || (!tmo && nz i.d) || (i.x && nz i.s)),
             (!selOk (opB x i).toNat, fOperand 0x0107)]
      (if d.levelHolds (opB x i).toNat then .ok ((d.meet c).modCtx c fun x => x.setT false)
       else .stays (d.waitOn c (.event tmo) i.x (if tmo then 3 else 2) (opB x i).toNat
         (if tmo then d.now + (x.rw i.d.toNat).toNat else 0) true))

end Sys2Proof.Machine
end

