-- ==== Sys2Proof/Machine/Thread.lean ====
section
/-! DEFINITION. The THREAD group (R95, R96, R127, R134, R135). -/
namespace Sys2Proof.Machine
open Sys2Proof

/-- The lowest-numbered FREE context (R95, R96). -/
def Dev.firstFree (d : Dev) : Option Nat := findTo (fun k => (d.ctx k).state == .free) nCtx

/-- The record of a context spawned by context `c` with record `x` (R61, R127). -/
def spawned (x : Ctx) (c : Nat) (pc w0 : W24) (home : BitVec 5) : Ctx :=
  { w := Tab.set 0 [] 0 w0, a := x.a, pc := pc, home := home, site := x.site, regGrant := x.regGrant,
    dlPark := x.dlPark, dlInterval := x.dlInterval, parent := BitVec.ofNat 14 c, state := .ready }

/-- SPAWN and SPAWNL with the home loom as given (R95). -/
def Dev.spawnAs (d : Dev) (c : Nat) (i : RRX) (home : BitVec 5) : Dev :=
  let x := d.ctx c
  match d.firstFree with
  | none => (d.setCtx c ((x.setW i.d.toNat 0xFFFFFF).setC true)).evc 0x90 24
  | some k =>
    (((d.setCtx k (spawned x c i.ext (x.rw i.s.toNat) home)).ready k).setCtx c
      ((x.setW i.d.toNat (BitVec.ofNat 24 k)).setC false)).evc 0x8F 24

def execSpawn (c : CtxId) (i : RRX) (s : State) : Out :=
  lift s fun d => d.issue c i.x fun d x => guarded [badForm (!i.x)] (.ok (d.spawnAs c i x.home))

def execSpawnl (c : CtxId) (i : RRX) (s : State) : Out :=
  lift s fun d => d.issue c i.x fun d x =>
    guarded [badForm (!i.x), (decide (24 < (x.rw i.d.toNat).toNat % 32), fOperand 0x0108)]
      (.ok (d.spawnAs c i (BitVec.ofNat 5 (x.rw i.d.toNat).toNat)))

/-- Whether context `k` is a child of context `c` and not FREE (R135). -/
def Dev.isChild (d : Dev) (c k : Nat) : Bool := (d.ctx k).parent.toNat == c && (d.ctx k).state != .free

/-- What a JOIN of context `c` gives once its child `k` is HALTED or PARKED: w_d and Z; a HALTED child becomes FREE. -/
def Dev.joined (d : Dev) (k dd : Nat) : Dev × (Ctx → Ctx) :=
  let y := d.ctx k
  if y.state = .halted then (d.freed k, fun x => (x.setW dd (y.rw 0)).setZ true)
  else (d, fun x => (x.setW dd y.fault).setZ false)

def execJoin (c : CtxId) (i : RRX) (s : State) : Out :=
  lift s fun d => d.issue c i.x fun d x =>
    let k := (x.rw i.s.toNat).toNat
    guarded [badForm i.x, (decide (10239 < k), fOperand 0x0109), (!d.isChild c k, fThread)]
      (if (d.ctx k).state = .halted ∨ (d.ctx k).state = .parked then
        let r := (d.meet c).joined k i.d.toNat
        .ok (r.1.modCtx c r.2)
       else .stays (d.waitOn c (.join k i.d) false 4 k 0 true))

def execSelf (c : CtxId) (i : RRX) (s : State) : Out :=
  lift s fun d => d.issue c i.x fun d x =>
    guarded [badForm i.x, badReserved (nz i.s)] (.ok (d.setCtx c (x.setW i.d.toNat (BitVec.ofNat 24 c.val))))

end Sys2Proof.Machine
end

