-- ==== Sys2Proof/Machine/Sched.lean ====
section
/-! DEFINITION. Wake-up, deadlines, residence and pauses of contexts (R94, R111, R112, R128 to R137, R493 to R495). -/
namespace Sys2Proof.Machine
open Sys2Proof

/-- A park, a kill or a deadline park is pending against the context. -/
def Ctx.pend (x : Ctx) : Bool := x.parkPend || x.killPend || x.dlPend.isSome

/-- The waiting instruction of context `c` completes with what released it (R92, R95, R101, R102, R105, R107, R109). Where RECV
names one register twice, the timestamp is written last (DESIGN CHOICE, log entry 97). -/
def Dev.completeWait (d : Dev) (c : Nat) : Dev :=
  let x := d.ctx c
  match x.rel with
  | .none => d
  | .fault w => (d.setCtx c { x with state := .ready }).faultCtx c w
  | .timeout =>
    match x.wait with
    | .time => d.endWait c id
    | .event _ => d.endWait c (·.setT true)
    | .recv _ _ dd _ _ => d.endWait c fun x => (x.setW dd.toNat 0xFFFFFF).setT true
    | _ => d
  | .event code stamp =>
    match x.wait with
    | .event _ => d.endWait c (·.setT false)
    | .recv _ _ dd ss _ => d.endWait c fun x =>
        ((x.setW dd.toNat (code.setWidth 24)).setW ss.toNat (stamp.setWidth 24)).setT false
    | _ => d
  | .burst fail flagged early z =>
    match z with
    | none => d.endWait c fun x => ((x.setF (x.fF || fail)).setC flagged).setV early
    | some m => d.endWait c fun x => ((x.setF (x.fF || fail || !m)).setZ m).setV early
  | .meas mean isOver =>
    match x.wait with
    | .meas _ ss => d.endWait c fun x => ((x.setW ss.toNat mean).setZN mean).setV isOver
    | _ => d
  | .value v =>
    match x.wait with
    | .mwait _ dd => d.endWait c fun x => (x.setW dd.toNat v).setZ (v == 0)
    | _ => d
  | .joined halted v =>
    match x.wait with
    | .join k dd =>
      (if halted && (d.ctx k).state == .halted && d.isChild c k then d.freed k else d).endWait c fun x => (x.setW dd.toNat v).setZ halted
    | _ => d
  | .done => d.endWait c id

/-- A timeout of the present Reed tick, which an event of the same tick may still beat (R94, R618). -/
def Ctx.mayLose (x : Ctx) (d : Dev) : Bool :=
  decide (x.rel = .timeout) && (match x.wait with | .time => false | _ => true) && d.reed.counting && x.wakeTime == d.reed.time

/-- A pause or an exchange holds a context at its pause point: what releases it is latched, and it completes afterwards (R112,
R479). -/
def Ctx.heldAt (x : Ctx) (d : Dev) : Bool := x.paused || (x.atPause && d.exchHolds x)

/-- One context that has been released becomes READY; a pending park or kill at a pause point comes first (R123, R133). -/
def Dev.releaseOne (d : Dev) (c : Nat) : Dev :=
  let x := d.ctx c
  if x.state = .waiting ∧ x.rel ≠ .none ∧ ¬ (x.pend ∧ x.atPause) ∧ !x.heldAt d ∧ !x.mayLose d then (d.completeWait c).takePause c else d

/-- The contexts that an event or a time released become READY in ascending number (R132). -/
def execContextRelease (s : State) : Out :=
  lift s fun d => d.ctxs.foldl (fun d e => d.releaseOne e.1) d

/-- Whether the wait of a context ends at its wake time. -/
def Ctx.timed (x : Ctx) : Bool :=
  match x.wait with
  | .time => true
  | .event t => t
  | .recv _ _ _ _ t => t
  | _ => false

/-- Reed time reaches the wake time of context `c` (R133); an event in the same tick wins, before it or after it (R94). -/
def Dev.wake (d : Dev) (c : Nat) : Dev :=
  let x := d.ctx c
  if x.state = .waiting ∧ x.timed ∧ d.comes x.wakeTime.toNat then (d.advanceTo x.wakeTime.toNat).release c .timeout else d

def execWakeTimeReached (c : CtxId) (s : State) : Out := lift s fun d => d.wake c

/-- Reed time passes the running deadline of context `c` (R137). -/
def Dev.deadlineMiss (d : Dev) (c : Nat) : Dev :=
  let x := d.ctx c
  if x.deadline = 0 ∨ !d.comes (x.deadline.toNat + 1) then d else
    let d := ((d.advanceTo (x.deadline.toNat + 1)).bump Reg.CTX_DLMISS.count).evc 0x92 24
    d.setCtx c { x with
      deadline := 0,
      dlPend := if x.dlPark ∧ (x.state = .ready ∨ x.state = .waiting) then some (if x.dlResident then 2 else 1) else x.dlPend }

def execDeadlineMiss (c : CtxId) (s : State) : Out := lift s fun d => d.deadlineMiss c

/-- At a pause point, a pending PARK, deadline park and KILL take effect (R123, R133, R137). DESIGN CHOICE (log entry 97): of
a PARK and a deadline park the PARK is made, and a context that is to be parked and killed is parked before it is freed. -/
def Dev.parkEffect (d : Dev) (c : Nat) : Dev :=
  let x := d.ctx c
  if x.atPause then
    if x.parkPend then d.park c fHost
    else match x.dlPend with
      | some k => d.park c (fDeadline k.toNat)
      | none => if x.killPend then d.freed c else d
  else d

def execParkTakesEffect (c : CtxId) (s : State) : Out := lift s fun d => d.parkEffect c

/-! Residence (R128 to R131). -/

/-- READY contexts of a shuttle that are not resident, by number. -/
def Dev.rivals (d : Dev) (sh : Nat) : List (Nat × Ctx) :=
  d.ctxs.filter fun e => e.2.state == .ready && e.2.slot.isNone && e.2.home.toNat == sh

/-- The context of a shuttle in an issue slot. -/
def Dev.inSlot (d : Dev) (sh : Nat) (k : Fin 4) : Option (Nat × Ctx) :=
  d.ctxs.find? fun e => e.2.slot == some k && e.2.home.toNat == sh

/-- The first of a list by a measure; ties to the earlier, which is the lower number (R129). -/
def firstBy (f : Ctx → Nat) : List (Nat × Ctx) → Option (Nat × Ctx)
  | [] => none
  | e :: t =>
    match firstBy f t with
    | none => some e
    | some b => if f e.2 ≤ f b.2 then some e else some b

/-- Where a time lies among those about `now`, as R426 orders them: earlier times give smaller numbers. -/
def timeRank (now t : Nat) : Nat := (t + 2 ^ 47 + 2 ^ 48 - now % 2 ^ 48) % 2 ^ 48

/-- The context that an issue slot takes next at time `now` (R129). -/
def nextFor (now : Nat) (k : Fin 4) (l : List (Nat × Ctx)) : Option (Nat × Ctx) :=
  let oldest := firstBy (fun x => timeRank now x.readySince.toNat) l
  if k = 3 then oldest
  else
    match firstBy (fun x => timeRank now x.deadline.toNat) (l.filter fun e => e.2.deadline != 0) with
    | some e => some e
    | none => oldest

/-- How late a running deadline is at time `now`; none is later than any (R130). -/
def lateness (now : Nat) (x : Ctx) : Nat := if x.deadline = 0 then 2 ^ 48 else timeRank now x.deadline.toNat

/-- The residents of slots 0 to 2 that a rival's earlier deadline covers (R130). -/
def Dev.covered (d : Dev) (sh : Nat) (l : List (Nat × Ctx)) : List (Nat × Ctx) :=
  ([0, 1, 2] : List (Fin 4)).filterMap fun k =>
    (d.inSlot sh k).bind fun y =>
      if l.any (fun e => e.2.deadline != 0 && decide (lateness d.now e.2 < lateness d.now y.2)) then some y else none

/-- Whether the context in a slot gives it up now: one that is READY does so at a pause point (R111, R130). DESIGN CHOICE (log entry 97): of covered contexts that are equally
late, the one in the lowest slot leaves first. -/
def Dev.givesUp (d : Dev) (sh : Nat) (k : Fin 4) (y : Nat × Ctx) (l : List (Nat × Ctx)) : Bool :=
  y.2.state != .ready || (y.2.atPause && y.2.leave)
    || (y.2.atPause && decide (k.val < 3) && ((firstBy (fun x => 2 ^ 48 - lateness d.now x) (d.covered sh l)).map (·.1)) == some y.1)

/-- A context moves into slot `k` of shuttle `sh`, which the one there gives up first (R128 to R130). One whose quantum has
passed finds its slot free again where no other context is READY and not resident. -/
def Dev.residence (d : Dev) (sh : Nat) (k : Fin 4) : Dev :=
  let l := d.rivals sh
  let runs := decide (sh = 24) || d.unit (kShuttle sh) == .on
  match (if runs then nextFor d.now k l else none) with
  | none =>
    match d.inSlot sh k with
    | some y => if runs && y.2.leave then d.modCtx y.1 fun x => { x with slotSince := d.reed.time, leave := false } else d
    | none => d
  | some e =>
    let into (d : Dev) : Dev :=
      (d.modCtx e.1 fun x => { x with slot := some k, slotSince := d.reed.time, leave := false, dlResident := true }).evc 0x25 sh
    match d.inSlot sh k with
    | none => into d
    | some y => if d.givesUp sh k y l then into (d.modCtx y.1 fun x => { x with slot := none, leave := false }) else d

def execResidenceMove (sh : Fin 25) (slot : Fin 4) (s : State) : Out := lift s fun d => d.residence sh slot

/-- The quantum of slot 3 has passed while another context is READY and not resident (R130, R143). -/
def Dev.quantum (d : Dev) (sh : Nat) : Dev :=
  match d.inSlot sh 3 with
  | some y =>
    let t := y.2.slotSince.toNat + max (d.rd Reg.CTX_QUANTUM.ticks) 1
    if (d.rivals sh).isEmpty || !d.comes t then d
    else (d.advanceTo t).modCtx y.1 fun x => { x with leave := true }
  | none => d

def execQuantumExpiry (sh : Fin 25) (s : State) : Out := lift s fun d => d.quantum sh

/-! Pauses (R493 to R495). -/

/-- The pause interval I and the pause length P of a shuttle (R493, R494). -/
def Dev.pauseI (d : Dev) : Nat := d.rd Reg.TH_PAUSE.interval
def Dev.pauseP (d : Dev) (sh : Nat) : Nat :=
  max (if bit (d.rd Reg.TH_THROTTLED.shuttles) sh then min (d.rd Reg.TH_PAUSE.len) d.pauseI else 0)
      (d.rd Reg.PWR_NOW.level * d.pauseI / 16)

/-- The contexts of the shuttles that pause have a pause pending (R493). -/
def Dev.markPause (d : Dev) : Tab Ctx :=
  d.ctxs.map fun (e : Nat × Ctx) =>
    if decide (e.2.state ≠ .free) && decide (0 < d.pauseP e.2.home.toNat) then (e.1, { e.2 with pausePend := true }) else e

/-- The end t + P of each shuttle's pause, for an interval that begins at `t` (R493). -/
def Dev.markEnds (d : Dev) (t : Nat) : Tab Nat :=
  (List.range 25).foldl (fun p sh => if 0 < d.pauseP sh then Tab.set 0 p sh (t + d.pauseP sh + 1) else p) d.therm.pauseEnd

/-- A pause interval begins (R493). -/
def Dev.pauseStart (d : Dev) : Dev :=
  let t := nextMultiple d.now d.pauseI d.therm.pauseAt
  if !d.comes t then d else
  let d := d.advanceTo t
  let d := { d with ctxs := d.markPause, therm := { d.therm with pauseEnd := d.markEnds t, pauseAt := some (BitVec.ofNat 48 t) } }
  let d : Dev := d.ctxs.foldl (fun (d : Dev) e => d.takePause e.1) d
  if (List.range 25).any (fun sh => decide (0 < d.pauseP sh)) then d.evc 0x97 24 else d

def execPauseIntervalStart (s : State) : Out := lift s fun d => d.pauseStart

/-- The pause of a shuttle ends (R493). -/
def Dev.pauseStop (d : Dev) (sh : Nat) : Dev :=
  { d with
    ctxs := d.ctxs.map fun (e : Nat × Ctx) => if e.2.home.toNat = sh then (e.1, { e.2 with pausePend := false, paused := false }) else e
    therm := { d.therm with pauseEnd := Tab.set 0 d.therm.pauseEnd sh 0 } }

/-- Reed time reaches the earliest end of the pauses that run, and those pauses end (R493). -/
def Dev.pauseFinish (d : Dev) : Dev :=
  match d.therm.pauseEnd.map (·.2) with
  | [] => d
  | e :: t =>
    if !d.comes (t.foldl min e - 1) then d else
    let d := d.advanceTo (t.foldl min e - 1)
    d.therm.pauseEnd.foldl (fun d p => if reached d.now (p.2 - 1) then d.pauseStop p.1 else d) d

def execPauseIntervalEnd (s : State) : Out := lift s fun d => d.pauseFinish

end Sys2Proof.Machine
end

