-- ==== Sys2Proof/Machine/Tme.lean ====
section
/-! DEFINITION. Time measurement engines (R315 to R329). Times are in taps of the Reed time scale (R317). -/
namespace Sys2Proof.Machine
open Sys2Proof

/-- State codes of R321. -/
def tIdle : Nat := 0
def tWait : Nat := 1
def tRun : Nat := 2
def tDone : Nat := 3
def Dev.tmeState (d : Dev) (e : Nat) : Nat := d.rd (Reg.TME.STATUS.state e)
/-- A run is under way, from its arm to DONE (R321): arming counts (DEDUCED). -/
def Dev.tmeBusy (d : Dev) (e : Nat) : Bool := d.tmeState e == tWait || d.tmeState e == tRun || (d.tme e).arming

/-- A field whose value 0 acts as `z`. -/
def Dev.rdOr (d : Dev) (f : Fld) (z : Nat) : Nat := if d.rd f = 0 then z else d.rd f

def Dev.tmeMode (d : Dev) (e : Nat) : Nat := d.rd (Reg.TME.CTRL.mode e)
/-- The gate of a sample runs from B edge to B edge, or for a number of ticks (R318). -/
def Dev.tmeGated (d : Dev) (e : Nat) : Bool := d.tmeMode e == 2 || d.tmeMode e == 5
def Dev.tmeByEdge (d : Dev) (e : Nat) : Bool := d.tmeGated e && d.on (Reg.TME.CTRL.gate_src e)
def Dev.tmeByTick (d : Dev) (e : Nat) : Bool := d.tmeGated e && !d.on (Reg.TME.CTRL.gate_src e)

/-! Samples and sums (R318 to R320, R323). -/

/-- One more sample in the sums. -/
def TSums.add (s : TSums) (x : Int) : TSums :=
  { n := s.n + 1, sum := s.sum + x, sumsq := s.sumsq + x * x,
    min := if s.n = 0 then x else Min.min s.min x, max := if s.n = 0 then x else Max.max s.max x, last := x }

/-- The sums over all the samples counted. -/
def Tme.sums (x : Tme) : TSums := x.recent.foldl (fun s r => s.add r.val) x.base

/-- Mean with 8 fraction bits, and standard deviation with 8 fraction bits before saturation (R323). -/
def TSums.mean (s : TSums) : Int := roundDiv (256 * s.sum) s.n
def TSums.stdev (s : TSums) : Nat :=
  if s.n ≤ 1 then 0 else roundSqrt (65536 * (Int.ofNat s.n * s.sumsq - s.sum * s.sum).toNat) (s.n * (s.n - 1))

/-- The results show the samples counted so far (R323). -/
def Dev.tmeShow (d : Dev) (e : Nat) : Dev :=
  let s := (d.tme e).sums
  let sd := s.stdev
  let d := d.wr (Reg.TME.COUNT.n e) s.n
  let d := d.wr (Reg.TME.MEAN.mean e) (toCode 48 (if s.n = 0 then 0 else s.mean))
  let d := d.wr (Reg.TME.STDEV.stdev e) (min sd 0xFFFFFFFF)
  let d := d.wr (Reg.TME.MIN.min e) (toCode 40 s.min)
  let d := d.wr (Reg.TME.MAX.max e) (toCode 40 s.max)
  let d := d.wr (Reg.TME.LAST.last e) (toCode 40 s.last)
  if 0xFFFFFFFF < sd then d.flag (Reg.TME.STATUS.stdev_sat e) else d

/-- The engine enters DONE (R325). -/
def Dev.tmeDone (d : Dev) (e cause : Nat) : Dev :=
  let d := d.modTme e fun x => { x with start := none, draining := false, arming := false }
  let d := (d.wr (Reg.TME.STATUS.state e) tDone).wr (Reg.TME.STATUS.end_cause e) cause
  ((d.irqLoom Reg.LOOM.IRQ_CAUSE.tme_done (e / 8)).evc (0x10 + e % 8) (e / 8)).unitEvent 5 e

/-- A sample is abandoned or discarded. -/
def Dev.tmeDiscard (d : Dev) (e : Nat) : Dev := (d.bump (Reg.TME.DISCARD.count e)).evc 0x19 (e / 8)

/-- The gate of the next sample opens at the first Reed tick that R319 allows (R318). -/
def Dev.tmeOpen (d : Dev) (e : Nat) : Dev :=
  let x := d.tme e
  if d.tmeByTick e && d.tmeState e == tRun && x.start.isNone && !x.draining then
    let t := match x.prevStart with
      | some s => later (later x.runFrom x.prevEnd) (s + 10240 * d.rdOr (Reg.TME.PACE.pace e) 1)
      | none => later x.runFrom x.prevEnd
    d.setTme e { x with start := some ((t + 10239) / 10240 * 10240 % tapSpan), edges := 0, tainted := false }
  else d

/-- The sample in progress is over at `t`. -/
def Tme.endSample (x : Tme) (t : Nat) : Tme := { x with prevStart := x.start, prevEnd := t, start := none, edges := 0 }

/-- What follows the end of a sample: a drain that waits for it takes effect (R326), or the next gate opens. -/
def Dev.tmeNext (d : Dev) (e : Nat) : Dev := if (d.tme e).draining then d.tmeDone e 2 else d.tmeOpen e

/-- The sample in progress is abandoned at `t` (R320). -/
def Dev.tmeAbandon (d : Dev) (e t : Nat) : Dev :=
  ((((d.modTme e (·.endSample t)).tmeDiscard e).flag (Reg.TME.STATUS.no_signal e))).tmeNext e

/-- 100 ns in taps (R327). -/
def exchSpan : Nat := 102400

/-- An edge of an input lies within 100 ns of the exchange of its channel (R327). -/
def Tme.nearExch (x : Tme) (inp : Option Bool) (t : Nat) : Bool :=
  match (match inp with | some true => x.exchB | some false => x.exchA | none => none) with
  | some u => decide (since t u ≤ exchSpan) || decide (since u t ≤ exchSpan)
  | none => false

/-- The sample in progress ends at `t` with value `v`, its edges on the inputs `inS` and `inE`. -/
def Dev.tmeSample (d : Dev) (e t : Nat) (v : Int) (inS inE : Option Bool) : Dev :=
  let x := d.tme e
  match x.start with
  | none => d
  | some s =>
    if x.tainted || x.nearExch inE t then
      (((d.setTme e (x.endSample t)).tmeDiscard e).flag (Reg.TME.STATUS.exchange e)).tmeNext e
    else
      let old := x.recent.takeWhile fun r => atOrAfter t r.stop && decide (exchSpan < since t r.stop)
      let x' : Tme := { x with base := old.foldl (fun s r => s.add r.val) x.base,
                               recent := x.recent.drop old.length ++ [⟨s, t, v, inS, inE⟩] }
      let d := ((d.setTme e (x'.endSample t)).tmeShow e).evc 0x18 (e / 8)
      if d.rd (Reg.TME.N.n e) ≤ (d.tme e).sums.n then d.tmeDone e 0 else d.tmeNext e

/-- A gate closes at `t` (R318). A frequency that no 40-bit sample holds is a free value. -/
def Dev.tmeGateEnd (d : Dev) (e t : Nat) (inp : Option Bool) : Dev :=
  let x := d.tme e
  if d.tmeMode e = 5 then d.tmeSample e t x.edges inp inp
  else if x.edges < 2 then d.tmeAbandon e t
  else
    let v := roundDiv (Int.ofNat ((x.edges - 1) * 1024000000000000)) (since x.tl x.t0)
    if v < 2 ^ 39 then d.tmeSample e t v inp inp
    else (d.tookFree).tmeSample e t (Config.freeSample d.freeCtr).toInt inp inp

/-- A start event of input `inp` at `t` starts a sample, where R319 and R322 allow. -/
def Dev.tmeStart (d : Dev) (e t : Nat) (inp : Bool) : Dev :=
  let x := d.tme e
  if d.tmeState e == tRun && x.start.isNone && !x.draining && atOrAfter t x.runFrom && atOrAfter t x.prevEnd
      && (match x.prevStart with | some s => atOrAfter t (s + 10240 * d.rdOr (Reg.TME.PACE.pace e) 1) | none => true) then
    d.setTme e { x with start := some t, edges := 1, t0 := t, t1 := t, tl := t, tainted := x.nearExch (some inp) t }
  else d

/-- The abandon time of the sample that started at `s`. -/
def Dev.tmeLimit (d : Dev) (e s : Nat) : Nat := (s + 10240 * d.rdOr (Reg.TME.TIMEOUT.ticks e) 0xFFFFFF) % tapSpan
/-- The close of the gate that opened at `s`. -/
def Dev.tmeClose (d : Dev) (e s : Nat) : Nat := (s + 10240 * d.rdOr (Reg.TME.GATE.ticks e) 1) % tapSpan

/-- The gate of the sample in progress, which opened at `s`, closes before the sample's abandon time. -/
def Dev.tmeCloses (d : Dev) (e s : Nat) : Bool := d.tmeByTick e && atOrAfter (d.tmeLimit e s) (d.tmeClose e s)

/-- What comes of the sample in progress before an edge at `t`: its gate of so many ticks closes, or its abandon time passes; and
so for the samples that follow it (R318, R320). -/
def Dev.tmeForward (d : Dev) (e t : Nat) : Nat → Dev
  | 0 => d
  | k + 1 =>
    match (d.tme e).start with
    | none => d
    | some s =>
      if d.tmeCloses e s then
        if atOrAfter t (d.tmeClose e s) then (d.tmeGateEnd e (d.tmeClose e s) none).tmeForward e t k else d
      else if atOrAfter t (d.tmeLimit e s + 1) then (d.tmeAbandon e (d.tmeLimit e s)).tmeForward e t k
      else d

/-- The engine as an edge at `t` finds it: a sample takes at least one tick. -/
def Dev.tmeBy (d : Dev) (e t : Nat) : Dev :=
  d.tmeForward e t (match (d.tme e).start with | some s => since t s / 10240 + 2 | none => 0)

/-- A B edge at the time of the A edge that starts the sample: an interval of 0 (R318). -/
def Dev.tmeZero (d : Dev) (e t : Nat) : Dev :=
  let d := d.tmeStart e t false
  if (d.tme e).start = some t then d.tmeSample e t 0 (some false) (some true) else d

/-- An edge of input A at `t` (R318). -/
def Dev.tmeEdgeA (d : Dev) (e : Nat) (rising : Bool) (t : Nat) : Dev :=
  let q := d.tmeQual e false rising
  let d := if q then d.modTme e fun x => { x with lastQA := some t } else d
  let x := d.tme e
  match d.tmeMode e with
  | 0 => if q && x.start.isNone then (if x.lastQ = some t then d.tmeZero e t else d.tmeStart e t false) else d
  | 1 =>
    if !q then d
    else match x.start with
      | some s => (d.tmeSample e t (Int.ofNat (since t s)) (some false) (some false)).tmeStart e t false
      | none => d.tmeStart e t false
  | 3 =>
    match x.start with
    | some s => if q then d else d.tmeSample e t (Int.ofNat (since t s)) (some false) (some false)
    | none => if q then d.tmeStart e t false else d
  | 4 =>
    match x.start with
    | some s =>
      if x.edges = 1 then d.setTme e { x with edges := 2, t1 := t }
      else
        let d := d.tmeSample e t (roundDiv (Int.ofNat (16777216 * since x.t1 s)) (since t s)) (some false) (some false)
        if q then d.tmeStart e t false else d
    | none => if q then d.tmeStart e t false else d
  | _ =>
    match x.start with
    | some s =>
      if q && atOrAfter t s then d.setTme e { x with edges := x.edges + 1, t0 := if x.edges = 0 then t else x.t0, tl := t } else d
    | none => d

/-- An edge of input B at `t`. An A edge at the time at which an interval ends may start the next (R319). -/
def Dev.tmeEdgeB (d : Dev) (e : Nat) (rising : Bool) (t : Nat) : Dev :=
  if !d.tmeQual e true rising then d
  else
    let d := d.modTme e fun x => { x with lastQ := some t }
    if d.tmeMode e = 0 then
      match (d.tme e).start with
      | some s =>
        if !atOrAfter t s then d
        else
          let d := d.tmeSample e t (Int.ofNat (since t s)) (some false) (some true)
          if (d.tme e).lastQA = some t ∧ s ≠ t then d.tmeZero e t else d
      | none => d
    else if d.tmeByEdge e then
      let d := if (d.tme e).start.isSome then d.tmeGateEnd e t (some true) else d
      let d := d.tmeStart e t true
      if (d.tme e).start = some t then d.modTme e fun x => { x with edges := 0 } else d
    else d

/-- The oldest edge that waits at an input. -/
def Tme.edgeAt (x : Tme) (b : Bool) : Option TEdge := x.feed.find? fun y => y.b == b

/-- An edge of the source of an input is timestamped, in taps (R317): the oldest that waits at that input, and no earlier one
waits at the other. -/
def execTmeTimestamp (e : Fin 192) (b rising : Bool) (t : Nat) (s : State) : Out :=
  lift s fun d =>
    let e := e.val
    let x := d.tme e
    if x.edgeAt b = some ⟨b, rising, t⟩ ∧ (x.edgeAt !b).all (fun y => atOrAfter y.t t) then
      let last := if b then x.lastB else x.lastA
      let x := { x with feed := x.feed.erase ⟨b, rising, t⟩ }
      let d := d.setTme e (if b then { x with lastB := some t } else { x with lastA := some t })
      if last.any fun u => decide (10 * since t u < 6144) then d.bump (Reg.TME.OVERRUN.count e)
      else if b then (d.tmeBy e t).tmeEdgeB e rising t else (d.tmeBy e t).tmeEdgeA e rising t
    else d

/-- The gate of so many ticks closes. -/
def execTmeGateClose (e : Fin 192) (s : State) : Out :=
  lift s fun d =>
    match (d.tme e).start with
    | some u =>
      let t := d.tmeClose e u
      if d.tmeByTick e && d.tmeState e == tRun && d.comes (t / 10240) then (d.advanceTo (t / 10240)).tmeBy e t else d
    | none => d

/-- The sample in progress reaches its abandon time. -/
def execTmeSampleTimeout (e : Fin 192) (s : State) : Out :=
  lift s fun d =>
    match (d.tme e).start with
    | some u =>
      let t := d.tmeLimit e u
      let k := (t + 10239) / 10240 % 2 ^ 48
      if d.comes k then (d.advanceTo k).tmeBy e (t + 1) else d
    | none => d

/-! Runs (R321, R322, R325, R326). -/

/-- The reason that refuses an arm, if any: the lowest code (DESIGN CHOICE: the spec orders none). -/
def Dev.tmeArmReason (d : Dev) (m : Master) (e : Nat) : Option Nat :=
  let n := e / 8
  let mode := d.tmeMode e
  if 5 < mode ∨ 4 < d.tmeSrc e false ∨ 4 < d.tmeSrc e true ∨ d.tmeSrc e false = 0 ∨ ((mode = 3 ∨ mode = 4) ∧ d.rd (Reg.TME.SRC_A.edge e) = 3)
      ∨ d.rd (Reg.TME.N.n e) = 0 then some 1
  else if !d.owns m (loomBlock n) || d.tmeBusy e then some 2
  else if d.unit (kTme n) ≠ .on then some 3
  else if !d.on (Reg.LOOM.SELVEDGE.pll_lock n) || !d.on (Reg.LOOM.SELVEDGE.dll_lock n) then some 4
  else if d.tmeSrc e true = 0 ∧ (mode = 0 ∨ d.tmeByEdge e) then some 5
  else none

/-- An arm is refused. -/
def Dev.tmeReject (d : Dev) (m : Master) (e r : Nat) : Dev :=
  (d.wr (Reg.TME.STATUS.reject_code e) r).rejectWith (Reg.TME.STATUS.arm_reject e) (!d.owns m (loomBlock (e / 8)))

/-- A stop (R326): the sample in progress is discarded, uncounted. -/
def Dev.tmeStop (d : Dev) (e : Nat) : Dev := if d.tmeBusy e then d.tmeDone e 1 else d

/-- An arm (R321). -/
def Dev.tmeArm (d : Dev) (m : Master) (e : Nat) : Dev :=
  match d.tmeArmReason m e with
  | some r => d.tmeReject m e r
  | none =>
    let d := d.modTme e fun x => { lastA := x.lastA, lastB := x.lastB, exchA := x.exchA, exchB := x.exchB, feed := x.feed, snaps := x.snaps, arming := true }
    ((d.tmeShow e).upd (Reg.TME.DISCARD.count e) fun _ => 0).upd (Reg.TME.OVERRUN.count e) fun _ => 0

def execTmeCmdArm (m : Master) (e : Fin 192) (stop : Bool) (s : State) : Out :=
  lift s fun d => if stop then (d.tmeStop e).tmeReject m e 6 else d.tmeArm m e

def execTmeCmdStop (_m : Master) (e : Fin 192) (s : State) : Out := lift s fun d => d.tmeStop e

/-- The engine enters RUN at tick `t` (R322). -/
def Dev.tmeRun (d : Dev) (e t : Nat) : Dev :=
  ((d.wr (Reg.TME.STATUS.state e) tRun).modTme e fun x => { x with runFrom := 10240 * t, prevEnd := 10240 * t }).tmeOpen e

/-- An armed engine reaches WAIT_START. -/
def execTmeArmComplete (e : Fin 192) (s : State) : Out :=
  lift s fun d =>
    if (d.tme e).arming then
      let d := (d.modTme e fun x => { x with arming := false }).wr (Reg.TME.STATUS.state e) tWait
      if !d.on (Reg.TME.CTRL.start_at e) || reached d.now (d.rd (Reg.TME.START.time e)) then d.tmeRun e d.now else d
    else d

/-- Reed time reaches START. -/
def execTmeStartTime (e : Fin 192) (s : State) : Out :=
  lift s fun d =>
    if d.tmeState e = tWait ∧ d.comes (d.rd (Reg.TME.START.time e)) then
      let d := d.advanceTo (d.rd (Reg.TME.START.time e))
      d.tmeRun e d.now
    else d

/-! The loom (R326, R327). -/

/-- A sample of engine `e` is in progress: one that the pace puts off has not begun. -/
def Dev.tmeRuns (d : Dev) (e : Nat) : Bool := (d.tme e).start.any fun t => reached d.now (t / 10240)

/-- Engine `e` ends at once with a cause: the sample in progress is discarded. -/
def Dev.tmeCut (d : Dev) (e cause : Nat) : Dev :=
  if d.tmeBusy e then
    let d := if d.tmeRuns e then d.tmeDiscard e else d
    d.tmeDone e cause
  else d

/-- The engines of loom `n` are quarantined (R326, R546). -/
def Dev.tmeQuarantine (d : Dev) (n : Nat) : Dev := (List.range 8).foldl (fun d i => d.tmeCut (8 * n + i) 3) d

/-- Loss of a lock of loom `n` (R326). -/
def Dev.tmeLockLoss (d : Dev) (n : Nat) : Dev :=
  (List.range 8).foldl (fun d i =>
    if d.tmeBusy (8 * n + i) then (d.tmeCut (8 * n + i) 4).flag (Reg.TME.STATUS.lock_lost (8 * n + i)) else d) d

/-- A drain of the engines of loom `n` (R54, R326): a sample in progress is completed or abandoned. -/
def Dev.tmeDrain (d : Dev) (n : Nat) : Dev :=
  (List.range 8).foldl (fun d i =>
    let e := 8 * n + i
    if !d.tmeBusy e then d
    else if d.tmeRuns e then d.modTme e fun x => { x with draining := true }
    else d.tmeDone e 2) d

/-- Whether the drain of the engines of loom `n` is complete. -/
def Dev.tmeQuiet (d : Dev) (n : Nat) : Bool := (List.range 8).all fun i => !d.tmeBusy (8 * n + i)

/-- Channel `c` is exchanged now (R327): samples with an edge of it within 100 ns before are discarded. -/
def Dev.tmeExchange (d : Dev) (c : Nat) : Dev :=
  (List.range 8).foldl (fun d i =>
    let e := 8 * (c / 32) + i
    let hit := fun (b : Bool) => (d.tmeSrc e b == 1 || d.tmeSrc e b == 2) && d.tmeK e b == c % 32
    if !hit false && !hit true then d
    else
      let d := d.modTme e fun x => { x with exchA := if hit false then some d.nowTaps else x.exchA,
                                            exchB := if hit true then some d.nowTaps else x.exchB }
      if d.tmeState e ≠ tRun then d
      else
        let x := d.tme e
        let start := if d.tmeByEdge e then some true else if d.tmeByTick e then none else some false
        let d := if (x.start.map (x.nearExch start)).getD false then d.setTme e { x with tainted := true } else d
        let bad := fun (r : TSample) => x.nearExch r.inS r.start || x.nearExch r.inE r.stop
        let k := (x.recent.filter bad).length
        if k = 0 then d
        else ((iter (fun _ d => d.tmeDiscard e) k (d.modTme e fun x => { x with recent := x.recent.filter (!bad ·) })).flag
          (Reg.TME.STATUS.exchange e)).tmeShow e) d

/-! The snapshot (R324). -/

/-- A read of COUNT: the port snaps all the results of the engine, and receives the count. -/
def Dev.tmeSnap (d : Dev) (p : Port) (e : Nat) : Dev :=
  let v := [d.rd (Reg.TME.COUNT.n e), d.rd (Reg.TME.MEAN.mean e), d.rd (Reg.TME.STDEV.stdev e), d.rd (Reg.TME.MIN.min e),
            d.rd (Reg.TME.MAX.max e), d.rd (Reg.TME.LAST.last e)]
  d.modTme e fun x => { x with snaps := Tab.set [] x.snaps (portKey p) v }

def execTmeCountSnapshotRead (p : Port) (e : Fin 192) (s : State) : Out :=
  lift s fun d => (d.tmeSnap p e.val).answer p (signSlot (some 24) (d.rd (Reg.TME.COUNT.n e.val)))

end Sys2Proof.Machine
end

