-- ==== Sys2Proof/Machine/Cal.lean ====
section
/-! DEFINITION. Calibration (R458 to R487), and the exchange of cores and their sparing (R551 to R555), which share
the spare cores and the exchange points. -/
namespace Sys2Proof.Machine
open Sys2Proof

/-! Records (R462, R464, R487). A core record has 64 slots, a loom record 16. -/

/-- The bits of a slot that hold a field. -/
def coreMask (slot : Nat) : BitVec 32 :=
  if slot < 19 then 0xFFFFFF else if slot < 24 then 0xFFFFFFFF else if slot = 24 then 0xF else if slot < 27 then 0xFFFFFFFF
  else if slot < 31 then 0xFFFFFF else if slot = 31 then 0x3FFFF else 0
def loomMask (slot : Nat) : BitVec 32 :=
  if slot < 6 then 0xFFFFFF else if slot = 6 then 0xFFFFFFFF else if slot = 7 then 0xFFFFFF else if slot = 8 then 0xFFFFFFFF
  else if slot = 9 then 0x3FF else if slot = 10 then 0x3FFFF else 0

def coreSet (t : Tab (BitVec 32)) (g slot : Nat) (v : BitVec 32) : Tab (BitVec 32) :=
  if coreMask slot = 0 then t else Tab.set (coreNom slot) t (64 * g + slot) (v &&& coreMask slot)
def loomSet (t : Tab (BitVec 32)) (n slot : Nat) (v : BitVec 32) : Tab (BitVec 32) :=
  if loomMask slot = 0 then t else Tab.set (loomNom slot) t (16 * n + slot) (v &&& loomMask slot)

/-- Sets the slots of a core record from `f`. -/
def coreFill (t : Tab (BitVec 32)) (g : Nat) (f : Nat → BitVec 32) : Tab (BitVec 32) := iter (fun i t => coreSet t g i (f i)) 32 t

/-- Exactly 64 cells of a core record are selected (R463, R466). -/
def cellsOk (t : Tab (BitVec 32)) (g : Nat) : Bool :=
  popcount (coreGet t g 0).toNat 24 + popcount (coreGet t g 1).toNat 24 + popcount (coreGet t g 2).toNat 24 == 64

/-- Every core record keeps the rule of R466; the records that no entry touches are nominal. -/
def allCellsOk (t : Tab (BitVec 32)) : Bool := t.all fun e => cellsOk t (e.1 / 64)

/-- The last slot of a record that has been measured at temperature `t`: T_cal and valid. -/
def measured (t : Int) : BitVec 32 := BitVec.ofNat 32 (toCode 16 t + 0x10000)

/-- T_cal of a record's last slot, and its valid bit. -/
def tCal (v : BitVec 32) : Int := sext 16 v.toNat
def recValid (v : BitVec 32) : Bool := v.getLsbD 16

/-! Temperature of a loom (R489) and the due rule (R473). -/

def Dev.sensor (d : Dev) (i : Nat) : Sensor := Tab.get {} d.therm.sensors i

/-- T_loom: the higher valid reading of the loom's two sensors, else TEMP_MAX. -/
def Dev.tLoom (d : Dev) (n : Nat) : Int :=
  let a := d.sensor (2 * n)
  let b := d.sensor (2 * n + 1)
  let okA := a.valid && !a.faulty
  let okB := b.valid && !b.faulty
  if okA && okB then (if a.temp < b.temp then b.temp else a.temp)
  else if okA then a.temp
  else if okB then b.temp
  else sext 16 (d.rd Reg.TEMP_MAX.temp)

/-- How far a core's T_cal is from T_loom; none where the record is not valid (R473, R475). -/
def Dev.calDrift (d : Dev) (n j : Nat) : Option Nat :=
  let v := coreGet d.cal.coreA (34 * n + j) 31
  if recValid v then some (d.tLoom n - tCal v).natAbs else none

/-- uncal: some active record has valid = 0 (R486). -/
def Dev.uncal (d : Dev) : Bool :=
  (List.range 816).any (fun g => !recValid (coreGet d.cal.coreA g 31)) || (List.range 24).any fun n => !recValid (loomGet d.cal.loomA n 10)

/-- A core is due (R473); a threshold of 0 acts as 1. -/
def Dev.coreDue (d : Dev) (n j : Nat) : Bool :=
  match d.calDrift n j with
  | none => true
  | some x => decide (max (d.rd Reg.CAL_DELTA_T.dt) 1 < x)

/-! Cores, spares and exchanges. -/

/-- The ball pair that core `j` serves. -/
def Dev.ballOf (d : Dev) (n j : Nat) : Option Nat :=
  if j < 32 then (if d.coreOf n j = j then some j else none)
  else if d.rd (ballFld n j) < 32 then some (d.rd (ballFld n j)) else none

def Dev.coreBad (d : Dev) (n j : Nat) : Bool :=
  if j < 32 then bit (d.rd (Reg.LOOM.CORE_FAIL.failed n)) j
  else d.on (if j = 33 then Reg.LOOM.SPARE.s33_failed n else Reg.LOOM.SPARE.s32_failed n)

def Dev.setBad (d : Dev) (n j : Nat) (b : Bool) : Dev :=
  if j < 32 then d.wr (Reg.LOOM.CORE_FAIL.failed n) (putBits (d.rd (Reg.LOOM.CORE_FAIL.failed n)) j 1 (b2n b))
  else d.wr (if j = 33 then Reg.LOOM.SPARE.s33_failed n else Reg.LOOM.SPARE.s32_failed n) (b2n b)

/-- The free spares of loom `n` (R552): serving no ball pair, not failed, not on the bus, and in no exchange that is
asked for or moving. -/
def Dev.freeSpares (d : Dev) (n : Nat) : List Nat :=
  [32, 33].filter fun j => d.rd (ballFld n j) == 63 && !d.coreBad n j
    && !((d.box n).exch.any fun e => e.why == 2 && e.dest == j) && !(d.box n).moving.any (·.dest == j)

/-- A sparing exchange for ball pair `k` waits or moves. -/
def Dev.sparePend (d : Dev) (n k : Nat) : Bool :=
  (d.box n).exch.any (fun e => e.why == 2 && e.k == k) || (d.box n).moving.any fun e => e.why == 2 && e.k == k

/-- An exchange is asked for; it waits for its exchange point (R551). -/
def Dev.askExch (d : Dev) (n : Nat) (e : Exch) : Dev := d.modBox n fun b => { b with exch := b.exch ++ [e] }

/-- Every condition of an exchange point for ball pair `k` holds (R479). -/
def Dev.exchPoint (d : Dev) (n k : Nat) : Bool :=
  !d.patRunning n && (d.chan (32 * n + k)).meas.isNone
    && d.ctxs.all fun e => (e.2.state != .ready && e.2.state != .waiting) || e.2.atPause || !d.inSite (32 * n + k) e.2.site.toNat

/-! The engine's work on one loom. -/

def Dev.calWork (d : Dev) (n : Nat) : Option CalCore := Tab.get none d.cal.work n
def Dev.setWork (d : Dev) (n : Nat) (w : Option CalCore) : Dev := { d with cal := { d.cal with work := Tab.set none d.cal.work n w } }
def Dev.calState (d : Dev) : Nat := d.rd Reg.CAL_STATUS.state
def Dev.calPhase (d : Dev) : Nat := d.rd Reg.CAL_STATUS.phase

/-- CAL_STATUS shows the loom and the core being worked (R486). -/
def Dev.calShow (d : Dev) (n j : Nat) : Dev := (d.wr Reg.CAL_STATUS.loom n).wr Reg.CAL_STATUS.core j

/-- A calibration command is refused (R486). -/
def Dev.calReject (d : Dev) (code : Nat) : Dev := (d.wr Reg.CAL_STATUS.reject_code code).rejectWith Reg.CAL_CTRL.cmd_reject (code == 1)

/-- A sparing exchange that waits or moves brings core `j` in (R478). -/
def Dev.spareTo (d : Dev) (n j : Nat) : Bool :=
  (d.box n).exch.any (fun e => e.why == 2 && e.dest == j) || (d.box n).moving.any fun e => e.why == 2 && e.dest == j

/-- Core `j` is on the calibration bus of loom `n`; a spare there is not free (R552). -/
def Dev.onCalBus (d : Dev) (n j : Nat) : Dev := (d.calShow n j).wr (ballFld n j) (if 32 ≤ j then 62 else d.rd (ballFld n j))

/-- Core `j` goes on the calibration bus; one that serves a ball pair is first exchanged out to the lower-numbered free
spare (R470, R477). None where no spare is free, or where sparing has claimed the core (R478). -/
def Dev.calTake (d : Dev) (n j : Nat) (rolling : Bool) (after : Option Nat) : Option Dev :=
  match d.ballOf n j with
  | none => if d.spareTo n j then none else some ((d.setWork n (some ⟨j, none, 1, rolling, false, after⟩)).onCalBus n j)
  | some k =>
    match (d.freeSpares n).head? with
    | none => none
    | some s => some ((d.setWork n (some ⟨j, some (s, k), 0, rolling, false, after⟩)).askExch n ⟨k, s, if rolling then 0 else 1⟩)

/-- Core number `i` of the order of the core phase (R470). -/
def coreOrder (i : Nat) : Nat := if i = 0 then 32 else if i = 1 then 33 else i - 2

/-- The next core of loom `n` in the core phase; a core that no spare can stand in for is passed over. -/
def Dev.calNext (d : Dev) (n : Nat) : Nat → Dev
  | 0 => d
  | f + 1 =>
    let i := Tab.get 0 d.cal.nextCore n
    if 34 ≤ i then d
    else
      let d := { d with cal := { d.cal with nextCore := Tab.set 0 d.cal.nextCore n (i + 1) } }
      match d.calTake n (coreOrder i) false none with
      | some d' => d'
      | none => d.calNext n f

/-- A full calibration begins with its check of V_REF, and with its record (R470, R484). -/
def Dev.fullStart (d : Dev) (m : Master) : Dev :=
  let d := d.logRec 0x18 (masterCode m)
  let d := ((d.wr Reg.CAL_STATUS.state 1).wr Reg.CAL_STATUS.phase 0).calShow 0 32
  let d := (d.wr Reg.CAL_FAILS.cores 0).wr Reg.CAL_FAILS.looms 0
  { d with cal := { d.cal with fullPend := none, stopping := false, ladderBad := [], timingBad := false, nextCore := [] } }

/-- Rolling work is in progress. -/
def Dev.rolls (d : Dev) : Bool := d.cal.work.any fun e => e.2.any (·.rolling)

/-- The engine is IDLE once no rolling cycle runs; a full calibration that waited for them starts (R469, R475). -/
def Dev.rollSettle (d : Dev) : Dev :=
  if d.calState ≠ 2 ∨ d.rolls then d
  else match d.cal.fullPend with
    | some m => d.fullStart m
    | none => d.wr Reg.CAL_STATUS.state 0

/-- Ball pairs left on a failed core are exchanged as spares become free (R552, R553). -/
def Dev.spareRetry (d : Dev) (n : Nat) : Dev :=
  iter (fun k d =>
    if bit (d.rd (Reg.LOOM.UNSPARED.pairs n)) k && d.on Reg.GLB_ERR_CFG.auto_spare && !d.sparePend n k then
      match (d.freeSpares n).head? with
      | some s => d.askExch n ⟨k, s, 2⟩
      | none => d
    else d) 32 d

/-- A core of a spare that leaves the calibration bus (R552). -/
def Dev.offCalBus (d : Dev) (n j : Nat) : Dev := if 32 ≤ j ∧ d.rd (ballFld n j) = 62 then d.wr (ballFld n j) 63 else d

/-- Every staged copy becomes its active copy (R468, R472). -/
def Dev.unstage (d : Dev) : Dev :=
  { d with cal := { d.cal with coreS := d.cal.coreA, loomS := d.cal.loomA, deskS := d.cal.deskA, pendRef := none } }.wr Reg.CAL_STATUS.staged_dirty 0

/-- A full calibration ends (R470, R471, R484). -/
def Dev.fullEnd (d : Dev) (committed refBad stopped : Bool) : Dev :=
  let cores := d.rd Reg.CAL_FAILS.cores
  let looms := d.rd Reg.CAL_FAILS.looms
  let failed := refBad || d.cal.timingBad || cores != 0 || looms != 0
  let d := d.logRec 0x19 (b2n committed + 2 * b2n failed + 4 * b2n refBad + 8 * b2n d.cal.timingBad + 16 * b2n stopped + 32 * cores + 32768 * looms)
  (d.wr Reg.CAL_STATUS.state 0).flag Reg.CAL_STATUS.done

/-- A core of a full calibration is still to be returned; the loom is not quarantined, where a core on the bus stays (R472, R478). -/
def Dev.returning (d : Dev) : Bool := d.cal.work.any fun e => !d.quar e.1 && e.2.any (!·.rolling)

/-- A stopped full calibration ends once its cores are back: the staged copies are set back, and the engine is IDLE (R472). -/
def Dev.stopSettle (d : Dev) : Dev :=
  if d.calState = 1 ∧ d.cal.stopping ∧ !d.returning then ({ d with cal := { d.cal with stopping := false } }.unstage).fullEnd false false true
  else d

/-- The work on a core of loom `n` has ended (R477, R484). -/
def Dev.cycleEnd (d : Dev) (n : Nat) (w : CalCore) (failed abandoned : Bool) : Dev :=
  let d := (((d.setWork n none).offCalBus n w.j).spareRetry n)
  if w.rolling then
    let d := d.logRec 0x1B (n + 32 * w.after.getD w.j + 2048 * b2n failed + 4096 * b2n abandoned)
    let d := if abandoned then d else d.evc 0x3A n
    { d with cal := { d.cal with lastCycle := Tab.set none d.cal.lastCycle n (some d.reed.time) } }.rollSettle
  else if d.calState = 1 ∧ d.calPhase = 3 ∧ !d.cal.stopping then d.calNext n 35
  else d.stopSettle

/-- The work on loom `n` loses its core or its stand-in to sparing (R478). -/
def Dev.calAbandon (d : Dev) (n : Nat) : Dev :=
  match d.calWork n with
  | none => d
  | some w => (d.modBox n fun b => { b with exch := b.exch.filter (·.why == 2) }).cycleEnd n w false true

/-- The work has a core off its ball pair `k`, which its stand-in serves (R477). -/
def CalCore.standsFor (w : CalCore) (k : Nat) : Bool := w.stage != 0 && w.stand.any (·.2 == k)

/-- A sparing exchange of ball pair `k` to core `dest` is asked for; it goes before the calibration's own, whose cycle is given
up where both claim a core. A cycle that had its core off the ball pair has that core returned after it, as an exchange of
sparing (R478). -/
def Dev.spareAsk (d : Dev) (n k dest : Nat) : Dev :=
  match d.calWork n with
  | none => d.askExch n ⟨k, dest, 2⟩
  | some w =>
    if w.j == k || w.j == dest || w.after.any (fun j => j == k || j == dest) || w.stand.any fun p => p.1 == dest || p.2 == k then
      let d := (d.calAbandon n).askExch n ⟨k, dest, 2⟩
      if w.standsFor k && dest != w.j then d.askExch n ⟨k, w.j, 2⟩ else d
    else d.askExch n ⟨k, dest, 2⟩

/-- Ball pair `k` has lost its core: it goes to a free spare, or stays unspared (R552, R553). -/
def Dev.spareFor (d : Dev) (n k : Nat) : Dev :=
  if d.sparePend n k then d
  else match (d.freeSpares n).head? with
    | some s => if d.on Reg.GLB_ERR_CFG.auto_spare then d.spareAsk n k s else d
    | none =>
      (d.wr (Reg.LOOM.UNSPARED.pairs n) (putBits (d.rd (Reg.LOOM.UNSPARED.pairs n)) k 1 1)).flag Reg.GLB_ERR_STATUS.unspared

/-- Core `j`, which serves no ball pair, has failed: the sparing exchanges that wait to bring it in are given up, and a ball pair
that still needs a core is given another (R552, R554). -/
def Dev.exchLost (d : Dev) (n j : Nat) : Dev :=
  let lost := (d.box n).exch.filter fun e => e.why == 2 && e.dest == j
  lost.foldl (fun d e => if d.coreBad n (d.coreOf n e.k) then d.spareFor n e.k else d)
    (d.modBox n fun b => { b with exch := b.exch.filter fun e => !(e.why == 2 && e.dest == j) })

/-- auto_spare has become 1: every failed core that serves a ball pair is exchanged (R552, R553). -/
def Dev.spareAll (d : Dev) : Dev :=
  iter (fun c d => if d.coreBad (c / 32) (d.coreOf (c / 32) (c % 32)) then d.spareFor (c / 32) (c % 32) else d) 768 d

/-- The stand-in `j` of loom `n`'s work is lost: a cycle whose exchange to it has not begun is abandoned, and one that has its
core on the bus returns it at once under sparing's rules, where auto_spare has sparing act (R478, R552). -/
def Dev.standLost (d : Dev) (n j : Nat) : Dev :=
  match d.calWork n with
  | none => d
  | some w =>
    match w.stand with
    | none => d
    | some (s, k) =>
      if s ≠ j then d
      else if w.stage = 0 then (if (d.box n).moving.any (·.dest == j) then d else d.calAbandon n)
      else if d.on Reg.GLB_ERR_CFG.auto_spare then (d.calAbandon n).askExch n ⟨k, w.j, 2⟩
      else d

/-- Core `j` is marked failed, for `cause` 0 calibration, 1 trim store, 2 command (R541, R552, R560). A stand-in that is
lost gives its ball pair back to the core it stood in for (R478). -/
def Dev.coreFailed (d : Dev) (n j cause : Nat) : Dev :=
  if d.coreBad n j then d
  else
    let d := (((d.setBad n j true).flag Reg.GLB_ERR_STATUS.core_fail).logRec 0x24 (n + 32 * j + 2048 * cause))
    match d.ballOf n j with
    | none => (d.exchLost n j).standLost n j
    | some k => if (d.calWork n).any fun w => w.standsFor k && w.stand.any (·.1 == j) then d.standLost n j else d.spareFor n k

/-! Exchanges (R479, R485, R551). -/

/-- An exchange of loom `n` begins at its exchange point, a sparing one before the others (R478, R479, R546). -/
def Dev.coreExchange (d : Dev) (n : Nat) : Dev :=
  if d.quar n || (d.box n).moving.isSome then d
  else
    let q := (d.box n).exch
    match (q.filter (·.why == 2) ++ q.filter (·.why != 2)).find? fun e => d.exchPoint n e.k with
    | none => d
    | some e =>
      let c := 32 * n + e.k
      let d := d.modBox n fun b => { b with exch := b.exch.erase e, moving := some e }
      (((d.wr (Reg.CHAN.STATUS.exchanging c) 1).capExchange c).millExchange c).tmeExchange c

def execCoreExchange (n : LoomId) (s : State) : Out := lift s fun d => d.coreExchange n.val

/-- What an exchange means for the engine's work: the core is on the bus, or the work has ended (R477, R472). A stand-in that
failed while the ball pair moved to it is lost from there (R478). -/
def Dev.calExchanged (d : Dev) (n : Nat) (e : Exch) : Dev :=
  match d.calWork n with
  | none => d
  | some w =>
    if e.why = 2 then d
    else if w.stage = 0 then
      if !w.rolling ∧ (d.calState ≠ 1 ∨ d.cal.stopping) then ((d.setWork n (some { w with stage := 2 })).askExch n ⟨e.k, w.j, 1⟩).stopSettle
      else
        let d := (d.setWork n (some { w with stage := 1 })).onCalBus n w.j
        if d.coreBad n e.dest then d.standLost n e.dest else d
    else if w.stage = 2 then d.cycleEnd n w false false
    else d

/-- An exchange is complete: the ball pair is on its new core, and what waited goes on (R104, R485, R560). -/
def Dev.exchangeEnd (d : Dev) (n : Nat) : Dev :=
  match (d.box n).moving with
  | none => d
  | some e =>
    let c := 32 * n + e.k
    let out := d.coreOf n e.k
    let d := ((d.modBox n fun b => { b with moving := none }).wr (Reg.CHAN.STATUS.exchanging c) 0).wr (Reg.CHAN.STATUS.core c) e.dest
    let d := if 32 ≤ out then d.wr (ballFld n out) 63 else d
    let d := (if 32 ≤ e.dest then d.wr (ballFld n e.dest) e.k else d).evc 0x39 n
    let d := if e.why = 2 then d.logRec 0x23 (n + 32 * out + 2048 * e.dest + 131072 * b2n (decide (32 ≤ e.dest))) else d
    let d := if d.coreBad n e.dest then d
             else d.wr (Reg.LOOM.UNSPARED.pairs n) (putBits (d.rd (Reg.LOOM.UNSPARED.pairs n)) e.k 1 0)
    ((d.calExchanged n e).chanResume c).spareRetry n

def execExchangeComplete (n : LoomId) (s : State) : Out := lift s fun d => d.exchangeEnd n.val

/-! Sparing commands (R552 to R555). -/

/-- A `SPARE_CMD` is refused (R554). -/
def Dev.exchReject (d : Dev) (n code : Nat) : Dev :=
  (d.wr (Reg.LOOM.SPARE.reject_code n) code).rejectWith (Reg.LOOM.SPARE.exch_reject n) (code == 1)

def Dev.spareOut (d : Dev) (m : Master) (n k : Nat) : Dev :=
  if !d.owns m (loomBlock n) then d.exchReject n 1
  else match (d.freeSpares n).head? with
    | none => d.exchReject n 2
    | some s => if d.quar n then d.exchReject n 4 else if d.sparePend n k then d.exchReject n 5 else d.spareAsk n k s

def execSpareOut (m : Master) (n : LoomId) (k : Fin 32) (s : State) : Out := lift s fun d => d.spareOut m n.val k.val

def Dev.spareReturn (d : Dev) (m : Master) (n k : Nat) : Dev :=
  if !d.owns m (loomBlock n) then d.exchReject n 1
  else if d.coreBad n k || d.coreOf n k == k then d.exchReject n 3
  else if d.quar n then d.exchReject n 4
  else if d.sparePend n k then d.exchReject n 5
  else d.spareAsk n k k

def execSpareReturn (m : Master) (n : LoomId) (k : Fin 32) (s : State) : Out := lift s fun d => d.spareReturn m n.val k.val

def execMarkFailed (m : Master) (n : LoomId) (j : Fin 34) (s : State) : Out :=
  lift s fun d =>
    if !d.owns m (loomBlock n.val) then d.exchReject n.val 1
    else if d.quar n.val then d.exchReject n.val 4
    else d.coreFailed n.val j.val 2

def execTrimStoreError (n : LoomId) (j : Fin 34) (s : State) : Out := lift s fun d => d.coreFailed n.val j.val 1

/-! Commit and discard (R466 to R468). -/

/-- The block of calibration (R535). -/
def calBlock : Nat := 4

/-- The staged record of core `g` differs from the active one. -/
def Dev.coreChanged (d : Dev) (g : Nat) : Bool := (List.range 32).any fun i => coreGet d.cal.coreS g i != coreGet d.cal.coreA g i

/-- A loom that runs a burst keeps its path delays until its next vector boundary (R467). -/
def Dev.holdTrims (d : Dev) : Dev :=
  iter (fun n d => if d.patRunning n then d.modPat n fun p => { p with trims := some (p.trims.getD ⟨d.cal.coreA, d.cal.loomA, d.cal.deskA⟩) } else d) 24 d

/-- Every staged record becomes active in one step (R466, R467); `writer` 3 is the engine (R484). -/
def Dev.calApply (d : Dev) (writer : Nat) : Dev :=
  let d := d.holdTrims
  let d := iter (fun c d => if d.forcing c && d.coreChanged (34 * (c / 32) + d.coreOf (c / 32) (c % 32)) then d.unsettle c else d) 768 d
  let d := match d.cal.pendRef with
    | some (v, r) => (d.wr Reg.CAL_REF_V.v v.toNat).wr Reg.CAL_REF_R.r r.toNat
    | none => d
  let c := { d.cal with coreA := d.cal.coreS, loomA := d.cal.loomS, deskA := d.cal.deskS, pendRef := none }
  let d := { d with cal := { c with refV := BitVec.ofNat 32 (d.rd Reg.CAL_REF_V.v), refR := BitVec.ofNat 32 (d.rd Reg.CAL_REF_R.r) } }
  ((d.wr Reg.CAL_STATUS.staged_dirty 0).wr Reg.CAL_STATUS.hash_busy 1).logRec 0x1A (2048 * writer)

/-- FULL, LOAD or DUMP. -/
def Dev.calBusy (d : Dev) : Bool := d.calState == 1 || d.calState == 3 || d.calState == 4

def execCalCommit (m : Master) (s : State) : Out :=
  lift s fun d =>
    if !d.owns m calBlock then d.calReject 1
    else if d.calBusy then d.calReject 2
    else if !allCellsOk d.cal.coreS then d.calReject 5
    else d.calApply (masterCode m)

def execCalDiscard (m : Master) (s : State) : Out :=
  lift s fun d => if !d.owns m calBlock then d.calReject 1 else if d.calState ≠ 0 then d.calReject 2 else d.unstage

/-! Full calibration (R469 to R472). -/

/-- The cores of a full calibration that has been stopped go back to their ball pairs (R472). -/
def Dev.fullReturn (d : Dev) (n : Nat) : Dev :=
  match d.calWork n with
  | none => d
  | some w =>
    if w.rolling ∨ w.stage = 2 then d
    else if w.stage = 0 then
      if (d.box n).moving.any (·.why == 1) then d
      else (d.modBox n fun b => { b with exch := b.exch.filter (·.why != 1) }).setWork n none
    else match w.stand with
      | some (_, k) => (d.setWork n (some { w with stage := 2 })).askExch n ⟨k, w.j, 1⟩
      | none => d.cycleEnd n w false false

/-- A full calibration is stopped: its measurement is abandoned, and it ends once its cores are returned (R472). -/
def Dev.fullStop (d : Dev) : Dev :=
  if d.calState ≠ 1 then d
  else (if d.cal.stopping then d else iter (fun n d => d.fullReturn n) 24 { d with cal := { d.cal with stopping := true } }).stopSettle

/-- A stop (R472): rolling cycles complete without their commit (R477), and a full calibration that waits is not started. -/
def Dev.calStop (d : Dev) : Dev :=
  let work := d.cal.work.map fun e => (e.1, e.2.map fun w => if w.rolling then { w with skipCommit := true } else w)
  { d with cal := { d.cal with fullPend := none, work := work } }.fullStop

def execCalStop (_m : Master) (s : State) : Out := lift s fun d => d.calStop

/-- A full calibration is asked for (R469). -/
def Dev.calFull (d : Dev) (m : Master) : Dev :=
  if !d.owns m calBlock then d.calReject 1
  else if d.calBusy || d.cal.fullPend.isSome then d.calReject 2
  else if d.on Reg.CAL_STATUS.staged_dirty then d.calReject 3
  else if d.calState = 2 then { d with cal := { d.cal with fullPend := some m } }
  else d.fullStart m

/-- A full calibration and a stop in one step leave it unstarted; a full of a master that may not give one is refused beside
the stop, which any master may give (R469, R472, R486). -/
def execCalFull (m : Master) (stop : Bool) (s : State) : Out :=
  lift s fun d => if stop then (if d.owns m calBlock then d else d.calReject 1).calStop else d.calFull m

/-- V_REF is inside its bounds and within 0.1 % of `CAL_REF_V` (R460). -/
def Dev.refOk (d : Dev) (v : Nat) : Bool :=
  decide (490000000 ≤ v) && decide (v ≤ 510000000)
    && decide (1000 * (Int.ofNat v - Int.ofNat (d.rd Reg.CAL_REF_V.v)).natAbs ≤ d.rd Reg.CAL_REF_V.v)

/-- The core phase begins in every loom whose ladder passed (R470, R471). -/
def Dev.coresStart (d : Dev) : Dev :=
  iter (fun n d =>
    if d.cal.ladderBad.contains n then { d with cal := { d.cal with nextCore := Tab.set 0 d.cal.nextCore n 34 } }
    else if (d.calWork n).isSome then d
    else d.calNext n 35) 24 (d.wr Reg.CAL_STATUS.phase 3)

/-- The reference current in pA: the drop over R_REF, in units of 10 nV, by R_REF in mΩ, rounded to nearest (R458, R487). -/
def Dev.refCurrent (d : Dev) (drop : Nat) : Int := roundDiv (Int.ofNat drop * 10000000) (max (d.rd Reg.CAL_REF_R.r) 1)

/-- Ladder tap `i` reads inside ±0.5 % of its nominal voltage (R471). Of the tap at 0 V no fraction says anything. -/
def tapNear (i : Nat) (v : BitVec 24) : Bool :=
  i == 1 || decide (200 * (v.toInt - sext 24 (loomNom i).toNat).natAbs ≤ (sext 24 (loomNom i).toNat - zeroCode).natAbs)

/-- A loom's taps and its reference current read inside ±0.5 % of nominal (R471). -/
def Dev.ladderOk (d : Dev) (taps : List (BitVec 24)) (drop : Nat) : Bool :=
  (List.range 6).all (fun i => tapNear i (taps.getD i 0)) && decide ((d.refCurrent drop - 200000000).natAbs ≤ 1000000)

/-- A loom's ladder transfer ends (R470, R471): its taps, its reference current and its temperature are staged. -/
def Dev.ladderEnd (d : Dev) (n : Nat) (ok : Bool) (taps : List (BitVec 24)) (drop : Nat) : Dev :=
  let d :=
    if ok && d.ladderOk taps drop then
      let t := iter (fun i t => loomSet t n i ((taps.getD i 0).setWidth 32)) 6 d.cal.loomS
      let t := loomSet (loomSet t n 6 (BitVec.ofInt 32 (d.refCurrent drop))) n 10 (measured (d.tLoom n))
      { d with cal := { d.cal with loomS := t } }
    else
      ({ d with cal := { d.cal with ladderBad := d.cal.ladderBad ++ [n] } }.bump Reg.CAL_FAILS.looms).flag Reg.CAL_STATUS.fail
  if n < 23 then d.calShow (n + 1) 32 else d.wr Reg.CAL_STATUS.phase 2

/-- The timing phase ends (R470, R471). -/
def Dev.timingEnd (d : Dev) (ok : Bool) (offs lo hi : List (BitVec 32)) : Dev :=
  let d :=
    if ok then
      let t := iter (fun n t => if d.cal.ladderBad.contains n then t
        else loomSet (loomSet (loomSet t n 7 (offs.getD n 0)) n 8 (lo.getD n 0)) n 9 (hi.getD n 0)) 24 d.cal.loomS
      { d with cal := { d.cal with loomS := t } }
    else ({ d with cal := { d.cal with timingBad := true } }.flag Reg.CAL_STATUS.time_bad).flag Reg.CAL_STATUS.fail
  d.coresStart

/-- The core phase ends once every core has been measured: the commit (R470). -/
def Dev.coresEnd (d : Dev) : Dev :=
  if (List.range 24).all fun n => decide (34 ≤ Tab.get 0 d.cal.nextCore n) && (d.calWork n).isNone then
    if allCellsOk d.cal.coreS then ((d.calApply 3).wr Reg.CAL_STATUS.ladder_stale 0).fullEnd true false false
    else d.fullEnd false false false
  else d

/-- A phase of a full calibration ends (R470). -/
def Dev.phaseEnd (d : Dev) (r : PhaseRes) : Dev :=
  if d.calState ≠ 1 ∨ d.cal.stopping then d
  else match r with
    | .check v =>
      if d.calPhase ≠ 0 then d
      else if d.refOk v then (d.wr Reg.CAL_STATUS.phase 1).calShow 0 32
      else ((d.flag Reg.CAL_STATUS.fail).flag Reg.CAL_STATUS.ref_bad).fullEnd false true false
    | .ladder n ok taps drop => if d.calPhase ≠ 1 ∨ d.rd Reg.CAL_STATUS.loom ≠ n.val then d else d.ladderEnd n.val ok taps drop
    | .timing ok offs lo hi => if d.calPhase ≠ 2 then d else d.timingEnd ok offs lo hi
    | .cores => if d.calPhase ≠ 3 then d else d.coresEnd

def execCalPhaseComplete (r : PhaseRes) (s : State) : Out :=
  if phaseWf r then lift s fun d => d.phaseEnd r else .fault (.illFormed "CAL_PHASE_COMPLETE")

/-- A free spare has been calibrated first in the cycle of core `j` (R476): the cycle goes on with `j`, which a spare that is not
due now stands in for. Where none does, or where a stop has kept the spare's record from its commit, the cycle is abandoned. -/
def Dev.rollOn (d : Dev) (n : Nat) (w : CalCore) (j : Nat) (ok : Bool) : Dev :=
  let e := (d.setWork n none).offCalBus n w.j
  match if ok && !w.skipCommit && !(e.freeSpares n).head?.any (e.coreDue n) then e.calTake n j true none else none with
  | some e => e
  | none => d.cycleEnd n w false true

/-- The core on the bus of loom `n` has been measured (R463, R471, R477). -/
def Dev.coreMeasured (d : Dev) (n : Nat) (ok : Bool) (rec : List (BitVec 32)) : Dev :=
  match d.calWork n with
  | none => d
  | some w =>
    if w.stage ≠ 1 then d
    else
      let g := 34 * n + w.j
      let noTime := !w.rolling && d.cal.timingBad
      let new := fun i =>
        let old := coreGet d.cal.coreA g i
        if !ok then (if i = 31 then old ||| 0x20000 else old)
        else if i = 31 then measured (d.tLoom n)
        else if noTime && decide (27 ≤ i) then old
        else rec.getD i 0
      let d := { d with cal := { d.cal with coreS := coreFill d.cal.coreS g new } }
      let d := if ok then d.setBad n w.j false
               else ((if w.rolling then d else d.bump Reg.CAL_FAILS.cores).flag Reg.CAL_STATUS.fail).coreFailed n w.j 0
      let d :=
        if w.rolling && !w.skipCommit then
          let d := d.holdTrims
          ({ d with cal := { d.cal with coreA := coreFill d.cal.coreA g new } }.wr Reg.CAL_STATUS.hash_busy 1).logRec 0x1A (1 + 2 * g + 2048 * 3)
        else d
      match w.stand with
      | some (_, k) =>
        if ok then (d.setWork n (some { w with stage := 2 })).askExch n ⟨k, w.j, if w.rolling then 0 else 1⟩
        else d.cycleEnd n w true false
      | none => match w.after with
        | some j => d.rollOn n w j ok
        | none => d.cycleEnd n w (!ok) false

def execCoreCalibrationComplete (n : LoomId) (ok : Bool) (rec : List (BitVec 32)) (s : State) : Out :=
  if coreRecWf ok rec then lift s fun d => d.coreMeasured n.val ok rec else .fault (.illFormed "CORE_CALIBRATION_COMPLETE")

/-! Rolling calibration (R475 to R477). -/

def execCalRollEnable (m : Master) (v : Bool) (s : State) : Out :=
  lift s fun d => if d.on Reg.CAL_CTRL.roll_en = v then d else if v && !d.owns m calBlock then d.calReject 1 else d.wr Reg.CAL_CTRL.roll_en (b2n v)

/-- Core `a` goes before core `b` in a rolling cycle: a record that is not valid counts as the largest drift (R475). -/
def Dev.moreDue (d : Dev) (n a b : Nat) : Bool :=
  match d.calDrift n a, d.calDrift n b with
  | some x, some y => decide (y < x)
  | none, some _ => true
  | _, none => false

/-- The core of `l` to be rolled: the first of the most due. -/
def Dev.mostDue (d : Dev) (n : Nat) : List Nat → Option Nat
  | [] => none
  | j :: t => match d.mostDue n t with
    | some i => some (if d.moreDue n i j then i else j)
    | none => some j

/-- A rolling cycle starts in loom `n` (R475, R476). -/
def Dev.rollStart (d : Dev) (n : Nat) : Dev :=
  let early := (Tab.get none d.cal.lastCycle n).any fun t => decide (d.elapsed t < d.rd Reg.CAL_ROLL.gap * 1000000)
  if !d.on Reg.CAL_CTRL.roll_en || d.calBusy || d.cal.fullPend.isSome || d.on Reg.CAL_STATUS.staged_dirty || d.quar n
      || (d.calWork n).isSome || !bit (d.rd Reg.CAL_DUE.looms) n || early then d
  else
    let due := (List.range 34).filter (d.coreDue n)
    let spares := d.freeSpares n
    let serving := fun j => (d.ballOf n j).isSome
    let pick := match spares.head? with
      | none => (d.mostDue n (due.filter (!serving ·))).map fun j => (j, none)
      | some s => (d.mostDue n due).map fun j => if serving j && d.coreDue n s then (s, some j) else (j, none)
    let d := if spares.isEmpty && due.any serving then d.flag Reg.CAL_STATUS.blocked else d
    match pick.bind fun p => d.calTake n p.1 true p.2 with
    | none => d
    | some d => d.wr Reg.CAL_STATUS.state 2

def execRollingCycleStart (n : LoomId) (s : State) : Out := lift s fun d => d.rollStart n.val

/-! The time stamp (R461). -/

def execCalTimeArm (m : Master) (s : State) : Out :=
  lift s fun d =>
    if d.owns m calBlock then { d with cal := { d.cal with armed := true } }.wr Reg.CAL_STATUS.stamp_valid 0 else d.calReject 1

def execCalTimeEdge (t : Nat) (s : State) : Out :=
  lift s fun d =>
    let k := t / 10240 % 2 ^ 48
    if !d.comes k then d
    else
      let d := d.advanceTo k
      if d.cal.armed && reached k (d.rd Reg.CAL_TIME_ARM.arm) then
        ({ d with cal := { d.cal with armed := false } }.wr Reg.CAL_TIME_STAMP.stamp (t % tapSpan)).wr Reg.CAL_STATUS.stamp_valid 1
      else d

/-! The window (R465, R487). -/

/-- The slots that the window shows, by offset: area 0 core, 1 loom, 2 deskew, and the slot in it. -/
def calArea (off : Nat) : Option (Nat × Nat) :=
  if off % 4 ≠ 0 then none
  else if off < 0x100 then some (0, off / 4)
  else if off < 0x140 then some (1, (off - 0x100) / 4)
  else if 0x200 ≤ off ∧ off < 0xE00 then some (2, (off - 0x200) / 4)
  else none

/-- Reads a slot of the window for master `m`. -/
def Dev.calSlot (d : Dev) (m : Master) (area slot : Nat) : BitVec 32 :=
  let act := d.on (Reg.CAL_SEL.view (masterCode m))
  if area = 0 then coreGet (if act then d.cal.coreA else d.cal.coreS) (d.rd (Reg.CAL_SEL.core (masterCode m))) slot
  else if area = 1 then loomGet (if act then d.cal.loomA else d.cal.loomS) (d.rd (Reg.CAL_SEL.loom (masterCode m))) slot
  else Tab.get 0 (if act then d.cal.deskA else d.cal.deskS) slot

/-- An access to an unimplemented slot (R397). -/
def Dev.voidAccess (d : Dev) : Dev := (d.flag Reg.GLB_STATUS.void_access).evc 0x9B 24

/-- The engine has core `j` of loom `n` on the calibration bus: to be measured, or to be returned; in the check and the ladder
phase, spare core 32 of the loom that is worked (R460, R465, R470). -/
def Dev.busHolds (d : Dev) (n j : Nat) : Bool :=
  (d.calWork n).any (fun w => w.j == j && w.stage != 0)
    || (d.calState == 1 && !d.cal.stopping && decide (d.calPhase ≤ 1) && j == 32 && d.rd Reg.CAL_STATUS.loom == n)

/-- A write through the calibration window. -/
def Dev.calWindow (d : Dev) (m : Master) (off : Nat) (v : BitVec 32) : Dev :=
  match calArea off with
  | none => d.voidAccess
  | some (area, slot) =>
    let g := d.rd (Reg.CAL_SEL.core (masterCode m))
    let n := d.rd (Reg.CAL_SEL.loom (masterCode m))
    let w := if area = 0 then v &&& coreMask slot else if area = 1 then v &&& loomMask slot else v
    if d.on (Reg.CAL_SEL.view (masterCode m)) || w == d.calSlot m area slot then d
    else if !d.owns m calBlock then d.calReject 1
    else if area = 0 ∧ d.busHolds (g / 34) (g % 34) then d.calReject 2
    else
      let c := d.cal
      let c := if area = 0 then { c with coreS := coreSet c.coreS g slot w }
               else if area = 1 then { c with loomS := loomSet c.loomS n slot w }
               else { c with deskS := Tab.set 0 c.deskS slot w }
      { d with cal := c }.wr Reg.CAL_STATUS.staged_dirty 1

def execCalWindowWrite (m : Master) (off : BitVec 12) (v : BitVec 32) (s : State) : Out := lift s fun d => d.calWindow m off.toNat v

/-! The image and the hash (R480 to R483). -/

/-- Bytes and lines of an image. -/
def calImageBytes : Nat := 213568

/-- The slots of the records of an image, as bytes. -/
def calRecords (looms cores desk : Tab (BitVec 32)) : List Byte :=
  ((List.range 384).flatMap fun i => leBytes 4 (loomGet looms (i / 16) (i % 16)).toNat)
    ++ ((List.range 52224).flatMap fun i => leBytes 4 (coreGet cores (i / 64) (i % 64)).toNat)
    ++ (List.range 768).flatMap fun c => leBytes 4 (Tab.get 0 desk c).toNat

/-- Bytes 0 to 31 of the image of the active state. -/
def Dev.calHead (d : Dev) : List Byte :=
  leBytes 4 0x43414C31 ++ leBytes 2 1 ++ leBytes 6 Config.serial.toNat ++ leBytes 4 calImageBytes ++ leBytes 4 d.cal.refV.toNat
    ++ leBytes 4 d.cal.refR.toNat ++ leBytes 8 0

/-- The hash field of that image (R483). -/
def Dev.calHash (d : Dev) : List Byte := sha256 (d.calHead ++ calRecords d.cal.loomA d.cal.coreA d.cal.deskA)

def execCalHashReady (s : State) : Out :=
  lift s fun d =>
    if d.on Reg.CAL_STATUS.hash_busy then
      let h := d.calHash
      (iter (fun i d => d.wr (Reg.CAL_HASH.hash i) (leVal ((h.drop (4 * i)).take 4))) 8 d).wr Reg.CAL_STATUS.hash_busy 0
    else d

/-- A dump or a load begins: `st` is 3 or 4 (R481, R482). -/
def Dev.calMove (d : Dev) (m : Master) (st : Nat) : Dev :=
  if !d.owns m calBlock then d.calReject 1 else if d.calState ≠ 0 then d.calReject 2 else d.wr Reg.CAL_STATUS.state st

def execCalDump (m : Master) (s : State) : Out := lift s fun d => d.calMove m 3

def execCalLoad (m : Master) (s : State) : Out := lift s fun d => d.calMove m 4

def execCalDumpComplete (s : State) : Out :=
  lift s fun d =>
    if d.calState ≠ 3 then d
    else d.accessing (some .coreShuttle) .calDumpComplete fun d =>
      let d := d.passing .coreShuttle (linesOf 0 calImageBytes)
      let bs := d.calHead ++ d.calHash ++ calRecords d.cal.loomA d.cal.coreA d.cal.deskA
      (((d.writeBytes .core (64 * d.rd Reg.CAL_IMG.line) (bs.map some)).1).wr Reg.CAL_STATUS.state 0).flag Reg.CAL_STATUS.done

/-- The records of a table that `n` slots of an image give. -/
def slotsOf (set : Tab (BitVec 32) → Nat → BitVec 32 → Tab (BitVec 32)) (b : List Byte) (n : Nat) : Tab (BitVec 32) :=
  iter (fun i t => set t i (BitVec.ofNat 32 (leVal ((b.drop (4 * i)).take 4)))) n []

/-- The checks of R482 in order: the first that fails, or the tables of the records. Where a line cannot be read, or lies past
the Granary, nothing can be judged that needs it (DEDUCED): checks 1 to 3 need the first line, `head`, and 4 and 5 all. -/
def Dev.calCheck (b : List Byte) (head readable below : Bool) : Except Nat (Tab (BitVec 32) × Tab (BitVec 32) × Tab (BitVec 32)) :=
  let at_ := fun o n => leVal ((b.drop o).take n)
  if !head then .error 6
  else if at_ 0 4 ≠ 0x43414C31 ∨ at_ 4 2 ≠ 1 then .error 1
  else if at_ 6 6 ≠ Config.serial.toNat then .error 2
  else if at_ 12 4 ≠ calImageBytes then .error 3
  else if !readable then .error 6
  else if !below then .error 7
  else if sha256 (b.take 32 ++ b.drop 64) ≠ (b.drop 32).take 32 then .error 4
  else
    let looms := slotsOf (fun t i v => loomSet t (i / 16) (i % 16) v) (b.drop 64) 384
    let cores := slotsOf (fun t i v => coreSet t (i / 64) (i % 64) v) (b.drop 1600) 52224
    let desk := slotsOf (fun t i v => Tab.set 0 t i v) (b.drop 210496) 768
    if at_ 24 8 ≠ 0 ∨ !allCellsOk cores ∨ calRecords looms cores desk ≠ b.drop 64 then .error 5
    else .ok (looms, cores, desk)

/-- A load ends (R482, R484). -/
def Dev.calLoaded (d : Dev) : Dev :=
  if d.calState ≠ 4 then d
  else
    let d := d.passing .coreShuttle (linesOf 0 calImageBytes)
    let a := 64 * d.rd Reg.CAL_IMG.line
    let n := min calImageBytes (granSize - a)
    let r := d.touchAll .core (a / 32) (fun _ => .good) (halves a n)
    let b := r.1.bytesAt a calImageBytes
    let d := (r.1.wr Reg.CAL_STATUS.state 0).flag Reg.CAL_STATUS.done
    match Dev.calCheck b (d.ecc (a / 32) != .uncorr) r.2 (n == calImageBytes) with
    | .error c => ((d.wr Reg.CAL_IMG.load_code c).flag Reg.CAL_STATUS.load_reject).logRec 0x1C c
    | .ok (looms, cores, desk) =>
      let w := fun o => BitVec.ofNat 32 (leVal ((b.drop o).take 4))
      ({ d with cal := { d.cal with loomS := looms, coreS := cores, deskS := desk, pendRef := some (w 16, w 20) } }.wr
        Reg.CAL_STATUS.staged_dirty 1).logRec 0x1C 0

def execCalLoadComplete (s : State) : Out :=
  lift s fun d => d.accessing (if d.calState = 4 then some .coreShuttle else none) .calLoadComplete (·.calLoaded)

end Sys2Proof.Machine
end

