-- ==== Sys2Proof/Machine/Dma.lean ====
section
/-! DEFINITION. The DMA engines (R404 to R412). -/
namespace Sys2Proof.Machine
open Sys2Proof

def Dev.dma (d : Dev) (i : Nat) : Dma := Tab.get {} d.dmas i
def Dev.setDma (d : Dev) (i : Nat) (x : Dma) : Dev := { d with dmas := Tab.set {} d.dmas i x }
def Dev.modDma (d : Dev) (i : Nat) (f : Dma → Dma) : Dev := d.setDma i (f (d.dma i))

/-- The DMA block (R535). -/
def dmaBlock : Nat := 2

/-! The descriptor (R405, R407). -/

structure DmaDesc where
  host : Nat
  gran : Nat
  len : Nat
  toHost : Bool
  irq : Bool
  fill : Bool
  noSnoop : Bool
  pattern : Nat
  rsv : Bool
  deriving DecidableEq, Repr

/-- A descriptor from its 32 bytes. -/
def dmaDescOf (v : Nat) : DmaDesc :=
  { host := bits v 0 64, gran := bits v 64 33, len := bits v 128 32, toHost := bit v 160, irq := bit v 161, fill := bit v 162, noSnoop := bit v 163, pattern := bits v 192 32,
    rsv := bits v 97 31 != 0 || bits v 164 28 != 0 || (!bit v 162 && bits v 192 32 != 0) }

/-- A descriptor that R407 refuses. -/
def DmaDesc.refused (e : DmaDesc) : Bool :=
  e.rsv || e.len == 0 || decide (granSize < e.gran + e.len) || (!e.fill && decide (2 ^ 64 < e.host + e.len)) || (e.fill && e.toHost)

/-- The number of ring entries, and those posted (R406). -/
def Dev.dmaSize (d : Dev) (i : Nat) : Nat := 2 ^ d.rd (Reg.DMA.RING_CFG.size_log2 i)
def Dev.dmaPosted (d : Dev) (i : Nat) : Nat :=
  (d.rd (Reg.DMA.TAIL.tail i) + d.dmaSize i - d.rd (Reg.DMA.HEAD.head i) % d.dmaSize i) % d.dmaSize i
/-- The bytes done of the descriptor at HEAD. -/
def Dev.dmaDone (d : Dev) (i : Nat) : Nat := if (d.dma i).stale then 0 else d.rd (Reg.DMA.PROGRESS.bytes i)
/-- Requests to the host may leave (R390). -/
def Pcie.master (p : Pcie) : Bool := p.bme && !p.d3
/-- The address of ring entry `k`, in host memory or in the Granary. -/
def Dev.dmaEntry (d : Dev) (i k : Nat) : Nat := d.rd (Reg.DMA.RING.ring i) + 32 * k
def Dev.dmaLocal (d : Dev) (i : Nat) : Bool := d.on (Reg.DMA.RING_CFG.loc i)

/-! Ends (R408, R409). -/

/-- The engine ends a descriptor in error: its enable bit is cleared, a drain that finds no descriptor in progress (R409). -/
def Dev.dmaError (d : Dev) (i code : Nat) : Dev :=
  let d := (d.wr (Reg.DMA.CTRL_STAT.last_code i) code).flag (Reg.DMA.CTRL_STAT.error i)
  let park := fun (d : Dev) => d.modDma i fun x => { x with parked := true }
  if d.unit (kDma i) = .on then (park d).setUnit (kDma i) .draining else if d.unit (kDma i) = .draining then park d else d

/-- Line accesses for the `n` bytes from `a`, with the engine's own credits (R404). -/
def Dev.dmaPass (d : Dev) (i : Fin 8) (a n : Nat) : Dev := d.passing (.dma i) (linesOf a n)

/-- The fetch of the descriptor at HEAD failed (code 7): no status, and HEAD stays. -/
def Dev.dmaFetchEnd (d : Dev) (i : Nat) : Dev :=
  match (d.dma i).fetched with
  | none :: _ => (d.modDma i fun x => { x with fetched := [] }).dmaError i 7
  | _ => d

/-- The status of the descriptor at HEAD is written (R405, R408). -/
def Dev.dmaStatus (d : Dev) (i code : Nat) : Dev :=
  let a := d.dmaEntry i (d.rd (Reg.DMA.HEAD.head i)) + 28
  let bs := leBytes 4 (1 + 2 * code)
  if d.dmaLocal i then (d.writeBytes ⟨3, i⟩ (a % granSize) (bs.map some)).1
  else d.modDma i fun x => { x with posted := (List.range 4).map fun j => (a + j, bs.getD j 0) }

/-- HEAD moves on to the next descriptor. -/
def Dev.dmaHead (d : Dev) (i : Nat) : Dev :=
  (d.wr (Reg.DMA.HEAD.head i) ((d.rd (Reg.DMA.HEAD.head i) + 1) % d.dmaSize i)).modDma i fun x => { x with fetched := x.fetched.drop 1, code := none }

/-- The descriptor at HEAD completes with a code (R408, R409). -/
def Dev.dmaFinish (d : Dev) (i code : Nat) (irq : Bool) : Dev :=
  let prog := d.dmaDone i
  let d := ((d.dmaStatus i code).dmaHead i).evc 0x88 24
  let d := d.wr (Reg.DMA.PROGRESS.bytes i) (if code = 0 then 0 else prog)
  let d := d.modDma i fun x => { x with stale := code != 0 }
  let d := if irq then d.flag (Reg.DMA.CTRL_STAT.done i) else d
  (if code = 0 then d.wr (Reg.DMA.CTRL_STAT.last_code i) 0 else d.dmaError i code).dmaFetchEnd i

/-! Data (R404, R409, R410). -/

/-- The bytes that a drain lets the engine still move: to the next multiple of 4,096, or to the end (R410). -/
def DmaDesc.toBoundary (e : DmaDesc) (prog : Nat) : Nat :=
  min (e.len - prog) ((4096 - (e.gran + prog) % 4096) % 4096)

/-- The bytes that the engine may move now. -/
def Dev.dmaRoom (d : Dev) (i : Nat) (e : DmaDesc) : Nat :=
  if d.unit (kDma i) = .on then e.len - d.dmaDone i
  else if d.unit (kDma i) = .draining && !(d.dma i).parked then e.toBoundary (d.dmaDone i)
  else 0

/-- Progress moves from `p` by `k` bytes; each 64 bytes moved are counted (R559). -/
def Dev.dmaMoved (d : Dev) (i p k : Nat) : Dev :=
  ((d.wr (Reg.DMA.PROGRESS.bytes i) (p + k)).modDma i fun x => { x with stale := false }).evcBy 0x89 24 ((p + k) / 64 - p / 64)

/-- The descriptor's data ends with an error at Granary line `line`. -/
def Dev.dmaStop (d : Dev) (i code line : Nat) : Dev :=
  (d.wr (Reg.DMA.ERR_ADDR.line i) line).modDma i fun x => { x with code := some code }

/-- Writes bytes to the Granary half by half, up to a half that the merge cannot read (R381, R409 code 4). -/
def Dev.dmaWrite (d : Dev) (i a : Nat) (bs : List Byte) (p : Nat) : Dev :=
  let hs := List.range (halves a bs.length)
  let part := fun k => halfPart a (bs.map some) (a / 32 + k)
  let r := hs.foldl (fun (r : Dev × Option Nat) k =>
    match r.2 with
    | some _ => r
    | none =>
      let q := r.1.writeHalf ⟨3, i⟩ (a / 32 + k) .good (part k)
      (q.1, if q.2 then none else some (a / 32 + k))) (d, none)
  match r.2 with
  | none => r.1.dmaMoved i p bs.length
  | some h => (r.1.dmaMoved i p (32 * h - a)).dmaStop i 4 (h / 2)

/-- Reads bytes for the host line by line, up to a line that is uncorrectable (R409 code 2). -/
def Dev.dmaRead (d : Dev) (i a n : Nat) (host p : Nat) : Dev :=
  let r := (List.range ((a + n - 1) / 64 - a / 64 + 1)).foldl (fun (r : Dev × Option Nat) k =>
    match r.2 with
    | some _ => r
    | none =>
      let l := a / 64 + k
      let lo := max a (64 * l)
      let hi := min (a + n) (64 * l + 64)
      let q := r.1.touchAll ⟨3, i⟩ (lo / 32) (fun _ => .good) (halves lo (hi - lo))
      (q.1, if q.2 then none else some l)) (d, none)
  let k := match r.2 with | none => n | some l => 64 * l - a
  let bs := r.1.bytesAt a k
  let d := (r.1.modDma i fun x => { x with posted := (List.range k).map fun j => (host + j, bs.getD j 0) }).dmaMoved i p k
  match r.2 with
  | none => d
  | some l => d.dmaStop i 2 l

/-- The bytes of a fill at Granary address `a` (R405). -/
def fillBytes (pattern a n : Nat) : List Byte := (List.range n).map fun j => BitVec.ofNat 8 (bits pattern (8 * ((a + j) % 4)) 8)

/-- The descriptor in progress, where its data still moves. -/
def Dev.dmaLive (d : Dev) (i : Nat) : Option DmaDesc :=
  if (d.dma i).code.isSome then none
  else match (d.dma i).fetched with
    | some v :: _ => let e := dmaDescOf v.toNat; if e.refused then none else some e
    | _ => none

/-- What the host side answers, or a fill does, moves data of the descriptor (R390: nothing moves while requests may not leave). -/
def Dev.dmaMoves (d : Dev) (i : Nat) (r : HostCpl) : Bool :=
  d.pcie.master && (match d.dmaLive i with
    | none => false
    | some e => decide (0 < d.dmaRoom i e) && (match r with
      | .data _ => !e.toHost && !e.fill
      | .sent n => (e.toHost || e.fill) && decide (0 < n)
      | _ => false))

/-- The host side answers, or a fill has gone on by so many bytes. -/
def Dev.dmaHost (d : Dev) (j : Fin 8) (r : HostCpl) : Dev :=
  let i := j.val
  match d.dmaLive i with
  | none => d
  | some e =>
    let p := d.dmaDone i
    let room := d.dmaRoom i e
    if room = 0 ∨ !d.pcie.master then d
    else
      let d := if e.fill then d else d.modDma i fun x => { x with noSnoop := e.noSnoop }
      match r with
      | .data bs =>
        if e.toHost || e.fill then d
        else (d.dmaPass j (e.gran + p) (min bs.length room)).dmaWrite i (e.gran + p) (bs.take room) p
      | .sent n =>
        let k := min n room
        let d1 := d.dmaPass j (e.gran + p) k
        if k = 0 then d
        else if e.fill then d1.dmaWrite i (e.gran + p) (fillBytes e.pattern (e.gran + p) k) p
        else if e.toHost then d1.dmaRead i (e.gran + p) k (e.host + p) p
        else d
      | .fail => if e.fill then d else (d.modDma i fun x => { x with code := some 1 }).dmaMoved i p 0
      | .poison => if e.fill || e.toHost then d else (d.modDma i fun x => { x with code := some 6 }).dmaMoved i p 0

def execDmaHostCompletion (i : Fin 8) (r : HostCpl) (s : State) : Out := lift s fun d =>
    d.accessing (if d.dmaMoves i r then some (.dma i) else none) (.dmaHostCompletion i r) (·.dmaHost i r)

/-- The engine fetches its next descriptor now (R390, R406). -/
def Dev.dmaFetches (d : Dev) (i : Nat) : Bool :=
  let k := (d.dma i).fetched.length
  d.unit (kDma i) == .on && decide (k < 9) && decide (k < d.dmaPosted i) && d.pcie.master && !(d.dma i).fetched.any (·.isNone)

/-- The engine fetches the next posted descriptor, up to eight ahead of the one in progress (R406). From a ring in the
Granary it reads what the Granary holds. -/
def Dev.dmaFetch (d : Dev) (j : Fin 8) (ok : Bool) (bytes : BitVec 256) : Dev :=
  let i := j.val
  let k := (d.dma i).fetched.length
  if !d.dmaFetches i then d
  else
    let a := d.dmaEntry i ((d.rd (Reg.DMA.HEAD.head i) + k) % d.dmaSize i) % granSize
    let r := if d.dmaLocal i then
        let q := (d.dmaPass j a 32).touchAll ⟨3, i⟩ (a / 32) (fun _ => if ok then .good else .uncorr) 1
        (q.1, if q.2 then some (BitVec.ofNat 256 (leVal (q.1.bytesAt a 32))) else none)
      else (d, if ok then some bytes else none)
    (r.1.modDma i fun x => { x with fetched := x.fetched ++ [r.2] }).dmaFetchEnd i

def execDmaDescriptorFetched (i : Fin 8) (ok : Bool) (bytes : BitVec 256) (s : State) : Out := lift s fun d =>
    d.accessing (if d.dmaFetches i && d.dmaLocal i then some (.dma i) else none) (.dmaDescriptorFetched i ok bytes) (·.dmaFetch i ok bytes)

/-- The descriptor at HEAD ends now, and writes the Granary: its status into a local ring, or the rest of a fill. -/
def Dev.dmaEnds (d : Dev) (i : Nat) : Bool :=
  d.pcie.master && (match (d.dma i).fetched with
    | some v :: _ =>
      let e := dmaDescOf v.toNat
      ((d.dma i).code.isSome || d.unit (kDma i) == .on) && (d.dmaLocal i || (e.fill && !e.refused && decide (d.dmaDone i < e.len)))
    | _ => false)

/-- The descriptor at HEAD is complete, refused, or has ended in error (R408, R409); the rest of a fill is written with it. -/
def Dev.dmaComplete (d : Dev) (j : Fin 8) : Dev :=
  let i := j.val
  match (d.dma i).fetched with
  | some v :: _ =>
    let e := dmaDescOf v.toNat
    if !d.pcie.master then d
    else
      let d := if d.dmaLocal i then d.dmaPass j (d.dmaEntry i (d.rd (Reg.DMA.HEAD.head i))) 32 else d
      match (d.dma i).code with
      | some k => d.dmaFinish i k e.irq
      | none =>
        if d.unit (kDma i) ≠ .on then d
        else if e.refused then (d.wr (Reg.DMA.PROGRESS.bytes i) 0).dmaFinish i 3 e.irq
        else
          let p := d.dmaDone i
          let d :=
            if e.fill && decide (p < e.len) then
              (d.dmaPass j (e.gran + p) (e.len - p)).dmaWrite i (e.gran + p) (fillBytes e.pattern (e.gran + p) (e.len - p)) p
            else d
          match (d.dma i).code with
          | some k => d.dmaFinish i k e.irq
          | none => if d.dmaDone i = e.len then d.dmaFinish i 0 e.irq else d
  | _ => d

def execDmaDescriptorComplete (i : Fin 8) (s : State) : Out := lift s fun d =>
    d.accessing (if d.dmaEnds i then some (.dma i) else none) (.dmaDescriptorComplete i) (·.dmaComplete i)

/-! Commands (R410, R411). -/

def execDmaTailWrite (m : Master) (i : Fin 8) (v : BitVec 32) (s : State) : Out :=
  lift s fun d =>
    let f := Reg.DMA.TAIL.tail i.val
    let t := v.toNat % 2 ^ 16
    if t = d.rd f then d
    else if !d.owns m dmaBlock then d.rejectWith (Reg.DMA.CTRL_STAT.tail_reject i.val) true
    else if d.dmaSize i.val ≤ t then d.rejectWith (Reg.DMA.CTRL_STAT.tail_reject i.val) false
    else d.wr f t

/-- The descriptor at HEAD is abandoned: its status has code 5, and HEAD moves on (R410). -/
def Dev.dmaAbandon (d : Dev) (j : Fin 8) : Dev :=
  let i := j.val
  let d := if d.dmaLocal i then d.dmaPass j (d.dmaEntry i (d.rd (Reg.DMA.HEAD.head i))) 32 else d
  (((d.dmaStatus i 5).dmaHead i).wr (Reg.DMA.PROGRESS.bytes i) 0 |>.wr (Reg.DMA.CTRL_STAT.last_code i) 5).modDma i fun x => { x with stale := false }

/-- A skip: it is judged, and waits where its status cannot be written yet (R33, R377, R390, R410, R411). -/
def Dev.dmaSkip (d : Dev) (m : Master) (j : Fin 8) : Dev :=
  let i := j.val
  if !d.owns m dmaBlock then d.rejectWith (Reg.DMA.CTRL_STAT.cmd_reject i) true
  else if d.unit (kDma i) ≠ .off ∨ d.dmaPosted i = 0 then d.rejectWith (Reg.DMA.CTRL_STAT.cmd_reject i) false
  else if !d.pcie.master then d.modDma i fun x => { x with skips := x.skips ++ [m] }
  else d.accessing (if d.dmaLocal i then some (.dma j) else none) (.dmaSkip m j) (·.dmaAbandon j)

def execDmaSkip (m : Master) (j : Fin 8) (s : State) : Out := lift s fun d => d.dmaSkip m j

/-- The skips that waited for requests to the host are made (R390). -/
def Dev.dmaSkips (d : Dev) : Dev :=
  iter (fun i d =>
    let ms := (d.dma i).skips
    if h : i < 8 then ms.foldl (fun d m => d.dmaSkip m ⟨i, h⟩) (d.modDma i fun x => { x with skips := [] }) else d) 8 d

def execDmaResetRing (m : Master) (i : Fin 8) (s : State) : Out :=
  lift s fun d =>
    let i := i.val
    if !d.owns m dmaBlock then d.rejectWith (Reg.DMA.CTRL_STAT.cfg_reject i) true
    else if d.unit (kDma i) ≠ .off then d.rejectWith (Reg.DMA.CTRL_STAT.cfg_reject i) false
    else
      (((d.wr (Reg.DMA.HEAD.head i) 0).wr (Reg.DMA.TAIL.tail i) 0).wr (Reg.DMA.PROGRESS.bytes i) 0).modDma i fun x =>
        { x with fetched := [], code := none, stale := false }

/-- Whether a drain has reached its end: nothing in progress, or a boundary of R410, and no error left to report. -/
def Dev.dmaQuiet (d : Dev) (i : Nat) : Bool :=
  (d.dma i).code.isNone && ((d.dma i).parked || match d.dmaLive i with | some e => e.toBoundary (d.dmaDone i) == 0 | none => true)

/-- R389: the requests in flight are abandoned; a descriptor in progress, one on which the engine has not parked, ends with code 1
and no status write. -/
def Dev.dmaPcieReset (d : Dev) (i : Nat) : Dev :=
  let busy := !(d.dma i).parked && (d.dma i).fetched.any (·.isSome)
  let d := if busy then (d.wr (Reg.DMA.CTRL_STAT.last_code i) 1).flag (Reg.DMA.CTRL_STAT.error i) else d
  let d := if d.unit (kDma i) = .on then d.setUnit (kDma i) .draining else d
  let d := if busy || (d.dma i).stale then d else d.wr (Reg.DMA.PROGRESS.bytes i) 0
  let d := d.modDma i fun x => { x with fetched := [], code := none, stale := x.stale || busy, parked := x.parked || busy, skips := [] }
  ([Reg.DMA.RING.ring i, Reg.DMA.RING_CFG.size_log2 i, Reg.DMA.RING_CFG.loc i, Reg.DMA.TAIL.tail i, Reg.DMA.HEAD.head i]).foldl (fun d f => d.wr f f.rst) d

end Sys2Proof.Machine
end

