-- ==== Sys2Proof/Machine/Selvedge.lean ====
section
/-! DEFINITION. The selvedge: periods, pin codes, starvation, jumps and the end of play (R215 to R234, R252, R260 to R265). -/
namespace Sys2Proof.Machine
open Sys2Proof

/-- Code of pin `k` in a vector (R216). -/
def pinCode (v : BitVec 144) (k : Nat) : Nat := bits v.toNat (4 * k) 4
/-- The header fields of a vector (R217). -/
def vecSet (v : BitVec 144) : Nat := bits v.toNat 128 5
def vecRepeat (v : BitVec 144) : Nat := bits v.toNat 133 8
def vecFlag (v : BitVec 144) (i : Nat) : Bool := bit v.toNat (141 + i)
def vecCmpLast (v : BitVec 144) : Bool := bit v.toNat 143

/-- Whether the selvedge drives and judges pin `k` of loom `n` (R216, R225). -/
def Dev.pinUsable (d : Dev) (n k : Nat) : Bool := d.patUsable (32 * n + k)

/-! Tapestry pixel bits at the pins (R226, R357 to R359). -/

def Dev.rast (d : Dev) (o : Nat) : Rast := Tab.get {} d.rasts o
def Dev.modRast (d : Dev) (o : Nat) (f : Rast → Rast) : Dev := { d with rasts := Tab.set {} d.rasts o (f (d.rast o)) }

/-- The map byte of pin `k` in output `o` (R357). -/
def Dev.pinMap (d : Dev) (o k : Nat) : Nat := bits (d.rd (Reg.TAP.PINMAP.map o (k / 4))) (8 * (k % 4)) 8

/-- Output `o` serves DP on pin `k` of loom `n`: it is ON, or DRAINING and slots attached before
its drain point remain (R358, R360, R372). -/
def Dev.tapMaps (d : Dev) (o n k : Nat) : Bool :=
  (d.unit (kTap o) == .on || (d.unit (kTap o) == .draining && !((d.rast o).drained && (d.rast o).bits.isEmpty))) && d.rd (Reg.TAP.CFG.loom o) == n && bit (d.pinMap o k) 6

/-- The outputs that a vector advances (R359). -/
def Dev.dpOutputs (d : Dev) (n : Nat) (v : BitVec 144) : List Nat :=
  [0, 1].filter fun o => (List.range 32).any fun k => pinCode v k == 14 && d.tapMaps o n k

/-- A pin left driving by a drained unit holds its level, and ramps to VT (R55). -/
def Dev.rampPin (d : Dev) (c : Nat) : Dev :=
  let x := d.chan c
  if x.ramp = .none ∧ (x.drv = .low ∨ x.drv = .high) then (d.setChan c { x with ramp := .pattern }).unsettle c else d

/-- The pins of loom `n` ramp (R54, R55). -/
def Dev.rampPins (d : Dev) (n : Nat) (p : Nat → Bool) : Dev :=
  (List.range 32).foldl (fun (d : Dev) k => if p k then d.rampPin (32 * n + k) else d) d

/-- The period of the vector that took the last slot of a drained output is over: its pins, which hold the level of a DP still, ramp
(R372). -/
def Dev.tapLast (d : Dev) (o : Nat) : Dev :=
  if d.unit (kTap o) == .draining && (d.rast o).drained && (d.rast o).bits.isEmpty && !(d.rast o).ramped then
    let n := d.rd (Reg.TAP.CFG.loom o)
    let holds := fun k => match (d.pat n).burst with
      | some b => b.played == 0 || b.ended.isSome || pinCode b.vec k == 14 || pinCode b.vec k == 3
      | none => true
    (d.rampPins n fun k => bit (d.pinMap o k) 6 && holds k).modRast o fun r => { r with ramped := true }
  else d

/-- The outputs of loom `n` that have given their last slot away. -/
def Dev.tapLasts (d : Dev) (n : Nat) : Dev :=
  [0, 1].foldl (fun (d : Dev) o => if d.rd (Reg.TAP.CFG.loom o) = n then d.tapLast o else d) d

/-- The pixel bits that the attached slots give the pins of a vector. -/
def Dev.dpAttached (d : Dev) (n : Nat) (v : BitVec 144) : Nat :=
  maskTo (fun k => pinCode v k == 14 && [0, 1].any fun o => d.tapMaps o n k && ((d.rast o).bits.headD 0).getLsbD k) 32

/-! Driving (R220 to R224, R3). -/

/-- R3 bars the double-rate codes of a vector. -/
def dr08Bars (t : Tab (BitVec 32)) (v : BitVec 144) : Bool :=
  Config.grade == 8 && decide (tsPeriod t (vecSet v) < 2560) && (List.range 32).any fun k => decide (8 ≤ pinCode v k ∧ pinCode v k < 12)

/-- The edges that a code places on a pin in a period of set `set`, with their times from its start (R220 to R224). E0 turns the
driver on or off, E1 gives the data, E2 what the format says or the second bit. `b`: the Twill or pixel bit; `mapped`: an
output serves a DP; `bars`: R3 bars the double-rate codes. -/
def pinEdges (t : Tab (BitVec 32)) (set k code : Nat) (bars b mapped : Bool) : List (Nat × PinEdge) :=
  let e (j : Nat) : Nat := taps (tsPin t set k j)
  let fmt := (tsPin t set k 5).toNat
  let data (h : Bool) : List (Nat × PinEdge) := [(e 0, .enable), (e 1, .level h)] ++
    (match fmt % 4 with
      | 0 => []
      | 1 => [(e 2, .level false)]
      | 2 => [(e 2, .level true)]
      | _ => [(e 2, .disable true)])
  let pair := decide (8 ≤ code ∧ code < 12)
  if code < 2 then data (code == 1)
  else if code = 13 ∨ (code = 14 ∧ mapped) then data b
  else if code = 3 then []
  else if pair && !bars then [(e 0, .enable), (e 1, .level (bit code 1)), (e 2, .level (bit code 0))]
  else [(e 0, .disable (pair || code == 2 || code == 14 || bit fmt 2))]

/-- A driver that is on, at a level. -/
def drives (h : Bool) : Drive := if h then .high else .low

/-- The driver and the level driven last after an edge (R220, R221, R223). -/
def PinEdge.on : PinEdge → Drive × Bool → Drive × Bool
  | .enable, (v, h) => if v = .low ∨ v = .high then (v, h) else (drives h, h)
  | .disable term, (_, h) => (if term then .off else .highZ, h)
  | .level x, (v, h) => if v = .low ∨ v = .high then (drives x, x) else (v, h)

/-- An edge takes its place among edges in the order of time, before those of the same instant. -/
def putEdge (x : Nat × PinEdge) : List (Nat × PinEdge) → List (Nat × PinEdge)
  | [] => [x]
  | y :: t => if x.1 ≤ y.1 then x :: y :: t else y :: putEdge x t

/-- A pin through one period of length `per`: its edges and those carried into it act in the order of time, and those beyond
its end are carried on (R229, R238). -/
def Chan.playPin (x : Chan) (per : Nat) (es : List (Nat × PinEdge)) : Chan :=
  let all := x.carry.foldr putEdge es
  let r := (all.filter fun e => decide (e.1 < per)).foldl (fun (r : (Drive × Bool) × List (Nat × Drive)) e =>
    let v := e.2.on r.1
    (v, r.2 ++ [(e.1, v.1)])) ((x.drv, x.lastHigh), [])
  { x with drv := r.1.1, lastHigh := r.1.2, wave := r.2, carry := (all.filter fun e => decide (per ≤ e.1)).map fun e => (e.1 - per, e.2) }

/-- The pins of loom `n` through one period of vector `b.vec`. A DP lets a ramp of its pin go on (R372); any other code ends it. -/
def Dev.drivePins (d : Dev) (n : Nat) (b : Burst) : Dev :=
  let t := (d.pat n).active
  let set := vecSet b.vec
  let bars := dr08Bars t b.vec
  (List.range 32).foldl (fun (d : Dev) k =>
    let c := 32 * n + k
    let code := pinCode b.vec k
    if d.pinUsable n k then
      if (d.chan c).ramp = .pattern ∧ code = 14 then d
      else d.modChan c fun x => { x with ramp := .none }.playPin (tsPeriod t set)
        (pinEdges t set k code bars (if code = 13 then b.twBits.getLsbD k else b.dpBits.getLsbD k) (b.dpOn.getLsbD k))
    else d.modChan c fun x => { x with drv := .off, carry := [], wave := [] }) d

/-- No edge of a period played is placed any more: in a hold period, and after the end of play (R238, R265). -/
def Dev.holdPins (d : Dev) (n : Nat) : Dev :=
  (List.range 32).foldl (fun (d : Dev) k =>
    if (d.chan (32 * n + k)).carry = [] then d else d.modChan (32 * n + k) fun x => { x with carry := [] }) d

/-- The strobes of one period: each moved where R234 says. Answers the closes, and the number moved. -/
def strobeCloses (now : Nat) (t : Tab (BitVec 32)) (set : Nat) (judged : Nat → Bool) (last : Tab Nat) : Tab Nat × Nat :=
  (List.range 32).foldl (fun r k =>
    if judged k then
      let at_ := now + taps (tsPin t set k 3)
      let prev := Tab.get 0 r.1 k
      let at' := if prev ≠ 0 ∧ at_ < prev + halfMin then prev + halfMin else at_
      (Tab.set 0 r.1 k (at' + taps (tsPin t set k 4)), if at' = at_ then r.2 else r.2 + 1)
    else r) (last, 0)

/-- The strobes that a period of vector `b.vec` schedules (R220, R225, R232); `close` gives when the judged pins close. -/
def Dev.schedOf (d : Dev) (n : Nat) (b : Burst) (seg : Nat) (close : Tab Nat) : Sched :=
  let cmp := !vecCmpLast b.vec || b.rep == vecRepeat b.vec
  let code (k : Nat) : Nat := pinCode b.vec k
  let mask (p : Nat → Bool) : BitVec 32 := BitVec.ofNat 32 (maskTo p 32)
  { idx := b.idx, seg := seg, pass := b.pass, rep := b.rep,
    cl := mask fun k => cmp && d.pinUsable n k && (code k == 4 || (code k == 12 && !b.twBits.getLsbD k)),
    ch := mask fun k => cmp && d.pinUsable n k && (code k == 5 || (code k == 12 && b.twBits.getLsbD k)),
    cm := mask fun k => cmp && d.pinUsable n k && code k == 6,
    bad := mask fun k => cmp && !d.pinUsable n k && (code k == 4 || code k == 5 || code k == 6 || code k == 12),
    lg := mask fun k => code k == 15,
    lgOff := mask fun k => code k == 15 && !d.pinUsable n k,
    win := mask fun k => taps (tsPin (d.pat n).active (vecSet b.vec) k 4) != 0,
    span := (List.range 32).foldl (fun (t : Tab (Nat × Nat)) k =>
      let at_ := (d.pat n).now + taps (tsPin (d.pat n).active (vecSet b.vec) k 3)
      let c := Tab.get 0 close k
      if code k = 15 then Tab.set (0, 0) t k (at_ % tapSpan, at_ % tapSpan)
      else if 4 ≤ code k ∧ code k ≤ 12 then Tab.set (0, 0) t k ((c - taps (tsPin (d.pat n).active (vecSet b.vec) k 4)) % tapSpan, c % tapSpan)
      else t) [] }

/-- One period of the vector in play: edges, strobes, the place in local time (R218, R231, R234). -/
def Dev.playPeriod (d : Dev) (n : Nat) (b : Burst) : Dev :=
  let p := d.pat n
  let set := vecSet b.vec
  let seg := (b.ents.head?.map (·.seg)).getD 0
  let s0 := d.schedOf n b seg []
  let judged := s0.cl ||| s0.ch ||| s0.cm ||| s0.bad
  let r := strobeCloses p.now p.active set (fun k => judged.getLsbD k) p.lastClose
  let s := d.schedOf n b seg r.1
  let d := d.drivePins n b
  let d := if r.2 = 0 then d else ((d.bumpBy (Reg.LOOM.STROBE_SHIFT.count n) r.2).wr (Reg.LOOM.SEL_STATUS.strobe_shift n) 1).evcBy 0x0A n r.2
  let d := d.modPat n fun p =>
    { p with burst := some { b with rep := b.rep + 1 }, lastClose := r.1, now := p.now + tsPeriod p.active set,
             lastPeriod := tsPeriod p.active set, sched := if judged = 0 ∧ s.lg = 0 then p.sched else p.sched ++ [s] }
  d.evc 0x01 n

/-- Where the run stands at a vector boundary (R252, R254, R266). -/
inductive Place where
  /-- the next vector is the one at `b`; `enters`: the run goes on into another entry. -/
  | at (b : Burst) (enters : Bool)
  | finish (cause : Nat)
  /-- the next entry has not been fetched. -/
  | wait

def Burst.place (b : Burst) : Place :=
  match b.ents with
  | [] => if b.descLost then .finish 3 else if b.closed then .finish 0 else .wait
  | e :: t =>
    if b.pos < e.desc.length then .at b false
    else if b.pass + 1 < e.desc.passes then .at { b with pass := b.pass + 1, pos := 0 } false
    else if b.mloop || e.desc.last then .finish 0
    else match t with
      | _ :: _ => .at { b with ents := t, pass := 0, pos := 0 } true
      | [] => if b.descLost then .finish 3 else if b.closed then .finish 0 else .wait

/-- The next vector of the run, and the place of play there, where the bobbin holds it. -/
def Burst.ahead1 (b : Burst) : Option (Burst × BitVec 144) :=
  match b.place with
  | .at b' _ =>
    match (b'.ents.head?.map fun e => e.vector b'.pass b'.pos).getD .empty with
    | .vec v => some (b', v)
    | _ => none
  | _ => none

/-- The next `k` vectors of the run, as far as the bobbin holds them. -/
def Burst.ahead : Nat → Burst → List (BitVec 144)
  | 0, _ => []
  | k + 1, b =>
    match b.ahead1 with
    | some (b', v) => v :: Burst.ahead k { b' with pos := b'.pos + 1 }
    | none => []

/-- The generator after the merge stage has attached the bits of the next `k` vectors, as far as the bobbin holds them (R267, R269). -/
def Dev.twMerged (d : Dev) (n : Nat) : Nat → Burst → Dev
  | 0, _ => d
  | k + 1, b =>
    match b.ahead1 with
    | some (b', _) =>
      let e : Entry := b'.ents.headD { seg := 0, desc := {} }
      let enters := e.desc.twill && b'.pos == 0 && b'.pass == 0
      let d := if enters then d.twEnter n e.desc.op else d
      let r := if e.desc.twill then d.twStep n e.desc.op (if enters then 0 else b'.g) else (d, b'.g)
      Dev.twMerged r.1 n k { b' with g := r.2, pos := b'.pos + 1 }
    | none => d

/-- X and Y at the merge stage, which runs as far ahead of the pins as the elastic FIFO reaches (R269). -/
def Dev.twXY (d : Dev) (n : Nat) : Nat × Nat :=
  let e := match (d.pat n).burst with
    | some b => if b.ended.isSome then d else d.twMerged n 128 b
    | none => d
  (e.rd (Reg.TW.X.x n), e.rd (Reg.TW.Y.y n))

/-- A burst ends before its end: X and Y keep the values that the merge stage has given them (R269; DEDUCED, log entry 116). -/
def Dev.twKeep (d : Dev) (n : Nat) : Dev :=
  let xy := d.twXY n
  (d.wr (Reg.TW.X.x n) xy.1).wr (Reg.TW.Y.y n) xy.2

/-- Playing ends with a cause: the site bits of R48, R142, R237 and R264, the jump latched is dropped, and a pending
commit takes effect (R230, R261). The pattern path of a quarantined loom is HELD from then on (R544). -/
def Dev.endPlay (d : Dev) (n cause : Nat) : Dev :=
  let d := if cause = 0 then d else d.twKeep n
  let d := d.modPat n fun p => Pat.settleReqs
    { p.applyCommit with burst := p.burst.map fun b =>
        { b with ended := some cause, early := cause != 0, flagged := b.flagged || cause == 3, ents := b.ents.take 1, await := none, closed := true } }
  let d := (d.holdPins n).tapLasts n
  let d := (d.wr (Reg.LOOM.SJMP_STATE.pending n) 0).wr (Reg.LOOM.TSET_COMMIT.pending n) 0
  let d := if d.quar n then (d.setUnit (kPattern n) .held).cmpSettle n else d
  if cause = 2 ∨ cause = 5 then d.loomSiteStatus n 0x05
  else if cause = 3 then d.loomSiteStatus n 0x25
  else d

/-- One hold period (R265). -/
def Dev.holdPeriod (d : Dev) (n : Nat) : Dev :=
  let d := ((d.holdPins n).tapLasts n).modPat n fun p => { p with now := p.now + p.lastPeriod, burst := p.burst.map fun b => { b with holding := true, flagged := true } }
  let d := ((d.bump (Reg.LOOM.HOLD_COUNT.count n)).wr (Reg.LOOM.BOB_STATUS.starved n) 1).loomSiteStatus n 0x03
  ((d.evc 0x03 n).evc 0x01 n).fetchOn n

/-- The pass that plays has ended with a jump latched: it has taken effect (R260, R262). -/
def Dev.jumpTaken (d : Dev) (n : Nat) : Dev := (d.wr (Reg.LOOM.SJMP_STATE.pending n) 0).evc 0x0D n

/-- No vector for this period: a jump gap (R263), or starvation under the policy (R264). -/
def Dev.starve (d : Dev) (n : Nat) (b : Burst) (leaves : Bool) : Dev :=
  let jump := leaves && d.on (Reg.LOOM.SJMP_STATE.pending n) && !b.gap
  let d := if jump then
    (((d.jumpTaken n).wr (Reg.LOOM.BOB_STATUS.jump_gap n) 1).evc 0x0E n).modBurst n fun b => { b with gap := true } else d
  if jump || b.gap then d.holdPeriod n
  else if b.strict then d.endPlay n 2
  else d.holdPeriod n

/-- Drops the lines of a stream that lie before the place of play; a segment being loaded keeps them all. -/
def Entry.trim (e : Entry) (p v : Nat) : Entry :=
  let a := p * e.desc.passLines + 18 * v / 64
  if e.load || decide (a ≤ e.base) then e else { e with lines := e.lines.drop (a - e.base), base := a }

def Burst.trim (b : Burst) : Burst :=
  match b.ents with
  | [] => b
  | e :: t => { b with ents := e.trim b.pass b.pos :: t }

/-- A vector begins, its flags at the start of its first period (R217 to R219, R226, R230, R267, R268). -/
def Dev.playVector (d : Dev) (n : Nat) (b : Burst) (v : BitVec 144) : Dev :=
  let d := (d.tapLasts n).modPat n Pat.applyCommit
  let d := d.wr (Reg.LOOM.TSET_COMMIT.pending n) 0
  let e : Entry := b.ents.headD { seg := 0, desc := {} }
  let enters := e.desc.twill && b.pos == 0 && b.pass == 0
  let d := if enters then d.twEnter n e.desc.op else d
  let g := if enters then 0 else b.g
  let op := if e.desc.twill then e.desc.op else b.lastOp
  let tw := d.twBits n op (if e.desc.twill then g else 0)
  let r := if e.desc.twill then d.twStep n op g else (d, b.g)
  let d := r.1
  let wraps := b.played != 0 && (b.idx + 1) % 2 ^ 40 == 0
  let idx := if b.played = 0 then 0 else (b.idx + 1) % 2 ^ 40
  let dp := d.dpAttached n v
  let unm := (List.range 32).any fun k => pinCode v k == 14 && !([0, 1].any fun o => d.tapMaps o n k)
  let bars := dr08Bars (d.pat n).active v
  let outs := d.dpOutputs n v
  let on := maskTo (fun k => pinCode v k == 14 && [0, 1].any fun o => d.tapMaps o n k) 32
  let d := outs.foldl (fun (d : Dev) o => d.modRast o fun r => { r with bits := r.bits.drop 1 }) d
  let b := { b with vec := v, twBits := BitVec.ofNat 32 tw, dpBits := BitVec.ofNat 32 dp, dpOn := BitVec.ofNat 32 on, g := r.2, lastOp := op, idx := idx,
                    played := b.played + 1, rep := 0, pos := b.pos + 1, holding := false, gap := false, flagged := b.flagged || bars }
  let d := if wraps then d.wr (Reg.LOOM.SEL_STATUS.idx_wrap n) 1 else d
  let d := if unm then d.wr (Reg.LOOM.SEL_STATUS.dp_unmapped n) 1 else d
  let d := if bars then (d.wr (Reg.LOOM.SEL_STATUS.dr08 n) 1).loomSiteStatus n 0x41 else d
  let d := ((d.wr (Reg.LOOM.VIDX.index n) idx).wr (Reg.LOOM.SEG_NOW.segment n) e.seg).wr (Reg.LOOM.LOOP_NOW.pass n) (min b.pass 0xFFFFFF)
  let t := (d.pat n).now % tapSpan
  let d := if vecFlag v 0 then (d.evc 0x3C n).routeFlag n false t else d
  let d := if vecFlag v 1 then (d.evc 0x3D n).routeFlag n true t else d
  (((d.evc 0x02 n).playPeriod n b).modBurst n Burst.trim).fetchOn n

/-- Vectors that the elastic FIFO holds (R41, R43). -/
def fifoDepth : Nat := 128

/-- A vector boundary (R252, R260 to R266). Twill or pixel data may be late only for vectors that the prefill has not put into the
elastic FIFO with their bits (R43, R45). -/
def Dev.vectorBoundary (d : Dev) (n : Nat) (b : Burst) (late : Bool) : Dev :=
  match b.stopReq with
  | some c => d.endPlay n c
  | none =>
    if b.cut then d.endPlay n 0
    else match b.place with
      | .finish c => d.endPlay n c
      | .wait => d.starve n b (!b.ents.isEmpty)
      | .at b' enters =>
        if b.holding && !b.holds 64 then d.starve n b enters
        else match (b'.ents.head?.map fun e => e.vector b'.pass b'.pos).getD .empty with
          | .lost => d.endPlay n 3
          | .empty => d.starve n b enters
          | .vec v =>
            let attach := (List.range 32).any fun k => pinCode v k == 12 || pinCode v k == 13 || pinCode v k == 14
            if (late && attach && decide (fifoDepth ≤ b.played)) || (d.dpOutputs n v).any fun o => (d.rast o).bits.isEmpty then d.starve n b enters
            else (if enters && d.on (Reg.LOOM.SJMP_STATE.pending n) && !b.gap then d.jumpTaken n else d).playVector n b' v

/-- Both locks hold (R236). -/
def Dev.locked (d : Dev) (n : Nat) : Bool := d.on (Reg.LOOM.SELVEDGE.pll_lock n) && d.on (Reg.LOOM.SELVEDGE.dll_lock n)

/-- A 312.5 ps clock period in taps (R228). -/
def clockTaps : Nat := 320

/-- The boundary at which the next period starts: a burst's first one falls on the next edge of the selvedge clock, which runs
with Reed time, and each later one where the period before ends (R231). -/
def Dev.boundaryAt (d : Dev) (n : Nat) (first : Bool) : Nat :=
  if first then (d.nowTaps + clockTaps - 1) / clockTaps * clockTaps else (d.pat n).now

/-- Time goes on to the boundary; Reed time follows while it counts (log entry 101). -/
def Dev.toBoundary (d : Dev) (n : Nat) (first : Bool) : Dev :=
  let t := d.boundaryAt n first
  let d := d.modPat n fun p => { p with now := t }
  if d.reed.counting then d.advanceTo (t / 10240 % 2 ^ 48) else d

/-- A period boundary of loom `n`; `late`: the merge stage has not delivered the Twill or pixel data that the next
vector carries (R45). -/
def Dev.periodBoundary (d : Dev) (n : Nat) (late : Bool) : Dev :=
  match (d.pat n).burst with
  | none => d
  | some b =>
    if b.ended.isSome then d
    else if !b.started && !(b.prefilled && d.locked n) then d
    else match b.halt with
      | some c => d.endPlay n c
      | none =>
        let d := d.toBoundary n (!b.started)
        if b.rep ≠ 0 ∧ b.rep ≤ vecRepeat b.vec then d.playPeriod n b
        else (d.modBurst n fun b => { b with started := true }).vectorBoundary n { b with started := true } late

def execSelvedgePeriodBoundary (n : LoomId) (late : Bool) (s : State) : Out := lift s fun d => d.periodBoundary n.val late

/-- Of the vectors that the elastic FIFO takes next, those whose pixel bits output `o` gives. -/
def Dev.dpAhead (d : Dev) (n : Nat) (b : Burst) (o : Nat) : Nat := ((b.ahead fifoDepth).filter fun v => (d.dpOutputs n v).contains o).length

/-- The elastic FIFO can hold its 128 vectors of the burst: the pixel bits that they carry have been attached, but for those after the drain point of an output (R43, R45, R372). -/
def Dev.fifoReady (d : Dev) (n : Nat) (b : Burst) : Bool := [0, 1].all fun o => (d.rast o).drained || decide (d.dpAhead n b o ≤ (d.rast o).bits.length)

/-- The prefill of R43 is complete: 4,096 vectors held, or the whole burst, and 128 of them in the elastic FIFO. -/
def Dev.prefill (d0 : Dev) (n : Nat) : Dev :=
  let d := d0.fetchOn n
  match (d.pat n).burst with
  | none => d
  | some b => if b.holds 4096 && d.fifoReady n b then d.modBurst n fun b => { b with prefilled := true } else d

def execBurstPrefillComplete (n : LoomId) (s : State) : Out := lift s fun d => d.prefill n.val

end Sys2Proof.Machine
end

