-- ==== Sys2Proof/Machine/Bobbin.lean ====
section
/-! DEFINITION. The bobbin: descriptors and refill lines that arrive, the service window, the loop window and the
segment table's registers (R47, R48, R250 to R259, R266, R269, R270). -/
namespace Sys2Proof.Machine
open Sys2Proof

/-- An entry has been read: it joins the run; a jump latched while the selvedge waits for it applies to its first
pass (R253, R256, R260). -/
def Dev.pushEntry (d : Dev) (n s : Nat) (e : Desc) : Dev :=
  let p := d.pat n
  let x := p.entryFor s e
  let d := if e.pinned && x.copyTill == 0 && !x.load then d.wr (Reg.LOOM.PIN_STATUS.pin_full n) 1 else d
  d.modBurst n fun b =>
    let b' := { b with ents := b.ents ++ [x], await := none }
    if d.on (Reg.LOOM.SJMP_STATE.pending n) && (b.gap || b.ents.isEmpty) then
      let t := d.rd (Reg.LOOM.SJMP_STATE.target n)
      { b' with ents := b.ents ++ [{ x with desc := { x.desc with loops := 1, next := t, last := false }, stored := some x.desc }] }
    else b'

/-- The run ends after the entries it holds, or at once where it holds none (R254). -/
def Dev.closeRun (d : Dev) (n : Nat) (lost : Bool) : Dev :=
  let d := d.modBurst n fun b => { b with await := none, closed := true, descLost := lost }
  if (d.pat n).burst.any fun b => b.ents.isEmpty then d.endPlay n (if lost then 3 else 0) else d

/-- The oldest descriptor asked for arrives (R253, R254); one that the run no longer awaits is discarded (R40). -/
def Dev.descArrives (d0 : Dev) (n : Nat) (e : Ecc) : Dev :=
  let d := if (d0.pat n).descs.isEmpty then d0.fetchOn n else d0
  match (d.pat n).descs with
  | [] => d
  | want :: rest =>
    let d := d.modPat n fun p => { p with descs := rest }
    match want, (d.pat n).burst with
    | none, _ => d.fetchOn n
    | _, none => d.fetchOn n
    | some s, some b =>
      let a := d.segBase + 16 * s
      let r := d.touch (.loom n) (a / 32) e
      if r.2 then
        let x := descOf (leVal (r.1.bytesAt a 16))
        if x.valid then (r.1.pushEntry n s x).fetchOn n
        else
          let named := (b.ents.getLast?.map (·.seg)).getD s
          ((r.1.wr (Reg.LOOM.BOB_STATUS.bad_next n) 1).wr (Reg.LOOM.BOB_STATUS.bad_seg n) named).closeRun n false
      else (r.1.loomErr n 1).closeRun n true

/-- The Granary line that the next refill line of an entry is read from (R249, R255). -/
def Entry.nextLine (e : Entry) : Nat := e.desc.start + e.got % max e.desc.passLines 1

/-- A segment loaded as its first pass streamed is resident: its later passes play from the loop window (R255, R256). -/
def Entry.loaded (e : Entry) : Bool := e.load && e.full && !e.hasLost

def Entry.residentOf (e : Entry) (ls : List Line) : Entry :=
  { e with load := false, copy := ls, copyTill := e.desc.passes, lines := [], base := e.desc.passes * e.desc.passLines }

/-- A line joins the stream of the first entry that wants one. -/
def addLine (x : BobLine) : List Entry → List Entry
  | [] => []
  | e :: t => if e.full then e :: addLine x t else { e with lines := e.lines ++ [x] } :: t

/-- The data of the lines of an entry. -/
def Entry.dataLines (e : Entry) : List Line := e.lines.filterMap fun | .data v => some v | .lost => none

/-- The entries of a burst whose load is complete enter the loop window (R256), where a load by PIN_CMD has not put the segment
there meanwhile. -/
def Dev.windowLoads (d : Dev) (n : Nat) : Dev :=
  match (d.pat n).burst with
  | none => d
  | some b =>
    match b.ents.find? Entry.loaded with
    | none => d
    | some e =>
      (d.modPat n fun p =>
        { p with window := if p.window.any (·.seg == e.seg) then p.window else p.window ++ [⟨e.seg, e.stored.getD e.desc, e.dataLines⟩],
                 burst := some { b with ents := b.ents.map fun x => if x.loaded then x.residentOf x.dataLines else x } }).evc 0x0F n

/-- A window of R47 in ticks, and the 360 ns within which a line that was asked for arrives. -/
def windowTicks : Nat := 100
def lineTicks : Nat := 36

/-- The end of the present service window: windows follow one another at the multiples of 1.0 µs of Reed time (log entry 105). -/
def Dev.windowEnd (d : Dev) : Nat := (d.now / windowTicks + 1) * windowTicks % 2 ^ 48

/-- A request issued at `t` was issued in good time for the window that ends at `stop` (R47). -/
def inGoodTime (t : BitVec 48) (stop : Nat) : Bool := reached stop ((t.toNat + lineTicks) % 2 ^ 48)

/-- A line asked for at `t` has arrived in the present window (R47). -/
def Dev.countLine (d : Dev) (n : Nat) (t : BitVec 48) : Dev :=
  d.modPat n fun p => { p with arrived := p.arrived + 1, arrivedDue := p.arrivedDue + b2n (inGoodTime t d.windowEnd) }

/-- The line of the oldest refill request arrives; an uncorrectable one is never placed in the bobbin (R48, R255), and one that
the run no longer wants is discarded. -/
def Dev.refillArrives (d : Dev) (n : Nat) (e0 e1 : Ecc) : Dev :=
  match (d.pat n).reqs with
  | [] => d
  | q :: rest =>
    let d := ((d.modPat n fun p => { p with reqs := rest }).countLine n q.t).evc 0x0B n
    match (if q.want then (d.pat n).burst else none) with
    | none => d.fetchOn n
    | some b =>
      match b.ents.find? fun e => !e.full with
      | none => d.fetchOn n
      | some e =>
        let r := d.readLine (.loom n) e.nextLine e0 e1
        let x : BobLine := match r.2 with | some v => .data v | none => .lost
        let d := r.1.modPat n fun p => Pat.settleReqs { p with burst := some { b with ents := addLine x b.ents } }
        let d := if r.2.isNone then d.loomErr n 1 else d
        ((d.windowLoads n).modBurst n Burst.trim).fetchOn n

/-- The lines of R47's L in the window that ends at `stop`: those that arrived in it, and those still in flight, of requests
issued in good time. -/
def Pat.due (p : Pat) (stop : Nat) : Nat := p.arrivedDue + (p.reqs.filter fun q => inGoodTime q.t stop).length

/-- The present service window ends, at `stop` (R47). -/
def Dev.windowOver (d : Dev) (n : Nat) (stop : BitVec 48) : Dev :=
  if stop.toNat ≠ d.windowEnd ∨ (d.pat n).winEnd = some stop ∨ !d.comes stop.toNat then d
  else
    let d := d.advanceTo stop.toNat
    let p := d.pat n
    let d1 := d.setPat n { p with arrived := 0, arrivedDue := 0, winEnd := some stop }
    if p.arrived < min 250 (p.due stop.toNat) then
      ((d1.bump (Reg.LOOM.SERVICE_MISS.count n)).irqLoom Reg.LOOM.IRQ_CAUSE.service_miss n).evc 0x0C n
    else d1

def execServiceWindowEnd (n : LoomId) (stop : BitVec 48) (s : State) : Out := lift s fun d => d.windowOver n.val stop

/-! The loop window (R256 to R259). -/

/-- A descriptor as the bobbin reads it now, where its half is good. -/
def Dev.descNow (d : Dev) (g : GSrc) (s : Nat) (e : Ecc) : Dev × Option Desc :=
  let a := d.segBase + 16 * s
  let r := d.touch g (a / 32) e
  (r.1, if r.2 then some (descOf (leVal (r.1.bytesAt a 16))) else none)

def Dev.pinReject (d : Dev) (n : Nat) : Dev := d.rejectWith (Reg.LOOM.PIN_STATUS.pin_reject n) false

/-- A flush: only while no burst runs (R259). -/
def Dev.pinFlush (d : Dev) (n : Nat) : Dev :=
  if d.patRunning n then d.pinReject n else d.modPat n Pat.emptyWindow

/-- A load: at most 32 wait behind the one in progress (R259). -/
def Dev.pinLoad (d : Dev) (n s : Nat) : Dev :=
  let p := d.pat n
  if 33 ≤ p.loads.length then d.pinReject n
  else if p.window.any (·.seg == s) then d
  else
    let r := (d.passing (refillPart n) 1).descNow (.loom n) s .good
    match r.2 with
    | some x => if x.valid && x.pinned then r.1.modPat n fun p => { p with loads := p.loads ++ [s] } else r.1.pinReject n
    | none => r.1.pinReject n

/-- A write of PIN_CMD reads a descriptor, for which it waits for a refill credit (R33, R259). -/
def Dev.pinReads (d : Dev) (m : Master) (n v : Nat) : Bool := bit v 15 && d.owns m (loomBlock n)

/-- A write of PIN_CMD: the flush first (R259). -/
def Dev.pinCmd (d : Dev) (m : Master) (n v : Nat) : Dev :=
  if !bit v 15 && !bit v 16 then d
  else if !d.owns m (loomBlock n) then d.ownerReject m (loomBlock n)
  else
    let d := if bit v 16 then d.pinFlush n else d
    if bit v 15 then d.pinLoad n (v % 2 ^ 15) else d

def execPinLoad (m : Master) (n : LoomId) (v : BitVec 32) (s : State) : Out := lift s fun d =>
    d.writing m (if d.pinReads m n.val v.toNat then some (refillPart n) else none) (.pinLoad m n v) (·.pinCmd m n.val v.toNat)

def execPinFlush (m : Master) (n : LoomId) (s : State) : Out := lift s fun d => d.inTurn m (.pinFlush m n) (·.pinCmd m n.val 0x10000)

/-- The lines of a segment, read one after another: none from the first that is uncorrectable. `e`: what the correction finds in
the first half. -/
def Dev.readLines (d : Dev) (g : GSrc) (line : Nat) (e : Ecc) : Nat → Dev × Option (List Line)
  | 0 => (d, some [])
  | k + 1 =>
    let r := Dev.readLines d g line e k
    match r.2 with
    | none => r
    | some l =>
      let q := r.1.readLine g (line + k) (if k = 0 then e else .good) .good
      (q.1, q.2.map fun x => l ++ [x])

/-- A segment that has become resident plays from the loop window in the entries that streamed it so far, where they read the same
vectors: no request for it is made any more (R255). -/
def Burst.nowResident (s : Nat) (x : Desc) (ls : List Line) (b : Burst) : Burst :=
  { b with ents := b.ents.map fun e => if e.seg = s ∧ e.copyTill = 0 ∧ e.desc.start = x.start ∧ e.desc.length = x.length then e.residentOf ls else e }

/-- The load in progress ends: its lines are received (R47); `e` is what the correction finds in its first line (R259). -/
def Dev.pinLoaded (d : Dev) (n : Nat) (e : Ecc) : Dev :=
  match (d.pat n).loads with
  | [] => d
  | s :: rest =>
    let d := d.modPat n fun p => { p with loads := rest }
    if (d.pat n).window.any (·.seg == s) then d
    else
      let r := d.descNow (.loom n) s .good
      match r.2 with
      | none => r.1.pinReject n
      | some x =>
        if !(x.valid && x.pinned) then r.1.pinReject n
        else if 8192 < (d.pat n).winOthers s + x.length then r.1.wr (Reg.LOOM.PIN_STATUS.pin_full n) 1
        else
          let r := (iter (fun _ d => d.countLine n d.reed.time) x.passLines (r.1.passing (refillPart n) x.passLines), r.2)
          let q := r.1.readLines (.loom n) x.start e x.passLines
          match q.2 with
          | none => q.1.pinReject n
          | some l => (q.1.modPat n fun p => Pat.settleReqs { p with window := p.window ++ [⟨s, x, l⟩], burst := p.burst.map (·.nowResident s x l) }).evc 0x0F n

def execPinLoadComplete (n : LoomId) (e : Ecc) (s : State) : Out := lift s fun d =>
    d.accessing (if (d.pat n).loads.isEmpty then none else some (refillPart n)) (.pinLoadComplete n e) (·.pinLoaded n.val e)

/-! Match-loops (R266). -/

/-- The verdict of the oldest pass not judged yet, once its strobes have closed. -/
def Dev.mloopVerdict (d : Dev) (n : Nat) : Dev :=
  let p := d.pat n
  match p.burst with
  | none => d
  | some b =>
    let len := (b.ents.head?.map (·.desc.length)).getD 0
    let done := b.pass + b2n (b.pos == len && decide (vecRepeat b.vec < b.rep))
    if b.mloop && !b.matched && decide (b.verdicts < done) && !p.sched.any (·.pass == b.verdicts) then
      let ok := !b.failPasses.contains b.verdicts
      d.modBurst n fun b => { b with verdicts := b.verdicts + 1, matched := ok, cut := ok }
    else d

def execMloopVerdict (n : LoomId) (s : State) : Out := lift s fun d => d.mloopVerdict n.val

/-! The Twill window (R269, R272). -/

/-- The fields of a slot of the Twill window. -/
def twFields (n slot : Nat) : List Fld :=
  if slot < 4 then ([Reg.TW.X.x n, Reg.TW.XMIN.xmin n, Reg.TW.XMAX.xmax n, Reg.TW.XCMASK.xcmask n][slot]?).toList
  else if slot < 8 then ([Reg.TW.Y.y n, Reg.TW.YMIN.ymin n, Reg.TW.YMAX.ymax n, Reg.TW.YCMASK.ycmask n][slot - 4]?).toList
  else if slot = 8 then [Reg.TW.BG.bg n]
  else if slot = 9 then [Reg.TW.SCR_SEL.sel n]
  else if slot = 10 then [Reg.TW.STATUS.cfg_reject n]
  else if slot < 16 then []
  else if slot < 32 then
    let i := slot - 16
    [Reg.TW.OP.xact n i, Reg.TW.OP.yact n i, Reg.TW.OP.ylink n i, Reg.TW.OP.xload n i, Reg.TW.OP.yload n i, Reg.TW.OP.dmode n i,
     Reg.TW.OP.p_m1 n i, Reg.TW.OP.dinv n i]
  else if slot < 40 then [Reg.TW.PINMAP.map n (slot - 32)]
  else if 64 ≤ slot ∧ slot < 96 then [Reg.TW.SCR.word n (slot - 64)]
  else []

/-- A field that a slot write would change (R617). -/
def Dev.changed (d : Dev) (v : Nat) (f : Fld) : Bool := bits v f.lo f.w != d.rd f

/-- Stores a slot value in the fields of the slot. -/
def Dev.store (d : Dev) (fs : List Fld) (v : Nat) : Dev := fs.foldl (fun d f => d.wr f (bits v f.lo f.w)) d

/-- A write of the Twill window. A dmode of 3 is ignored, and the other fields are stored (R272, R617). -/
def Dev.twWrite (d : Dev) (m : Master) (n slot v : Nat) : Dev :=
  let fs := twFields n slot
  if slot = 10 then
    if !bit v 0 then d
    else if d.owns m (loomBlock n) && !d.patRunning n then d.wr (Reg.TW.STATUS.cfg_reject n) 0
    else d.rejectWith (Reg.TW.STATUS.cfg_reject n) (!d.owns m (loomBlock n))
  else if !fs.any (d.changed v) then d
  else if !d.owns m (loomBlock n) then d.rejectWith (Reg.TW.STATUS.cfg_reject n) true
  else if d.patRunning n then d.rejectWith (Reg.TW.STATUS.cfg_reject n) false
  else if 16 ≤ slot ∧ slot < 32 ∧ bits v 7 2 = 3 then
    (d.store (fs.filter (· != Reg.TW.OP.dmode n (slot - 16))) v).rejectWith (Reg.TW.STATUS.cfg_reject n) false
  else d.store fs v

def execTwillWindowWrite (m : Master) (n : LoomId) (slot : Fin 256) (v : BitVec 32) (s : State) : Out :=
  lift s fun d => d.twWrite m n.val slot.val v.toNat

/-! The segment table's registers (R250, R251, R257, R270). -/

/-- Who reports an error of a descriptor write (R384). -/
def descSrc : DescSrc → GSrc
  | .dma => ⟨3, 0⟩
  | .bar2 => ⟨4, 0⟩
  | .shuttle => .core
  | .window => .core

/-- The partition whose credit a descriptor write takes (R37): of the DMA engines, engine 0 stands for any. -/
def descPart : DescSrc → Partition
  | .dma => .dma 0
  | .bar2 => .bar2
  | .shuttle => .coreShuttle
  | .window => .coreShuttle

/-- A descriptor write: the enabled bytes of the descriptor's 16. It waits for a credit of its partition; one through
BAR2 before gran_ready is answered as R377 lays down. -/
def execSegmentDescriptorWrite (src : DescSrc) (seg : Fin 32768) (bytes : BitVec 128) (be : BitVec 16) (s : State) : Out :=
  lift s fun d => if src = .bar2 ∧ !d.granOpen then d.flag Reg.GLB_STATUS.bar2_early else
    d.accessing (some (descPart src)) (.segmentDescriptorWrite src seg bytes be) fun d => ((d.passing (descPart src) 1).writeBytes (descSrc src) (d.segBase + 16 * seg.val)
      ((List.range 16).map fun i => if be.getLsbD i then some (bytes.extractLsb' (8 * i) 8) else none)).1

/-- The selection copy of a master. -/
def Dev.segSel (d : Dev) (m : Master) : Nat := d.rd (Reg.GLB_SEGT_SEL.segment (masterCode m))

/-- SEGT_WIN0 to SEGT_WIN2 are staged for the writing master. -/
def Dev.segStage (d : Dev) (m : Master) (slot : Nat) (v : BitVec 32) : Dev :=
  { d with segw := Tab.set none d.segw (4 * masterCode m + slot) (some v) }

def execSegtWinStageWrite (m : Master) (slot : Fin 3) (v : BitVec 32) (s : State) : Out := lift s fun d => d.inTurn m (.segtWinStageWrite m slot v) (·.segStage m slot.val v)

/-- The staged words of a master are discarded (R270). -/
def Dev.segUnstage (d : Dev) (m : Master) : Dev :=
  { d with segw := (List.range 3).foldl (fun t i => Tab.set none t (4 * masterCode m + i) none) d.segw }

/-- SEGT_WIN3 stores all 16 bytes in one step (R251, R270). -/
def Dev.segWin3 (d : Dev) (m : Master) (v : BitVec 32) : Dev :=
  let a := d.segBase + 16 * d.segSel m
  let w (i : Nat) : Nat := ((Tab.get none d.segw (4 * masterCode m + i)).map (·.toNat)).getD (leVal (d.bytesAt (a + 4 * i) 4))
  let val := w 0 + 2 ^ 32 * w 1 + 2 ^ 64 * w 2 + 2 ^ 96 * v.toNat
  (((d.passing .coreShuttle 1).writeBytes .core a ((leBytes 16 val).map some)).1).segUnstage m

def execSegtWin3Write (m : Master) (v : BitVec 32) (s : State) : Out := lift s fun d => d.writing m (some .coreShuttle) (.segtWin3Write m v) (·.segWin3 m v)

/-- GLB_SEGT_BASE: refused while any pattern path is not OFF; a change drops every resident segment (R257, R270). -/
def Dev.segBaseWrite (d : Dev) (m : Master) (v : Nat) : Dev :=
  let ch := bits v 0 14 != d.rd Reg.GLB_SEGT_BASE.base
  if !ch && !bit v 31 then d
  else if !d.owns m 0 then d.ownerReject m 0
  else
    let d := if bit v 31 then d.wr Reg.GLB_SEGT_BASE.base_reject 0 else d
    if !ch then d
    else if (List.range 24).any fun n => d.unit (kPattern n) != .off then d.rejectWith Reg.GLB_SEGT_BASE.base_reject false
    else { d.wr Reg.GLB_SEGT_BASE.base v with pats := d.pats.map fun e => (e.1, e.2.emptyWindow) }

def execSegtBaseWrite (m : Master) (v : BitVec 32) (s : State) : Out := lift s fun d => d.segBaseWrite m v.toNat

end Sys2Proof.Machine
end

