-- ==== Sys2Proof/Machine/FailLog.lean ====
section
/-! DEFINITION. Strobes, fails, the fail log and the end of a burst; lock of the selvedge clock; timing-set and fail-log
registers (R227 to R248, R625). -/
namespace Sys2Proof.Machine
open Sys2Proof

/-- A record of type 0 or 1 that is not logged counts in its burst, and in FLOG_UNLOGGED where that burst ended last (R244, R248). -/
def Dev.unlogged (d : Dev) (n serial : Nat) : Dev :=
  let hit (r : LogRec) : LogRec := if r.kind = 2 ∧ r.burst = serial then { r with mask := if r.mask = 0xFFFFFFFF then r.mask else r.mask + 1 } else r
  let last := if (d.pat n).burst.isSome then (d.pat n).serial == serial + 1 else (d.pat n).serial == serial
  let d := d.modPat n fun p =>
    { p with queue := p.queue.map hit, burst := p.burst.map fun b => if b.serial = serial then { b with unlogged := b.unlogged + 1 } else b }
  if last then d.bump (Reg.LOOM.FLOG_UNLOGGED.count n) else d

/-- A record is lost to a full queue or ring (R243, R244): one of type 2 counts in FLOG_LOST only. -/
def Dev.lostRec (d : Dev) (n : Nat) (r : LogRec) : Dev :=
  let d := (((d.bump (Reg.LOOM.FLOG_LOST.count n)).wr (Reg.LOOM.SEL_STATUS.flog_overflow n) 1).irqLoom Reg.LOOM.IRQ_CAUSE.flog_overflow n).evc 0x09 n
  if r.kind = 2 then d else d.unlogged n r.burst

/-- A record of type 0 or 1 is offered (R242, R244). -/
def Dev.offer (d : Dev) (n : Nat) (r : LogRec) : Dev :=
  if !d.on (Reg.LOOM.FLOG_CTRL.log_en n) then d
  else
    let k := ((d.pat n).burst.map (·.offered)).getD 0
    let d := (d.modBurst n fun b => { b with offered := b.offered + 1 }).evc 0x08 n
    let cap := d.rd (Reg.LOOM.FLOG_CAP.cap n)
    if cap ≠ 0 ∧ cap ≤ k then (d.wr (Reg.LOOM.SEL_STATUS.flog_capped n) 1).unlogged n r.burst
    else if 255 ≤ (d.pat n).queue.length then d.lostRec n r
    else d.modPat n fun p => { p with queue := p.queue ++ [r] }

/-- The three places that every fail reaches (R235). -/
def Dev.failPins (d : Dev) (n : Nat) (m : BitVec 32) : Dev :=
  if m = 0 then d
  else
    let d := d.upd (Reg.LOOM.FAIL_PINS.pins n) (· ||| m.toNat)
    let d := (d.sitesOf n).foldl (fun d i => if d.sitePins n i &&& m.toNat = 0 then d else d.siteStatus n i 0x08) d
    let site := ((d.pat n).burst.map (·.site)).getD 0
    if d.sitePins n site &&& m.toNat = 0 then d
    else d.modBurst n fun b =>
      { b with fail := true, failPasses := match (d.pat n).sched.head? with
          | some s => if b.failPasses.contains s.pass then b.failPasses else b.failPasses ++ [s.pass]
          | none => b.failPasses }

/-- The comparator outputs of the pins of loom `n` (R192, R194). -/
def Dev.cmpWord (d : Dev) (n : Nat) (f : Chan → Bool) : BitVec 32 := BitVec.ofNat 32 (maskTo (fun k => f (d.chan (32 * n + k))) 32)

/-- The strobes of the oldest period that has open ones have closed (R193, R225, R232, R242): each pin is judged by its comparators at
its E3, or over its window, as the edges since then tell, and fails where the selvedge may not judge it now. Bit k of `hi`, `lo` or
`mid` says that no pulse too short to give CMP_EDGEs broke the condition of CH, CL or CM within a window. Once no strobe is open the
comparators may lose their power (R627). -/
def Dev.judge (d : Dev) (n : Nat) (hi lo mid : BitVec 32) : Dev :=
  match (d.pat n).sched with
  | [] => d
  | s :: rest =>
    let s := s.close (d.cmpWord n (·.cmpHi)) (d.cmpWord n (·.cmpLo))
    let off := BitVec.ofNat 32 (maskTo (fun k => !d.pinUsable n k) 32)
    let m := s.miss ||| (s.win &&& ((s.cl &&& ~~~lo) ||| (s.ch &&& ~~~hi) ||| (s.cm &&& ~~~mid))) ||| ((s.cl ||| s.ch ||| s.cm) &&& off) ||| s.bad
    let serial := (d.pat n).serial
    let d := d.failPins n m
    let d := d.modPat n fun p => { p with sched := rest }
    let d := if m = 0 then d else d.offer n ⟨s.idx, m, s.seg, s.pass, s.rep, 0, serial⟩
    (if s.lg = 0 then d else d.offer n ⟨s.idx, s.lgHi &&& ~~~s.lgOff &&& ~~~off, s.seg, s.pass, s.rep, 1, serial⟩).cmpSettle n

def execCompareStrobe (n : LoomId) (hi lo mid : BitVec 32) (s : State) : Out := lift s fun d => d.judge n.val hi lo mid

/-! The end of a burst (R107, R233, R242, R244, R266). -/

/-- Playing has ended, the last strobe has closed, and a match-loop has its verdicts. -/
def Pat.mayEnd (p : Pat) (b : Burst) : Bool :=
  let len := (b.ents.head?.map (·.desc.length)).getD 0
  let done := b.pass + b2n (b.pos == len && decide (vecRepeat b.vec < b.rep))
  b.ended.isSome && p.sched.isEmpty && (!b.mloop || b.matched || decide (done ≤ b.verdicts) || b.early)

/-- The burst ends: its record, its result, its events (R401). -/
def Dev.burstEnd (d : Dev) (n : Nat) : Dev :=
  let p := d.pat n
  match p.burst with
  | none => d
  | some b =>
    if !p.mayEnd b then d
    else
      let cause := b.ended.getD 0
      let log := d.on (Reg.LOOM.FLOG_CTRL.log_en n)
      let un := min b.unlogged 0xFFFFFFFF
      let r : LogRec := ⟨d.rd (Reg.LOOM.VIDX.index n), BitVec.ofNat 32 un, d.rd (Reg.LOOM.SEG_NOW.segment n), 0, cause, 2, b.serial⟩
      let q := if log then p.queue ++ [r] else p.queue
      let d := d.setPat n (Pat.settleReqs { p with burst := none, queue := q, pendCount := p.pendCount ++ [b.serial] })
      let d := (d.wr (Reg.LOOM.FLOG_UNLOGGED.count n) (if log then un else 0)).wr (Reg.LOOM.SEL_STATUS.last_end n) cause
      let d := if log then d.evc 0x08 n else d
      let d := (d.irqLoom Reg.LOOM.IRQ_CAUSE.burst_end n).evc 0x05 n
      let d := if b.flagged || b.early then d.irqLoom Reg.LOOM.IRQ_CAUSE.burst_flag n else d
      let d := if b.flagged then d.evc 0x06 n else d
      let d := if b.early then d.evc 0x07 n else d
      let d := if b.blocking || b.mloop then
        match (d.ctx b.ctx).wait with
        | .burst k => if k = n then d.release b.ctx (.burst b.fail b.flagged b.early (if b.mloop then some b.matched else none)) else d
        | _ => d
        else d
      let d := if d.unit (kPattern n) = .draining then d.rampPins n fun _ => true else d
      d.unitEvent 2 n

def execBurstEnd (n : LoomId) (s : State) : Out := lift s fun d => d.burstEnd n.val

/-- The counts of type 0 records reach the result records, once every record of the burst is written or lost (R245). -/
def Dev.failCounts (d : Dev) (n : Nat) : Dev :=
  let p := d.pat n
  match p.pendCount with
  | [] => d
  | b :: rest =>
    if p.queue.any (·.burst == b) then d
    else
      let d := (p.siteFails.filter fun e => e.1 / 1024 == b).foldl (fun d e => d.siteUpdate n (e.1 % 1024) (.fails e.2)) d
      d.modPat n fun p => { p with pendCount := rest, siteFails := p.siteFails.filter fun e => e.1 / 1024 != b }

def execFailCountUpdate (n : LoomId) (s : State) : Out := lift s fun d => d.failCounts n.val

/-! The ring (R241, R243, R244). -/

/-- The bytes of a record with its lap. -/
def LogRec.bytes (r : LogRec) (lap : Bool) : List Byte :=
  leBytes 5 r.idx ++ leBytes 4 r.mask.toNat ++ leBytes 2 r.seg ++ leBytes 3 (min r.pass 0xFFFFFF) ++ leBytes 1 r.rep
    ++ leBytes 1 (r.kind + 128 * b2n lap)

/-- The ring is full in stop mode, or the record's address lies outside the Granary (R243). -/
def Dev.ringBars (d : Dev) (n : Nat) : Bool :=
  (d.on (Reg.LOOM.FLOG_CTRL.stop_full n) && d.rd (Reg.LOOM.FLOG_WPTR.index n) == d.rd (Reg.LOOM.FLOG_RPTR.index n)
    && d.rd (Reg.LOOM.FLOG_WPTR.lap n) != d.rd (Reg.LOOM.FLOG_RPTR.lap n))
  || decide (granSize ≤ 64 * d.rd (Reg.LOOM.FLOG_BASE.line n) + 16 * d.rd (Reg.LOOM.FLOG_WPTR.index n))

/-- FLOG_WPTR moves on; the lap changes on each pass (R243). -/
def Dev.wptrStep (d : Dev) (n : Nat) : Dev :=
  let i := d.rd (Reg.LOOM.FLOG_WPTR.index n) + 1
  if i < 2 ^ d.rd (Reg.LOOM.FLOG_CTRL.size_log2 n) then d.wr (Reg.LOOM.FLOG_WPTR.index n) i
  else (d.wr (Reg.LOOM.FLOG_WPTR.index n) 0).wr (Reg.LOOM.FLOG_WPTR.lap n) (1 - d.rd (Reg.LOOM.FLOG_WPTR.lap n))

/-- The partition of the fail log of loom `n` (R37). -/
def flogPart (n : Nat) : Partition := .shared ⟨n % 24, Nat.mod_lt _ (by decide)⟩ .failLog

/-- The oldest record of the queue goes into the line being packed, which is written with its empty slots 0, or is lost. -/
def Dev.packOne (d : Dev) (n : Nat) : Dev :=
  match (d.pat n).queue with
  | [] => d
  | r :: rest =>
    let d := d.modPat n fun p => { p with queue := rest }
    if d.ringBars n then d.lostRec n r
    else
      let i := d.rd (Reg.LOOM.FLOG_WPTR.index n)
      let lap := d.rd (Reg.LOOM.FLOG_WPTR.lap n) == 1
      let pk := (if i % 4 = 0 then [] else (d.pat n).packed) ++ [r]
      let a := 64 * (d.rd (Reg.LOOM.FLOG_BASE.line n) + i / 4)
      let bs := pk.flatMap fun x => x.bytes lap
      let bs := List.replicate (16 * (i % 4 + 1) - bs.length) 0 ++ bs
      let d := ((d.passing (flogPart n) 1).writeBytes (.loom n) a ((bs ++ List.replicate (64 - bs.length) 0).map some)).1
      let d := d.modPat n fun p => { p with packed := pk }
      let d := if r.kind = 0 then
        (d.sitesOf n).foldl (fun d s => if d.sitePins n s &&& r.mask.toNat = 0 then d
          else d.modPat n fun p => { p with siteFails := Tab.set 0 p.siteFails (r.burst * 1024 + s) (Tab.get 0 p.siteFails (r.burst * 1024 + s) + 1) }) d
        else d
      d.wptrStep n

/-- Packs until a line is complete, a burst's own record has been taken, or the queue is empty (R244). -/
def Dev.packLine (d : Dev) (n : Nat) : Nat → Dev
  | 0 => d
  | k + 1 =>
    match (d.pat n).queue with
    | [] => d
    | r :: _ =>
      let d := d.packOne n
      if r.kind = 2 ∨ d.rd (Reg.LOOM.FLOG_WPTR.index n) % 4 = 0 then d else d.packLine n k

/-- A line is written where its records complete it, or at the end of a burst. -/
def Dev.lineReady (d : Dev) (n : Nat) : Bool :=
  let q := (d.pat n).queue
  decide (4 ≤ d.rd (Reg.LOOM.FLOG_WPTR.index n) % 4 + q.length) || q.any (·.kind == 2)

def execFailLogLineWrite (n : LoomId) (s : State) : Out :=
  lift s fun d =>
    if d.lineReady n.val then d.accessing (some (flogPart n.val)) (.failLogLineWrite n) (·.packLine n.val 256) else d

/-- No record for 1 µs: the records held are written as a partly filled line (R244). -/
def execFailLogFlushTimeout (n : LoomId) (s : State) : Out :=
  lift s fun d =>
    if (d.pat n.val).queue.isEmpty then d else d.accessing (some (flogPart n.val)) (.failLogFlushTimeout n) (·.packLine n.val 256)

/-! Lock of the selvedge clock (R236, R237). -/

/-- PLL or delay line lose lock: a running burst ends with the period in progress, with cause 5 and the site bits of R237, though
a drain has asked for its end or only strobes of it are left (DEDUCED: it runs until then, R233; log entry 104). The
pattern path is HELD, as R237 says, also from OFF, where R52's own table knows a quarantine only (DESIGN CHOICE, log entry 121). -/
def Dev.lockLoss (d : Dev) (n : Nat) (dll : Bool) : Dev :=
  let lock := if dll then Reg.LOOM.SELVEDGE.dll_lock n else Reg.LOOM.SELVEDGE.pll_lock n
  let lost := if dll then Reg.LOOM.SELVEDGE.dll_lost n else Reg.LOOM.SELVEDGE.pll_lost n
  if !d.on lock then d
  else
    let d := ((d.wr lock 0).wr lost 1).irqLoom Reg.LOOM.IRQ_CAUSE.lock_lost n
    let d := match (d.pat n).burst with
      | some b => if b.ended.isSome then (d.modBurst n fun b => { b with ended := some 5, early := true }).loomSiteStatus n 0x05
        else if b.started then d.modBurst n fun b => { b with halt := some 5 }
        else d.endPlay n 5
      | none => d
    let k := kPattern n
    let d := if d.unit k ≠ .held then (d.setUnit k .held).modBox n fun b => { b with lockHeld := true } else d
    ((d.tmeLockLoss n).cmpSettle n).loomErr n 2

def execPllLockLoss (n : LoomId) (s : State) : Out := lift s fun d => d.lockLoss n.val false
def execDllLockLoss (n : LoomId) (s : State) : Out := lift s fun d => d.lockLoss n.val true

/-- A lock is reached, with the control word of the delay-line loop (R236, R239). -/
def execLockAcquired (n : LoomId) (dll : Bool) (ctrl : BitVec 10) (s : State) : Out :=
  lift s fun d =>
    if dll then
      if d.on (Reg.LOOM.SELVEDGE.pll_lock n.val) then (d.wr (Reg.LOOM.SELVEDGE.dll_lock n.val) 1).wr (Reg.LOOM.SELVEDGE.dll_ctrl n.val) ctrl.toNat else d
    else d.wr (Reg.LOOM.SELVEDGE.pll_lock n.val) 1

/-! Timing sets (R227 to R230, R246, R247). -/

/-- A commit is refused with a reason (R229, R230). -/
def Dev.commitReject (d : Dev) (n set pin r : Nat) : Dev :=
  (((d.wr (Reg.LOOM.TSET_COMMIT.bad_set n) set).wr (Reg.LOOM.TSET_COMMIT.bad_pin n) pin).wr (Reg.LOOM.TSET_COMMIT.reason n) r).rejectWith
    (Reg.LOOM.TSET_COMMIT.commit_reject n) false

/-- A commit of the staged sets: at once where no burst runs, otherwise at the next vector boundary (R230, R625). -/
def Dev.tsetCommit (d : Dev) (m : Master) (n : Nat) : Dev :=
  if !d.owns m (loomBlock n) then d.ownerReject m (loomBlock n)
  else if (d.pat n).commit.isSome then
    (d.wr (Reg.LOOM.TSET_COMMIT.reason n) 6).rejectWith (Reg.LOOM.TSET_COMMIT.commit_reject n) false
  else match tsReason (d.pat n).staged with
    | some (set, pin, r) => d.commitReject n set pin r
    | none =>
      if d.patRunning n then
        (d.modPat n fun p => { p with commit := some p.staged }).wr (Reg.LOOM.TSET_COMMIT.pending n) 1
      else d.modPat n fun p => { p with active := p.staged }

def execTsetCommit (m : Master) (n : LoomId) (s : State) : Out := lift s fun d => d.tsetCommit m n.val

/-- A write of the timing-set window: the loom and set are those that the master has selected. -/
def Dev.tsetWrite (d : Dev) (m : Master) (slot : Nat) (v : BitVec 32) : Dev :=
  let k := masterCode m
  let n := d.rd (Reg.TSET_SEL.loom k)
  let set := d.rd (Reg.TSET_SEL.set k)
  let view := d.on (Reg.TSET_SEL.view k)
  let p := d.pat n
  let w := v &&& tsMask slot
  if tsGet (if view then p.active else p.staged) set slot = w then d
  else if !d.owns m (loomBlock n) then d.rejectWith (Reg.TSET_SEL.write_reject k) true
  else if view then d.rejectWith (Reg.TSET_SEL.write_reject k) false
  else d.modPat n fun p => { p with staged := tsSet p.staged set slot w }

def execTsetWindowWrite (m : Master) (slot : Fin 320) (v : BitVec 32) (s : State) : Out := lift s fun d => d.tsetWrite m slot.val v

/-- FLOG_CTRL (R243, R248). -/
def Dev.flogCtrl (d : Dev) (m : Master) (n v : Nat) : Dev :=
  let ch := [Reg.LOOM.FLOG_CTRL.size_log2 n, Reg.LOOM.FLOG_CTRL.stop_full n, Reg.LOOM.FLOG_CTRL.log_en n].any (d.changed v)
  if !d.owns m (loomBlock n) then (if ch then d.ownerReject m (loomBlock n) else d)
  else if d.unit (kPattern n) ≠ .off ∨ bits v 0 5 < 8 ∨ 24 < bits v 0 5 then
    (if ch then d.rejectWith (Reg.LOOM.SEL_STATUS.cfg_reject n) false else d)
  else
    let d := d.store [Reg.LOOM.FLOG_CTRL.size_log2 n, Reg.LOOM.FLOG_CTRL.stop_full n, Reg.LOOM.FLOG_CTRL.log_en n] v
    let d := d.store [Reg.LOOM.FLOG_WPTR.index n, Reg.LOOM.FLOG_WPTR.lap n, Reg.LOOM.FLOG_RPTR.index n, Reg.LOOM.FLOG_RPTR.lap n] 0x1000000
    d.modPat n fun p => { p with packed := [] }

def execFlogCtrlWrite (m : Master) (n : LoomId) (v : BitVec 32) (s : State) : Out := lift s fun d => d.flogCtrl m n.val v.toNat

end Sys2Proof.Machine
end

