-- ==== Sys2Proof/Machine/Tapestry.lean ====
section
/-! DEFINITION. The Tapestry raster engine (R357 to R374). A raster position is the one at which the merge stage attaches
a slot (R360). -/
namespace Sys2Proof.Machine
open Sys2Proof

/-- The block of the Tapestry registers (R535). -/
def tapBlock : Nat := 3

/-- The layer numbers. -/
def layerNos : List Nat := [0, 1, 2, 3]

/-- Output `o` attaches slots: it is ON, or DRAINING before its drain point (R372). -/
def Dev.tapRuns (d : Dev) (o : Nat) : Bool := d.unit (kTap o) == .on || (d.unit (kTap o) == .draining && !(d.rast o).drained)

/-! Frame geometry (R361, R362). -/

def Tim.slots (t : Tim) : Nat := t.hs + t.hb + t.ha + t.hf
def Tim.lines (t : Tim) : Nat := t.vs + t.vb + t.va + t.vf

/-- The timing registers' shadow set. -/
def Dev.tapShadow (d : Dev) (o : Nat) : Tim :=
  { ha := d.rd (Reg.TAP.TIM_H1.h_active o), hf := d.rd (Reg.TAP.TIM_H1.h_fp o), hs := d.rd (Reg.TAP.TIM_H2.h_sync o), hb := d.rd (Reg.TAP.TIM_H2.h_bp o),
    va := d.rd (Reg.TAP.TIM_V1.v_active o), vf := d.rd (Reg.TAP.TIM_V1.v_fp o), vs := d.rd (Reg.TAP.TIM_V2.v_sync o), vb := d.rd (Reg.TAP.TIM_V2.v_bp o) }

/-- The first rule of R362 that a shadow set breaks. -/
def timReason (t : Tim) (rsv : Bool) : Option Nat :=
  if t.ha < 1 ∨ 4096 < t.ha ∨ t.va < 1 ∨ 2304 < t.va then some 1
  else if t.hs < 1 ∨ t.vs < 1 then some 2
  else if 16383 < t.slots ∨ 4095 < t.lines then some 3
  else if rsv then some 9
  else none

/-! Layers (R364, R366). -/

/-- A staged layer descriptor. -/
def Dev.tapStaged (d : Dev) (o l : Nat) : Layer :=
  { addr := d.rd (Reg.TAP.L_ADDR.addr o l), width := d.rd (Reg.TAP.L_SIZE.width o l), height := d.rd (Reg.TAP.L_SIZE.height o l),
    x := d.rd (Reg.TAP.L_POS.x_pos o l), y := d.rd (Reg.TAP.L_POS.y_pos o l), stride := d.rd (Reg.TAP.L_STRIDE.stride o l),
    en := d.on (Reg.TAP.L_FMT.en o l), fmt := d.rd (Reg.TAP.L_FMT.format o l), alpha := d.rd (Reg.TAP.L_FMT.alpha o l),
    ca := d.rd (Reg.TAP.L_FMT.const_alpha o l) }

/-- Bytes in a pixel. -/
def Layer.bpp (y : Layer) : Nat := y.fmt + 2

/-- The first rule of R364 that an enabled layer breaks. -/
def layerReason (y : Layer) (rsv : Bool) : Option Nat :=
  if !y.en then none
  else if y.fmt = 3 then some 4
  else if (y.alpha = 2 ∧ y.fmt ≠ 2) ∨ y.alpha = 3 then some 5
  else if y.width < 1 ∨ 4096 < y.width ∨ y.height < 1 ∨ 2304 < y.height then some 6
  else if granSize < y.addr + y.stride * (y.height - 1) + y.width * y.bpp then some 7
  else if y.stride < y.width * y.bpp then some 8
  else if rsv then some 9
  else none

/-- Whether a slot of layer `l` was last written with a reserved bit set. -/
def Rast.layerRsv (r : Rast) (l : Nat) : Bool := (List.range 6).any fun i => Tab.get false r.rsv (0x80 + 0x20 * l + 4 * i)

/-- The descriptor of a latched layer. -/
def Rast.layer (r : Rast) (l : Nat) : Layer := Tab.get {} r.layers l

/-- A read of the buffer at `a` of layer `l` has not completed. -/
def Rast.reading (r : Rast) (l a : Nat) : Bool := (r.want ++ r.old).any fun q => q.layer == l && q.buf == a

/-- No read is under way, and no buffer waits to retire. -/
def Rast.quiet (r : Rast) : Bool := r.want.isEmpty && r.old.isEmpty && r.retiring.isEmpty

/-- The buffer at `a` of layer `l` is retired: its address, its count and its event (R368). -/
def Dev.tapRetired (d : Dev) (o l a : Nat) : Dev :=
  ((d.wr (Reg.TAP.L_RET.ret o l) a).wr (Reg.TAP.L_RET.ret_count o l) (d.rd (Reg.TAP.L_RET.ret_count o l) + 1)
    |>.evc 0x95 24).unitEvent 8 (4 * o + l)

/-- A layer retires its buffer, once every read of it has completed (R368). -/
def Dev.tapRetire (d : Dev) (o l : Nat) : Dev :=
  let a := ((d.rast o).layer l).addr
  if (d.rast o).reading l a then d.modRast o fun r => { r with retiring := r.retiring ++ [(l, a)] } else d.tapRetired o l a

/-- The pending layer set is latched, all four in one step (R365, R368). -/
def Dev.tapLatch (d : Dev) (o : Nat) : Dev :=
  match (d.rast o).pendL with
  | none => d
  | some p =>
    let r := d.rast o
    let d := layerNos.foldl (fun (d : Dev) l =>
      if (r.layer l).en && decide (r.layer l ≠ Tab.get {} p l) then d.tapRetire o l else d) d
    (d.modRast o fun r => { r with layers := p, pendL := none }).wr (Reg.TAP.STATUS.layer_pending o) 0

/-- The pending timing set becomes active (R363). -/
def Dev.tapTiming (d : Dev) (o : Nat) : Dev :=
  match (d.rast o).pend with
  | none => d
  | some t => (d.modRast o fun r => { r with act := t, pend := none }).wr (Reg.TAP.STATUS.tim_pending o) 0

/-- A write refused for ownership sets cfg_reject (R374). -/
def Dev.tapReject (d : Dev) (o : Nat) (own : Bool) : Dev := d.rejectWith (Reg.TAP.STATUS.cfg_reject o) own

def execTimCommit (m : Master) (o : Fin 2) (s : State) : Out :=
  lift s fun d =>
    let o := o.val
    if !d.owns m tapBlock then d.tapReject o true
    else
      let t := d.tapShadow o
      match timReason t ([0x40, 0x44, 0x48, 0x4C].any fun a => Tab.get false (d.rast o).rsv a) with
      | some k => (d.wr (Reg.TAP.STATUS.reason o) k).rejectWith (Reg.TAP.STATUS.tim_reject o) false
      | none =>
        let d := (d.modRast o fun r => { r with pend := some t }).wr (Reg.TAP.STATUS.tim_pending o) 1
        if d.unit (kTap o) = .off then d.tapTiming o else d

def execLayerCommit (m : Master) (o : Fin 2) (s : State) : Out :=
  lift s fun d =>
    let o := o.val
    if !d.owns m tapBlock then d.tapReject o true
    else
      match layerNos.findSome? fun l => (layerReason (d.tapStaged o l) ((d.rast o).layerRsv l)).map fun k => (l, k) with
      | some (l, k) => ((d.wr (Reg.TAP.STATUS.reason o) k).wr (Reg.TAP.STATUS.bad_layer o) l).rejectWith (Reg.TAP.STATUS.layer_reject o) false
      | none =>
        let p := layerNos.foldl (fun (t : Tab Layer) l => Tab.set {} t l (d.tapStaged o l)) []
        let d := (d.modRast o fun r => { r with pendL := some p }).wr (Reg.TAP.STATUS.layer_pending o) 1
        if d.unit (kTap o) = .off then d.tapLatch o else d

/-! Pixel data (R366, R370). -/

/-- Active row `y` of a frame needs layer `e`, and the bytes of the row that it reads lie from `start`, `len` of them. -/
def Layer.row (e : Layer) (t : Tim) (y : Nat) : Option (Nat × Nat) :=
  if e.en && decide (e.y ≤ y) && decide (y < e.y + e.height) && decide (e.x < t.ha) then
    some (e.addr + (y - e.y) * e.stride, min e.width (t.ha - e.x) * e.bpp)
  else none

/-- The key of a line in a layer's line buffer. -/
def lineKey (l y k : Nat) : Nat := (4096 * l + y) * 512 + k

/-- The fetches that active row `y` needs. -/
def Rast.rowWants (r : Rast) (y : Nat) : List PixReq :=
  layerNos.flatMap fun l =>
    match (r.layer l).row r.act y with
    | some (a, n) => (List.range ((a + n - 1) / 64 - a / 64 + 1)).map fun k => ⟨l, y, k, a / 64 + k, (r.layer l).addr⟩
    | none => []

/-- The merge stage begins raster line `v`: the fetches for the row after it begin, and rows before it leave the buffers. -/
def Rast.beginLine (r : Rast) (v : Nat) : Rast :=
  let t := r.act
  let first := t.vs + t.vb
  let keep := r.lines.filter fun e => decide (first ≤ v) && decide (v - first ≤ e.1 / 512 % 4096)
  let r := { r with lines := keep }
  if first ≤ v + 1 ∧ v + 1 < first + t.va then { r with want := r.want ++ r.rowWants (v + 1 - first) } else r

/-- The byte `b` of row `y` of layer `l`, from the line buffer; none where it has not arrived. -/
def Rast.rowByte (r : Rast) (l y start b : Nat) : Option Nat :=
  (Tab.get none r.lines (lineKey l y ((start + b) / 64 - start / 64))).map fun v => Sys2Proof.Machine.bits v.toNat (8 * ((start + b) % 64)) 8

/-- Widens a 5-bit and a 6-bit component (R366). -/
def wide5 (c : Nat) : Nat := 8 * c + c / 4
def wide6 (c : Nat) : Nat := 4 * c + c / 16

/-- A pixel from its bytes: blue, green, red and alpha (R366). -/
def pixelOf (fmt : Nat) (b : List Nat) : Nat × Nat × Nat × Nat :=
  if fmt = 0 then
    let v := b.getD 0 0 + 256 * b.getD 1 0
    (wide5 (v % 32), wide6 (v / 32 % 64), wide5 (v / 2048), 255)
  else (b.getD 0 0, b.getD 1 0, b.getD 2 0, b.getD 3 255)

/-- One component composed (R367). -/
def blend (a s d : Nat) : Nat := (a * s + (255 - a) * d + 127) / 255

/-- One layer over the pixel `p` at active column `x` and row `y`; none where a byte is late (R367, R370). -/
def Rast.layerOver (r : Rast) (l x y : Nat) (p : Nat × Nat × Nat) : Option (Nat × Nat × Nat) :=
  let e := r.layer l
  match e.row r.act y with
  | none => some p
  | some (start, _) =>
    if x < e.x ∨ e.x + e.width ≤ x then some p
    else
      let o := (x - e.x) * e.bpp
      let bs := (List.range e.bpp).map fun i => r.rowByte l y start (o + i)
      if bs.any (·.isNone) then none
      else
        let q := pixelOf e.fmt (bs.map (·.getD 0))
        let a := if e.alpha = 0 then 255 else if e.alpha = 1 then e.ca else q.2.2.2
        some (blend a q.1 p.1, blend a q.2.1 p.2.1, blend a q.2.2.1 p.2.2)

/-- The composed pixel word P of an active slot (R357, R367). -/
def Rast.compose (r : Rast) (bg x y : Nat) : Option Nat :=
  let p := layerNos.foldl (fun p l => p.bind (r.layerOver l x y)) (some (bg % 256, bg / 256 % 256, bg / 65536))
  p.map fun c => c.1 + 256 * c.2.1 + 65536 * c.2.2

/-- The bits of a slot for the 32 pins (R357, R361). -/
def Dev.tapBits (d : Dev) (o : Nat) : Option (BitVec 32) :=
  let r := d.rast o
  let t := r.act
  let y := r.line - (t.vs + t.vb)
  let x := r.slot - (t.hs + t.hb)
  let de := decide (t.vs + t.vb ≤ r.line) && decide (y < t.va) && decide (t.hs + t.hb ≤ r.slot) && decide (x < t.ha)
  let p := if de then r.compose (d.rd (Reg.TAP.BG.bg o)) x y else some (d.rd (Reg.TAP.BLANK.blank o))
  p.map fun p => BitVec.ofNat 32 <| maskTo (fun k =>
    let m := d.pinMap o k
    let src := m % 32
    let b := if src < 24 then bit p src else if src = 24 then decide (r.slot < t.hs) else if src = 25 then decide (r.line < t.vs) else src == 26 && de
    b != bit m 5) 32

/-- The drain point: the last slot of the frame has been attached (R372). -/
def Dev.tapDrained (d : Dev) (o : Nat) : Dev :=
  let r := d.rast o
  let d := layerNos.foldl (fun (d : Dev) l => if (r.layer l).en then d.tapRetire o l else d) d
  let d := d.modRast o fun r => { r with drained := true, ramped := false, old := r.old ++ r.want, want := [], lines := [] }
  if (d.pat (d.rd (Reg.TAP.CFG.loom o))).burst.any (·.ended.isNone) then d else d.tapLast o

/-- Of the 128 vectors that the merge stage runs ahead of the pins, one that output `o` serves has no slot yet (R359, R360). -/
def Dev.tapAsked (d : Dev) (o : Nat) : Bool :=
  let n := d.rd (Reg.TAP.CFG.loom o)
  (d.pat n).burst.any fun b => b.ended.isNone && decide ((d.rast o).bits.length < d.dpAhead n b o)

/-- The merge stage attaches the next slot of output `o` to a vector (R359 to R365, R370, R372): the raster stands still where no
vector asks for one. A slot whose pixel data is late is not attached (R45). -/
def Dev.rasterSlot (d : Dev) (o : Nat) : Dev :=
  if !d.tapRuns o || !d.tapAsked o then d
  else
    let r := d.rast o
    let start := r.slot == 0 && r.line == 0
    let on := d.unit (kTap o) == .on
    let d := if start && on then d.tapTiming o else d
    let t := (d.rast o).act
    let blank := r.slot == 0 && r.line == (t.vs + t.vb + t.va) % max t.lines 1
    let d' := if blank && on then d.tapLatch o else d
    let d' := if r.slot = 0 then d'.modRast o (·.beginLine r.line) else d'
    match d'.tapBits o with
    | none => d
    | some b =>
      let d := d'
      let d := if start then (d.wr (Reg.TAP.FRAME.count o) (d.rd (Reg.TAP.FRAME.count o) + 1)).evc (0x93 + o) 24 else d
      let eol := r.slot + 1 == t.slots
      let slot := if eol then 0 else r.slot + 1
      let eof := eol && r.line + 1 == t.lines
      let line := if eof then 0 else if eol then r.line + 1 else r.line
      let d := d.modRast o fun r => { r with bits := r.bits ++ [b], slot := slot, line := line }
      let d := ((d.wr (Reg.TAP.POS.slot o) slot).wr (Reg.TAP.POS.line o) line).evc 0x3E (d.rd (Reg.TAP.CFG.loom o))
      if eof && d.unit (kTap o) == .draining then d.tapDrained o else d

def execRasterSlot (o : Fin 2) (s : State) : Out := lift s fun d => d.rasterSlot o.val

/-- The partition of output `o` (R37). -/
def tapPart (o : Nat) : Partition := .tap ⟨o % 2, Nat.mod_lt _ (by decide)⟩

/-- Buffers whose last read has completed retire (R368). -/
def Dev.tapSettle (d : Dev) (o : Nat) : Dev :=
  let r := d.rast o
  let go := r.retiring.filter fun b => !r.reading b.1 b.2
  go.foldl (fun d b => d.tapRetired o b.1 b.2) (d.modRast o fun r => { r with retiring := r.retiring.filter fun b => r.reading b.1 b.2 })

/-- The oldest line of pixel data of layer `l` arrives (R369, R370); `e`: what the correction finds in its halves. The data of a
fetch that is no longer used is discarded. -/
def Dev.pixelLine (d : Dev) (o l : Nat) (e : Ecc × Ecc) : Dev :=
  let r := d.rast o
  match (r.old ++ r.want).find? (·.layer == l) with
  | none => d
  | some w =>
    let q := (d.passing (tapPart o) 1).readLine ⟨5, o⟩ w.line e.1 e.2
    let d := if q.2.isSome then q.1 else q.1.wr (Reg.TAP.STATUS.pix_ecc o) 1
    (d.modRast o fun r =>
      if r.old.any (·.layer == l) then { r with old := r.old.erase w }
      else { r with want := r.want.erase w, lines := Tab.set none r.lines (lineKey l w.row w.k) (some (q.2.getD 0)) }).tapSettle o

def execPixelLineArrives (o : Fin 2) (l : Fin 4) (e : Ecc × Ecc) (s : State) : Out := lift s fun d =>
    d.accessing (if ((d.rast o.val).old ++ (d.rast o.val).want).any (·.layer == l.val) then some (tapPart o.val) else none) (.pixelLineArrives o l e) (·.pixelLine o.val l.val e)

/-! Enable and drain (R371 to R373). -/

/-- The mapped pins of the two outputs meet on one loom. -/
def Dev.tapOverlap (d : Dev) (o : Nat) : Bool :=
  d.unit (kTap (1 - o)) == .on && d.rd (Reg.TAP.CFG.loom o) == d.rd (Reg.TAP.CFG.loom (1 - o))
    && (List.range 32).any fun k => bit (d.pinMap o k) 6 && bit (d.pinMap (1 - o) k) 6

/-- The reason that refuses an enable (R371, R374); R499 bars count as code 2 (DEDUCED). -/
def Dev.tapStartCode (d : Dev) (m : Master) (o : Nat) : Option Nat :=
  let u := d.unit (kTap o)
  if !d.owns m tapBlock then some 1
  else if u = .draining ∨ u = .held ∨ d.safeBars then some 2
  else if d.tapOverlap o then some 3
  else none

/-- An accepted enable of an output that was OFF. -/
def Dev.tapEnable (d : Dev) (o : Nat) : Dev :=
  let d := (d.tapTiming o).tapLatch o
  let d := d.modRast o fun r => { r with slot := 0, line := 0, drained := false, ramped := false, bits := [], old := r.old ++ r.want, want := [], lines := [] }
  (((d.wr (Reg.TAP.FRAME.count o) 0).wr (Reg.TAP.POS.slot o) 0).wr (Reg.TAP.POS.line o) 0).setUnit (kTap o) .on

/-- A quarantine holds the output: what is still read for it is no longer used (R372, R544). -/
def Dev.tapHold (d : Dev) (o : Nat) : Dev :=
  (d.modRast o fun r => { r with old := r.old ++ r.want, want := [], lines := [] }).setUnit (kTap o) .held

/-- A quarantine is over: an output that was HELD is OFF, and what is pending takes effect (R363, R365, R547). -/
def Dev.tapRelease (d : Dev) (o : Nat) : Dev := if d.unit (kTap o) = .held then ((d.setUnit (kTap o) .off).tapTiming o).tapLatch o else d

/-- A drain request: one that stands at frame start with no slot of a frame attached has reached its drain point (DEDUCED). -/
def Dev.tapDrain (d : Dev) (o : Nat) : Dev :=
  let d := d.setUnit (kTap o) .draining
  if (d.rast o).slot = 0 ∧ (d.rast o).line = 0 then d.tapDrained o else d

end Sys2Proof.Machine
end

