-- ==== Sys2Proof/Machine/Fabric.lean ====
section
/-! DEFINITION. The fabric: credits (R33 to R40), unit enables and drains (R51 to R60), Granary initialisation and scrub
(R377, R380, R383), instruction caches (R66, R67). -/
namespace Sys2Proof.Machine
open Sys2Proof

/-! Credits (R37, R39). -/

def execGranaryLineAccess (q : Partition) (line : BitVec 27) (op : LineOp) (e0 e1 : Ecc) (s : State) : Out :=
  lift s fun d => d.lineAccess q line op e0 e1

/-- The credit that requester `q` holds longest returns (R33, R40): the Mill's posted writes come first, and a refill goes on. -/
def Dev.returnCredit (d : Dev) (q : Partition) : Dev :=
  let one := fun k u => Tab.set 0 u k (Tab.get 0 u k - 1)
  let own : Dev := if Tab.get 0 d.inUse (drawKey q) = 0 then d
    else { d with inUse := one (partKey q) (if drawKey q = partKey q then d.inUse else one (drawKey q) d.inUse) }
  match q with
  | .refill n => own.fetchOn n.val
  | .shared n .mill => if (d.mill n.val).posted = 0 then own else d.modMill n.val fun x => { x with posted := x.posted - 1 }.poll
  | _ => own

/-! Initialisation and scrub. -/

/-- DRAM training completes: the scrub starts with scrub_en set (R57, R58). -/
def execDramTrainingComplete (s : State) : Out :=
  lift s fun d =>
    let d := if d.boot.held then d else { d with gran := { d.gran with trained := true } }
    if d.gran.trained && d.on Reg.GLB_UNIT_ENABLE.scrub_en && d.unit kScrub == .off then d.setUnit kScrub .on else d

/-- Every line holds zeros and valid check symbols, and the controller accepts requests (R377). Stage TRAIN becomes VERIFY,
and the power-up record is queued (R597, R598). -/
def Dev.granInit (d : Dev) : Dev :=
  if !d.gran.trained || d.granOpen then d
  else
    let d := { d with gran := { d.gran with cells := [], bad := [] } }.wr Reg.GLB_STATUS.gran_ready 1
    if d.rd Reg.SEC_STATUS.stage = 1 then (d.wr Reg.SEC_STATUS.stage 2).logRec 0x01 (d.rd Reg.SEC_STATUS.reset_cause) else d

/-- The scrub reads line `l`, and finds `e0` and `e1` in its halves, or what they hold. A line that it can read it writes back
corrected; one with an uncorrectable half it reports and leaves unchanged (R383). A corrected error is reported as every one is,
and its line enters the revisit queue (R380). -/
def Dev.scrubLine (d : Dev) (l : Nat) (e0 e1 : Ecc) : Dev :=
  let r := d.readLine ⟨0, 0⟩ l e0 e1
  if r.2.isSome then (r.1.setEcc (2 * l) .good).setEcc (2 * l + 1) .good else r.1

/-- The patrol reads lines of its present group of 256, not past its end; a group that a drain cut goes on where the position
stands (R54, R383). Lines of the revisit queue come first (R380). -/
def Dev.scrub (d : Dev) (r : ScrubRun) : Dev :=
  if d.unit kScrub ≠ .on ∨ !d.gran.revisit.isEmpty then d
  else
    let l := d.rd Reg.GLB_SCRUB_POS.line
    let k := min r.lines.val (256 - l % 256)
    let found := fun j => ((r.found.find? (·.1 == j)).map (·.2)).getD .good
    let d := iter (fun j d => d.scrubLine (l + j) (found (2 * j)) (found (2 * j + 1))) k (d.passing .scrub k)
    let d := d.evcBy 0x87 24 k
    if l + k < 2 ^ 27 then d.wr Reg.GLB_SCRUB_POS.line (l + k)
    else (d.wr Reg.GLB_SCRUB_POS.line 0).wr Reg.GLB_SCRUB_PASS.count (d.rd Reg.GLB_SCRUB_PASS.count + 1)

/-- The partition that the scrub draws on while it is ON (R37, R383). -/
def Dev.scrubPart (d : Dev) : Option Partition := if d.unit kScrub = .on then some .scrub else none

def execScrubGroup (found : ScrubRun) (s : State) : Out := lift s fun d => d.accessing d.scrubPart (.scrubGroup found) (·.scrub found)

/-- The oldest line of the revisit queue is served (R380). -/
def Dev.revisitOne (d : Dev) : Dev :=
  match d.gran.revisit with
  | l :: rest =>
    if d.unit kScrub ≠ .on then d
    else ({ d.passing .scrub 1 with gran := { d.gran with revisit := rest } }.scrubLine l .good .good).evc 0x87 24
  | [] => d

def execScrubRevisit (s : State) : Out := lift s fun d => d.accessing d.scrubPart .scrubRevisit (·.revisitOne)

/-! Instruction caches (R66, R67). -/

/-- Lines that a cache of 8,192 instruction words holds. -/
def icacheLines : Nat := 384

/-- Line `l` in the cache of shuttle `sh`. -/
def Dev.cached (d : Dev) (sh l : Nat) : Option Line := ((Tab.get [] d.icache sh).find? (·.1 == l)).map (·.2)

/-- The word at byte address `a`, from the lines that the cache of shuttle `sh` holds. -/
def Dev.cachedWord (d : Dev) (sh a : Nat) : Option W24 :=
  match d.cached sh (a / 64), d.cached sh ((a + 2) / 64) with
  | some u, some v => some (((v ++ u) >>> (8 * (a % 64))).setWidth 24)
  | _, _ => none

/-- The line that context `c` misses: the first of those that hold its instruction word and then, where that word has one in
the program region, its extension word (R66, R68, R69, R77). -/
def Dev.icacheMiss (d : Dev) (sh c : Nat) : Option Nat :=
  let a := d.progBase + 3 * (d.ctx c).pc.toNat
  match [a / 64, (a + 2) / 64].find? fun l => (d.cached sh l).isNone with
  | some l => some l
  | none =>
    if (d.cachedWord sh a).any hasExt && (d.ctx c).pc != 0xFFFFFF then
      [(a + 3) / 64, (a + 5) / 64].find? fun l => (d.cached sh l).isNone
    else none

/-- A line enters the cache of shuttle `sh`; the one numbered `evict` leaves a full cache. -/
def Dev.icacheKeep (d : Dev) (sh l : Nat) (v : Line) (evict : Nat) : Dev :=
  let q := Tab.get [] d.icache sh
  { d with icache := Tab.set [] d.icache sh ((l, v) :: (if q.length < icacheLines then q else q.eraseIdx (evict % icacheLines))) }

/-- Line `k` of a page of the XIP cache. -/
def pageLine (p : BitVec 32768) (k : Nat) : Line := p.extractLsb' (512 * k) 512

/-- The line that a fetch of context `c` lacks is read, or the fetch faults (R66, R116). In the XIP window the page comes
from the XIP cache (R442). -/
def Dev.icacheFill (d : Dev) (sh c evict : Nat) : Dev :=
  let x := d.ctx c
  if x.home.toNat ≠ sh ∨ x.state ≠ .ready ∨ !x.slot.isSome ∨ !d.shuttleRuns sh then d
  else match d.icacheMiss sh c with
    | none => d
    | some l =>
      match d.xipOff sh (64 * l) with
      | some o =>
        match d.flash.page (o / 4096) with
        | none => d.askFill (o / 4096) c true
        | some p => { d with flash := d.flash.use (o / 4096) }.icacheKeep sh l (pageLine p (o % 4096 / 64)) evict
      | none =>
        let d := if sh < 24 then d.evc 0x24 sh else d
        let r := (d.passing (shuttlePart sh) 1).readLine (.shuttle sh) l .good .good
        match r.2 with
        | some v => r.1.icacheKeep sh l v evict
        | none => r.1.faultCtx c (fFetch 1)

/-- The partition through which a fill for context `c` reads a line that its shuttle lacks (R37, R66). -/
def Dev.fillPart (d : Dev) (sh c : Nat) : Option Partition :=
  let x := d.ctx c
  if x.home.toNat ≠ sh ∨ x.state ≠ .ready ∨ !x.slot.isSome ∨ !d.shuttleRuns sh then none
  else match d.icacheMiss sh c with
    | some l => if (d.xipOff sh (64 * l)).isNone then some (shuttlePart sh) else none
    | none => none

def execIcacheLineFill (sh : Fin 25) (c : Fin 10240) (evict : Nat) (s : State) : Out :=
  lift s fun d => d.accessing (d.fillPart sh.val c.val) (.icacheLineFill sh c evict) (·.icacheFill sh.val c.val evict)

def execIcacheInvalidateComplete (sh : Fin 25) (s : State) : Out :=
  lift s fun d =>
    if Tab.get false d.icacheBusy sh.val then
      { d with icache := Tab.set [] d.icache sh.val [], icacheBusy := Tab.set false d.icacheBusy sh.val false }
    else d

/-! Enables and drains (R51 to R58). -/

/-- The block that a unit's enable bit belongs to (R57, R535, R619). -/
def unitBlock : UnitId → Nat
  | .shuttle n => loomBlock n.val
  | .pattern n => loomBlock n.val
  | .mill n => loomBlock n.val
  | .capture n => loomBlock n.val
  | .tme n => loomBlock n.val
  | .dma _ => dmaBlock
  | .tap _ => tapBlock
  | .scrub => 0

/-- The start_reject flag of a unit (R58, R60). -/
def unitReject : UnitId → Fld
  | .shuttle n => Reg.LOOM.UNIT_STATE.start_reject n.val
  | .pattern n => Reg.LOOM.UNIT_STATE.start_reject n.val
  | .mill n => Reg.LOOM.UNIT_STATE.start_reject n.val
  | .capture n => Reg.LOOM.UNIT_STATE.start_reject n.val
  | .tme n => Reg.LOOM.UNIT_STATE.start_reject n.val
  | _ => Reg.GLB_UNIT_STATE.start_reject

/-- Whether an enable bit reads 1 (R621): scrub_en does so while its start waits for training (R57). -/
def Dev.enabled (d : Dev) (u : UnitId) : Bool :=
  d.unit (unitKey u) == .on || (u == .scrub && d.unit kScrub == .off && d.on Reg.GLB_UNIT_ENABLE.scrub_en)

/-- A write of 1 to a unit's enable bit (R53, R499). -/
def Dev.unitOn (d : Dev) (m : Master) (u : UnitId) : Dev :=
  let k := unitKey u
  let own := d.owns m (unitBlock u)
  if d.enabled u then d
  else
    let bars := !own || d.unit k == .draining || d.unit k == .held || d.safeBars
    match u with
    | .tap o =>
      match d.tapStartCode m o.val with
      | some c => (d.wr (Reg.TAP.STATUS.start_code o.val) c).rejectWith (unitReject u) (!own)
      | none => d.tapEnable o.val
    | .scrub =>
      if bars then d.rejectWith (unitReject u) (!own)
      else
        let d := d.wr Reg.GLB_UNIT_ENABLE.scrub_en 1
        if d.gran.trained then d.setUnit k .on else d
    | _ => if bars then d.rejectWith (unitReject u) (!own) else d.setUnit k .on

/-- The pattern path of loom `n` is drained: the burst ends with the period in progress (R54, R107), and pinned segments
leave the loop window. -/
def Dev.patDrain (d : Dev) (n : Nat) : Dev :=
  let d := d.setUnit (kPattern n) .draining
  let d := d.modPat n Pat.emptyWindow
  match (d.pat n).burst with
  | some b =>
    if b.ended.isSome then d
    else if b.started then d.modBurst n fun b => { b with halt := some (b.halt.getD 4) }
    else d.endPlay n 4
  | none => d.rampPins n fun _ => true

/-- A unit is drained: a write of 0 by any master, or a drain that the device makes itself (R51, R54). -/
def Dev.unitDrain (d : Dev) (u : UnitId) : Dev :=
  let k := unitKey u
  if d.unit k ≠ .on then (if u = .scrub ∧ d.unit k = .off then d.wr Reg.GLB_UNIT_ENABLE.scrub_en 0 else d)
  else match u with
    | .pattern n => d.patDrain n.val
    | .mill n => (d.setUnit k .draining).millCut n.val 4
    | .capture n => ((d.setUnit k .draining).capEnd n.val 2).cmpSettle n.val
    | .tme n => ((d.setUnit k .draining).tmeDrain n.val).cmpSettle n.val
    | .tap o => d.tapDrain o.val
    | .scrub => (d.wr Reg.GLB_UNIT_ENABLE.scrub_en 0).setUnit k .draining
    | .dma i => (d.modDma i.val fun x => { x with parked := false }).setUnit k .draining
    | _ => d.setUnit k .draining

/-- A write of 1 that a write of 0 in the same arbitration step beats (R53). A Tapestry output records why it is refused; that the
output was OFF counts as code 2 there (R371; DESIGN CHOICE, log entry 115). -/
def Dev.unitClash (d : Dev) (m : Master) (u : UnitId) : Dev :=
  let d := d.unitDrain u
  let d := match u with
    | .tap o => d.wr (Reg.TAP.STATUS.start_code o.val) ((d.tapStartCode m o.val).getD 2)
    | _ => d
  d.rejectWith (unitReject u) (!d.owns m (unitBlock u))

/-- A write of 1 to an enable bit (R53, R206). -/
def Dev.unitEnable (d : Dev) (m : Master) : EnableReq → Dev
  | .unit u clash => if clash then d.unitClash m u else d.unitOn m u
  | .mon id clash => d.monEnable m id clash

def execUnitEnable (p : Port) (u : EnableReq) (s : State) : Out := lift s fun d => d.unitEnable p.master u

def execDrainRequest (_p : Port) (u : UnitId) (s : State) : Out := lift s fun d => d.unitDrain u

/-- No pin of loom `n` that `p` accepts ramps. -/
def Dev.rampsDone (d : Dev) (n : Nat) (p : Nat → Bool) : Bool :=
  (List.range 32).all fun k => !p k || (d.chan (32 * n + k)).ramp != .pattern

/-- The drain point of a unit is reached, its Granary transactions are complete and its ramps are over (R51, R54, R55). -/
def Dev.drained (d : Dev) (u : UnitId) : Bool :=
  match u with
  | .shuttle n => (d.ctxs.all fun e => e.2.home.toNat != n.val || e.2.slot.isNone || e.2.atPause) && d.noAccess (.shared n .shuttle)
  | .pattern n =>
    (d.pat n.val).burst.isNone && (d.pat n.val).queue.isEmpty && d.rampsDone n.val (fun _ => true)
      && (d.pat n.val).inFlight == 0 && d.noAccess (.refill n) && d.noAccess (.shared n .failLog)
  | .mill n => (d.mill n.val).state == mIdle && (d.mill n.val).posted == 0 && d.noAccess (.shared n .mill)
  | .capture n => !d.capBusy n.val && d.noAccess (.shared n .capture)
  | .tme n => d.tmeQuiet n.val
  | .dma i => d.dmaQuiet i.val && d.noAccess (.dma i)
  | .tap o =>
    (d.rast o.val).drained && (d.rast o.val).bits.isEmpty && (d.rast o.val).quiet && (d.rast o.val).ramped && d.noAccess (.tap o)
      && d.rampsDone (d.rd (Reg.TAP.CFG.loom o.val)) (fun k => bit (d.pinMap o.val k) 6)
  | .scrub => d.noAccess .scrub

/-- A drain is complete: the unit is OFF. The resident contexts of a shuttle are saved in their states (R54). -/
def Dev.drainEnd (d : Dev) (u : UnitId) : Dev :=
  if d.unit (unitKey u) = .draining ∧ d.drained u then
    let d := d.setUnit (unitKey u) .off
    match u with
    | .shuttle n =>
      { d with ctxs := d.ctxs.map fun e => if e.2.home.toNat = n.val then (e.1, { e.2 with slot := none, leave := false }) else e }
    | .pattern n => d.cmpSettle n.val
    | .capture n => d.cmpSettle n.val
    | .tme n => d.cmpSettle n.val
    | _ => d
  else d

def execDrainComplete (u : UnitId) (s : State) : Out := lift s fun d => d.drainEnd u

end Sys2Proof.Machine
end

