-- ==== Sys2Proof/Machine/Crc.lean ====
section
/-! DEFINITION. The check codes of the device: CRC-8 of Reed frames (R418), CRC-16 of log records (R504), CRC-32 of the
MRAM blocks and the boot directory (R508, R600). -/
namespace Sys2Proof.Machine
open Sys2Proof

/-- One bit into a `w`-bit check, most significant bit first. -/
def crcStep (w poly c : Nat) (b : Bool) : Nat :=
  if bit c (w - 1) != b then (c * 2 % 2 ^ w) ^^^ poly else c * 2 % 2 ^ w

/-- The low `n` bits of `v`, most significant first. -/
def bitsMsb (v : Nat) : Nat → List Bool
  | 0 => []
  | n + 1 => bit v n :: bitsMsb v n

/-- The CRC-8 of R418 over bits [59:8] of a frame. -/
def crc8 (frame : Nat) : Nat := (bitsMsb (frame / 2 ^ 8) 52).foldl (crcStep 8 0x07) 0

/-- The CRC-16 of R504. -/
def crc16 (bs : List Byte) : Nat := bs.foldl (fun c b => (bitsMsb b.toNat 8).foldl (crcStep 16 0x1021) c) 0xFFFF

/-- One bit into the CRC-32 of IEEE 802.3, least significant bit first. -/
def crc32Step (c : Nat) : Nat := if bit c 0 then (c / 2) ^^^ 0xEDB88320 else c / 2

/-- The CRC-32 of IEEE 802.3. -/
def crc32 (bs : List Byte) : Nat :=
  (bs.foldl (fun c b => crc32Step (crc32Step (crc32Step (crc32Step (crc32Step (crc32Step (crc32Step (crc32Step (c ^^^ b.toNat))))))))) 0xFFFFFFFF)
    ^^^ 0xFFFFFFFF

end Sys2Proof.Machine
end

