-- ==== Sys2Proof/Machine/NvLog.lean ====
section
/-! DEFINITION. The non-volatile log: the MRAM (R503), its records (R504 to R507), and the two blocks that are held as
two copies (R508). -/
namespace Sys2Proof.Machine
open Sys2Proof

/-- The block of temperature, power governor and log (R535). -/
def thermBlock : Nat := 5

/-- A byte of the MRAM; the identity hash and the serial were written at manufacture (R503). -/
def Dev.mramByte (d : Dev) (a : Nat) : Byte :=
  if 0x8000 ≤ a ∧ a < 0x8020 then Config.identityHash.extractLsb' (8 * (a - 0x8000)) 8
  else if 0x8020 ≤ a ∧ a < 0x8026 then Config.serial.extractLsb' (8 * (a - 0x8020)) 8
  else Tab.get 0 d.log.mram a

/-- `n` bytes of the MRAM. -/
def Dev.mramBytes (d : Dev) (a n : Nat) : List Byte := (List.range n).map fun i => d.mramByte (a + i)

/-- Bytes written from address `a`. -/
def mramPut (t : Tab Byte) (a : Nat) : List Byte → Tab Byte
  | [] => t
  | b :: l => mramPut (Tab.set 0 t a b) (a + 1) l

def Dev.mramWrite (d : Dev) (a : Nat) (bs : List Byte) : Dev := { d with log := { d.log with mram := mramPut d.log.mram a bs } }

/-! Records. -/

/-- The sixteen bytes of a record (R504). -/
def logBytes (seq : BitVec 32) (e : LogEntry) : List Byte :=
  let b := leBytes 4 seq.toNat ++ leBytes 6 e.time.toNat ++ leBytes 1 e.code ++ leBytes 3 e.data
  b ++ leBytes 2 (crc16 b)

/-- The oldest record of the queue is written to the ring, and a record that waits for room enters the queue (R504, R506). -/
def Dev.logWrite (d : Dev) : Dev :=
  match d.log.queue with
  | [] => d
  | e :: t =>
    let d := (d.mramWrite (16 * d.log.slot) (logBytes d.log.seq e)).evc 0x98 24
    { d with log := { d.log with slot := (d.log.slot + 1) % 2048, seq := d.log.seq + 1,
                                 queue := t ++ d.log.waiting.take 1, waiting := d.log.waiting.drop 1 } }

def execLogRecordWrite (s : State) : Out := lift s fun d => d.logWrite

/-- Every record that waits is written, oldest first. -/
def Dev.logDrain (d : Dev) : Dev := iter (fun _ d => d.logWrite) (d.log.queue.length + d.log.waiting.length) d

/-- A write of `LOG_HOST_HI` queues a host record (R507, R510); its data is the port's pending low word (R19). A
write that leaves both fields as they stand is not judged (R617); the owner's queues its record again, which is DEDUCED. -/
def Dev.logHost (d : Dev) (p : Port) (v : Nat) : Dev :=
  let k := portKey p
  let low := d.lowFor k 0x348 (d.rd Reg.LOG_HOST_LO.data)
  let d := d.useLow k 0x348
  let code := v % 256
  let same := code == d.rd Reg.LOG_HOST_HI.code && low == d.rd Reg.LOG_HOST_LO.data
  if same && (!d.owns p.master thermBlock || decide (code < 0x40 ∨ 0x7F < code)) then d
  else if !d.owns p.master thermBlock then d.rejectWith Reg.TH_STATUS.cmd_reject true
  else if code < 0x40 ∨ 0x7F < code then d.rejectWith Reg.LOG_STATUS.write_reject false
  else ((d.wr Reg.LOG_HOST_LO.data low).wr Reg.LOG_HOST_HI.code code).logRec code low

def execLogHostRecord (p : Port) (v : BitVec 32) (s : State) : Out := lift s fun d => d.logHost p v.toNat

/-! The blocks held as two copies (R508). -/

/-- A copy at address `a` is valid. -/
def Dev.copyOk (d : Dev) (a : Nat) : Bool := crc32 (d.mramBytes a 60) == leVal (d.mramBytes (a + 60) 4)

/-- The generation of a copy. -/
def Dev.copyGen (d : Dev) (a : Nat) : Nat := leVal (d.mramBytes a 4)

/-- The current copy of the block at `a`: the valid copy with the higher generation; none where neither is valid. -/
def Dev.copyOf (d : Dev) (a : Nat) : Option Nat :=
  if d.copyOk a && (!d.copyOk (a + 64) || decide (d.copyGen (a + 64) ≤ d.copyGen a)) then some a
  else if d.copyOk (a + 64) then some (a + 64) else none

/-- Where the next update of the block at `a` goes, and the sixty bytes with generation and fields `f`. -/
def Dev.copyNext (d : Dev) (a : Nat) (f : List Byte) : Nat × List Byte :=
  match d.copyOf a with
  | some c => (2 * a + 64 - c, leBytes 4 (d.copyGen c + 1) ++ f)
  | none => (a + 64, leBytes 4 1 ++ f)

/-- The other copy of the block at `a` is written, with fields `f` of 56 bytes. -/
def Dev.copyWrite (d : Dev) (a : Nat) (f : List Byte) : Dev :=
  let r := d.copyNext a f
  d.mramWrite r.1 (r.2 ++ leBytes 4 (crc32 r.2))

/-- Bytes 4 on of the current copy, as it stands; zeros where no copy is valid. -/
def Dev.copyField (d : Dev) (a o n : Nat) : Nat :=
  match d.copyOf a with
  | some c => leVal (d.mramBytes (c + o) n)
  | none => 0

/-- The lifetime counters as the next update writes them (R508). -/
def Dev.lifeNext (d : Dev) (hours : Nat) : List Byte :=
  let f := fun o => d.copyField 0x8100 o 4
  let x := d.log.life
  let old := if (d.copyOf 0x8100).isSome then some (sext 16 (d.copyField 0x8100 20 2)) else none
  let top := match old, x.maxTemp with
    | some a, some b => if a < b then b else a
    | some a, none => a
    | none, some b => b
    | none, none => 0
  leBytes 4 (f 4 + hours) ++ leBytes 4 (f 8 + x.releases) ++ leBytes 4 (f 12 + x.halts) ++ leBytes 4 (f 16 + x.trips)
    ++ leBytes 2 (toCode 16 top) ++ leBytes 2 0 ++ leBytes 4 (f 24 + b2n x.warn) ++ leBytes 4 (f 28 + x.faults)
    ++ leBytes 4 (f 32 + x.dropped) ++ leBytes 24 0

/-- An hour of power: the counters gain what has come about since the last update. -/
def execLifetimeHourUpdate (s : State) : Out :=
  lift s fun d =>
    let d := d.copyWrite 0x8100 (d.lifeNext 1)
    { d with log := { d.log with life := { warn := d.on Reg.TH_STATUS.warn } } }

/-- next_index of the HSS state (R508, R615). -/
def Dev.hssNext (d : Dev) : Nat :=
  if (d.copyOf 0x8200).isSome then d.copyField 0x8200 4 4 else Config.hssIndex.toNat

end Sys2Proof.Machine
end

