-- ==== Sys2Proof/Machine/Reed.lean ====
section
/-! DEFINITION. The Reed bus: frames, sending, alignment, echo rounds and loss of lock (R414 to R433). -/
namespace Sys2Proof.Machine
open Sys2Proof

/-- Taps in a Reed tick (R422): 10 ns of 0.9765625 ps. -/
def tapsPerTick : Nat := 10240

/-- The Reed region (R535). -/
def reedBlock : Nat := 8

/-- Roles (R433). -/
def Dev.reedRole (d : Dev) : Nat := d.rd Reg.REED_CTRL.role
/-- The state of R421: 0 OFF, 1 ACQUIRE, 2 ECHO, 3 ALIGNED, 4 HOLDOVER, 5 UNALIGNED. -/
def Dev.reedState (d : Dev) : Nat := d.rd Reg.REED_STATE.state
def Dev.setReedState (d : Dev) (v : Nat) : Dev := d.wr Reg.REED_STATE.state v
/-- The slot s (R415). -/
def Dev.reedSlot (d : Dev) : Nat := 16 * d.rd Reg.REED_CTRL.branch + d.rd Reg.REED_CTRL.position
/-- The repeater count r (R415). -/
def Dev.repeaters (d : Dev) : Nat :=
  if d.rd Reg.REED_CTRL.branch = 0 then d.rd Reg.REED_CTRL.position - 1 else d.rd Reg.REED_CTRL.position
/-- Slots in the uplink cycle: 2^k (R427). -/
def Dev.upSlots (d : Dev) : Nat := 2 ^ d.rd Reg.REED_LAT.upslots_log2
/-- Whether an EVENT may be late (R429). -/
def Dev.lateRisk (d : Dev) : Bool :=
  decide (Int.ofNat (d.rd Reg.REED_LAT.ticks * tapsPerTick) < sext 32 (d.rd Reg.REED_DELAY.d) + 204800)

/-- A Reed write is ignored (R431). -/
def Dev.reedReject (d : Dev) (own : Bool) : Dev := d.rejectWith Reg.REED_CTRL.cfg_reject own

/-! Frames (R418, R419). -/

/-- A frame with its CRC. -/
def mkFrame (type code aux ts : Nat) : BitVec 64 :=
  let v := 0b1011 * 2 ^ 60 + type % 16 * 2 ^ 56 + code % 256 * 2 ^ 48 + aux % 256 * 2 ^ 40 + ts % 2 ^ 32 * 2 ^ 8
  BitVec.ofNat 64 (v + crc8 v)

def fType (f : BitVec 64) : Nat := bits f.toNat 56 4
def fCode (f : BitVec 64) : Nat := bits f.toNat 48 8
def fAux (f : BitVec 64) : Nat := bits f.toNat 40 8
def fStamp (f : BitVec 64) : Nat := bits f.toNat 8 32

/-- A frame of type `t` whose CRC matches (R419). -/
def frameOk (t : Nat) (f : BitVec 64) : Bool := fType f == t && crc8 f.toNat == bits f.toNat 0 8

/-- A frame that R419 discards: its CRC does not match, or its type is reserved. -/
def frameBroken (f : BitVec 64) : Bool := crc8 f.toNat != bits f.toNat 0 8 || !(decide (1 ≤ fType f ∧ fType f ≤ 4) || fType f == 8 || fType f == 9)

/-- A frame is discarded and counted (R419). -/
def Dev.frameBad (d : Dev) : Dev := ((d.bump Reg.REED_CRC_ERR.count).flag Reg.REED_IRQ.crc).evc 0x82 24

/-- A frame that is not of the type awaited: one of another type is no concern of this command. -/
def Dev.frameOther (d : Dev) (f : BitVec 64) : Dev := if frameBroken f then d.frameBad else d

/-- A member whose downlink runs (R421, R430). -/
def Dev.listens (d : Dev) : Bool := d.reedRole == 2 && d.reedState != 0 && d.reedState != 4

/-- REED_CLK_OUT carries the clock, and the event lanes run: in OFF and in HOLDOVER they are held static low (R420, R421). -/
def Dev.reedClkOut (d : Dev) : Bool := d.reedState != 0 && d.reedState != 4

/-- A downlink frame passes on, retimed (R420). -/
def Dev.forward (d : Dev) (lane : Bool) (f : BitVec 64) : Dev :=
  if lane then { d with reed := { d.reed with out1 := some f } } else { d with reed := { d.reed with out0 := some f } }

/-- The most recent Reed time, at or before `now`, whose low 32 bits are `ts` (R426). -/
def fullTime (now ts : Nat) : Nat := (now + 2 ^ 48 - (now + 2 ^ 32 - ts) % 2 ^ 32) % 2 ^ 48

/-! Acting on an event (R428). -/

/-- Whether a code matches under a mask (R93, R109). -/
def codeMatch (code want mask : Nat) : Bool := decide ((code &&& mask) = (want &&& mask))

/-- The device acts on an event: the waits on it end, and it is counted. Capture triggers and time measurement edges of
the same tick are the commands TRIGGER_DECISION and TME_TIMESTAMP. -/
def Dev.reedAct (d : Dev) (a : ReedAct) : Dev :=
  let d := d.signal fun s => s / 2 ^ 20 == 1 && codeMatch a.code.toNat (s % 256) (s / 256 % 256)
  let d := d.eventRelease (fun x => match x.wait with
    | .recv code mask _ _ _ => codeMatch a.code.toNat code.toNat mask.toNat
    | _ => false) (.event a.code a.stamp)
  (d.routeReed a.code).evc 0x81 24

/-- An event emitted at `stamp` is taken in: it acts at emission time + latency, or at once where that has passed. -/
def Dev.schedAct (d : Dev) (lane : Bool) (code : BitVec 8) (stamp : Nat) : Dev :=
  let act := (stamp + d.rd Reg.REED_LAT.ticks) % 2 ^ 48
  let a : ReedAct := ⟨BitVec.ofNat 48 act, lane, code, BitVec.ofNat 48 stamp⟩
  if reached d.now act && d.now != act then
    (((d.reedAct a).bump Reg.REED_LATE.count).flag Reg.REED_IRQ.late).evc 0x84 24
  else { d with reed := { d.reed with acts := d.reed.acts ++ [a] } }

/-! Sending (R427, R430, R431). -/

/-- A SEND is discarded. -/
def Dev.sendDrop (d : Dev) : Dev := (d.bump Reg.REED_SEND_DROP.count).flag Reg.REED_IRQ.send_drop

/-- Entries of the root's queue of a lane, and of a member's uplink queue (R420, R427). -/
def laneDepth : Nat := 64
def upDepth : Nat := 16

/-- The queue of a lane. -/
def Reed.lane (r : Reed) (lane : Bool) : List LaneFrame := if lane then r.lane1 else r.lane0
def Reed.setLane (r : Reed) (lane : Bool) (q : List LaneFrame) : Reed :=
  if lane then { r with lane1 := q } else { r with lane0 := q }

/-- A frame enters a lane queue of the root: none where it finds no credit. -/
def Dev.laneTake (d : Dev) (lane : Bool) (f : LaneFrame) : Option Dev :=
  if (d.reed.lane lane).length < laneDepth then some { d with reed := d.reed.setLane lane (d.reed.lane lane ++ [f]) } else none

/-- A SEND, or the end event of a waveform, reaches the interface: none where it waits for a credit. -/
def Dev.sendTake (d : Dev) (code : BitVec 8) (lane : Bool) : Option Dev :=
  if d.reedState = 0 ∨ d.reedState = 4 then some d.sendDrop
  else if d.reedRole = 1 then
    d.laneTake lane ⟨1, code, 0, 0⟩
  else if d.reedRole = 2 then
    if d.reed.upq.length < upDepth then
      some ({ d with reed := { d.reed with upq := d.reed.upq ++ [(code, lane, d.reed.time)] } }.peak Reg.REED_UPQ.peak (d.reed.upq.length + 1))
    else none
  else some (((d.forward lane (mkFrame 1 code.toNat d.reedSlot d.now)).evc 0x83 24).schedAct lane code d.now)

/-- A waveform source has no context to hold: its end event waits under this number. -/
def noCtx : Nat := 10240

/-- An end event of a waveform (R285): it is sent, or waits in order for a credit. -/
def Dev.sendEvent (d : Dev) (code : BitVec 8) : Dev :=
  match d.sendTake code false with
  | some d' => d'
  | none => { d with reed := { d.reed with sendWait := d.reed.sendWait ++ [{ ctx := noCtx, code := code, lane := false }] } }

/-- A frame that the root relays, or sends of its own, enters its lane queue, or waits in order for a credit (R33, R420). -/
def Dev.laneFrame (d : Dev) (lane : Bool) (f : LaneFrame) : Dev :=
  match d.laneTake lane f with
  | some d' => d'
  | none => { d with reed := { d.reed with sendWait := d.reed.sendWait ++ [{ ctx := noCtx, code := f.code, lane := lane, frame := some f }] } }

/-- What waits enters its queue, where it finds a credit. -/
def Dev.waitTake (d : Dev) (e : SendWait) : Option Dev :=
  match e.frame with
  | some f => d.laneTake e.lane f
  | none => d.sendTake e.code e.lane

/-- The first waiting one that finds a credit now, with the waiting ones left. -/
def Dev.nextSend (d : Dev) : List SendWait → Option (Dev × Nat × List SendWait)
  | [] => none
  | e :: t =>
    match d.waitTake e with
    | some d' => some (d', e.ctx, t)
    | none => (d.nextSend t).map fun r => (r.1, r.2.1, e :: r.2.2)

/-- A credit has come back: the first that it serves enters its queue (R33). -/
def Dev.sendCredit (d : Dev) : Dev :=
  match d.nextSend d.reed.sendWait with
  | some (d', c, rest) => { d' with reed := { d'.reed with sendWait := rest } }.sendDone c
  | none => d

/-- Every SEND that waits, and every entry of the uplink queue, is discarded (R430). -/
def Dev.dropSends (d : Dev) : Dev :=
  let w := d.reed.sendWait.filter (·.frame.isNone)
  let k := d.reed.upq.length + w.length
  let d := if k = 0 then d else (d.bumpBy Reg.REED_SEND_DROP.count k).flag Reg.REED_IRQ.send_drop
  w.foldl (fun d e => d.sendDone e.ctx) { d with reed := { d.reed with upq := [], sendWait := d.reed.sendWait.filter (·.frame.isSome) } }

/-- The outputs fall silent. -/
def Reed.silent (r : Reed) : Reed := { r with out0 := none, out1 := none, outUp := none }

/-! Delay and time (R422, R424, R425). -/

/-- The delay that a value of RTT − h gives, with the trim given (R422). -/
def Dev.delayFrom (d : Dev) (path trim : Nat) : Int :=
  let v : Int := sext 32 path + Int.ofNat (d.repeaters * 20480)
  (v + (if v % 2 = 0 then 0 else if Config.halfUp v then 1 else -1)) / 2 + sext 24 trim

/-- d in use. -/
def Dev.delay (d : Dev) : Int := sext 32 (d.rd Reg.REED_DELAY.d)
def Dev.setDelay (d : Dev) (v : Int) : Dev := d.wr Reg.REED_DELAY.d (toCode 32 v)

/-- A new delay arrives (R424): an ALIGNED member moves to it by taps, or refuses the jump; any other takes it. -/
def Dev.newDelay (d : Dev) (v : Int) : Dev :=
  if d.reedState = 3 then
    if (v - d.delay).natAbs ≤ 64 then { d with reed := { d.reed with dTarget := v } } else d.flag Reg.REED_IRQ.delay_jump
  else { d.setDelay v with reed := { d.reed with dTarget := v, hasDelay := true } }

/-- Reed time steps to `t`, its ticks `off` taps off those of the clock. What was left of a slew of the time before is over; an end
of the uplink hold and a wait for an uplink slot, which are durations, move with the step (R423, R425). -/
def Dev.stepTime (d : Dev) (t off : Nat) : Dev :=
  let by_ := BitVec.ofNat 48 t - d.reed.time
  { d with reed := { d.reed with
      time := BitVec.ofNat 48 t, counting := true, tOffset := 0, tapsOff := Int.ofNat off, holdUntil := d.reed.holdUntil + by_,
      pollAt := d.reed.pollAt + by_, slotAt := none, syncAt := none } }

/-- UNALIGNED is entered. -/
def Dev.unalign (d : Dev) : Dev := (d.setReedState 5).flag Reg.REED_IRQ.unaligned

/-- The signed distance from `a` to `b`, in taps, of times that wrap after 2^48 ticks. -/
def tapDist (a b : Int) : Int :=
  let m : Int := Int.ofNat (2 ^ 48 * tapsPerTick)
  let r := (b - a) % m
  if 2 * r < m then r else r - m

/-- The SYNC that names `t` reaches a member that holds a d, `taps` into its own tick (R425). -/
def Dev.sync (d : Dev) (t taps : Nat) : Dev :=
  let v : Int := Int.ofNat (t * tapsPerTick) + d.delay
  let tick := (v / Int.ofNat tapsPerTick % Int.ofNat (2 ^ 48)).toNat
  let off := tapDist (Int.ofNat (d.now * tapsPerTick + taps)) v
  let stepped := d.stepTime tick ((v - Int.ofNat taps + d.reed.tapsOff) % Int.ofNat tapsPerTick).toNat
  let st := d.reedState
  if st = 2 ∧ d.reed.hasDelay then
    if d.reed.afterHold then
      if off.natAbs ≤ 5120 then { d.setReedState 3 with reed := { d.reed with tOffset := off, synced := true } }
      else { d.unalign with reed := { d.unalign.reed with tOffset := 0 } }
    else { stepped.setReedState 3 with reed := { stepped.reed with synced := true } }
  else if st = 3 then if tick = d.now then d else (d.flag Reg.REED_IRQ.sync_err).unalign
  else if st = 5 ∧ d.reed.resync then { stepped.setReedState 3 with reed := { stepped.reed with resync := false } }
  else d

/-! Echo rounds (R422, R423). -/

/-- A REPLY that is launched now, after a hold of `ticks` and a free part of a tick (R423). -/
def Dev.replyNow (d : Dev) (ticks lim : Nat) : Dev :=
  let h := ticks * tapsPerTick + Config.freeTaps d.freeCtr % lim
  { d with reed := { d.reed with outUp := some (mkFrame 9 d.reedSlot 0 h), pollWait := false } }.tookFree

/-- An echo round begins at slot 1. -/
def Dev.roundStart (d : Dev) (initial : Bool) : Dev :=
  { d with reed := { d.reed with round := some ⟨initial, 1, 0, []⟩ } }

/-- An echo round ends: members are the devices that replied, and the root. -/
def Dev.roundEnd (d : Dev) (r : EchoRound) : Dev :=
  let m := r.replies + 1
  let d := if m = d.rd Reg.REED_ROOT_STAT.members then d else (d.wr Reg.REED_ROOT_STAT.members m).flag Reg.REED_IRQ.members_changed
  { d.flag Reg.REED_IRQ.round_done with reed := { (d.flag Reg.REED_IRQ.round_done).reed with round := none } }

/-- A round sends its next POLL, or ends; a slot of an initial round that has not answered is absent. -/
def Dev.roundNext (d : Dev) (r : EchoRound) : Dev :=
  if r.next < d.upSlots then
    let d := d.laneFrame true ⟨3, BitVec.ofNat 8 r.next, if r.initial then 0 else 1, 0⟩
    { d with reed := { d.reed with round := some { r with next := r.next + 1, out := if r.initial then [r.next] else r.out ++ [r.next] } } }
  else d.roundEnd r

/-! The commands. -/

/-- R421, R427, R431: en written 1. -/
def Dev.reedEnable (d : Dev) (m : Master) : Dev :=
  if d.on Reg.REED_CTRL.en then d
  else if !d.owns m reedBlock then d.reedReject true
  else if d.upSlots ≤ d.reedSlot then (d.flag Reg.REED_STATE.start_reject).refuse false
  else
    let d := (d.wr Reg.REED_CTRL.en 1).setReedState 1
    let d := if d.reedRole = 2 then d else { d.setDelay 0 with reed := { d.reed with dTarget := 0 } }
    { d with reed := { d.reed with afterHold := false, hasDelay := false, synced := false, resync := false } }

def execReedEnable (m : Master) (s : State) : Out := lift s fun d => d.reedEnable m

/-- R431: en written 0, by any master. -/
def Dev.reedDisable (d : Dev) : Dev :=
  if d.on Reg.REED_CTRL.en then
    let d := ((d.wr Reg.REED_CTRL.en 0).setReedState 0).dropSends
    { d with reed := { d.reed.silent with resync := false, round := none, pollWait := false, tOffset := 0 } }
  else d

def execReedDisable (_m : Master) (s : State) : Out := lift s fun d => d.reedDisable

/-- R425, R431: resync. -/
def Dev.reedResync (d : Dev) (m : Master) : Dev :=
  if !d.owns m reedBlock then d.reedReject true
  else if d.reedRole = 2 ∧ d.reedState = 5 then { d with reed := { d.reed with resync := true } } else d

def execReedResync (m : Master) (s : State) : Out := lift s fun d => d.reedResync m

/-- R423: echo_now. -/
def Dev.echoNow (d : Dev) (m : Master) : Dev :=
  if !d.owns m reedBlock then d.reedReject true
  else if d.reedRole = 1 ∧ d.reedState = 3 then d.roundStart true else d

def execEchoNow (m : Master) (s : State) : Out := lift s fun d => d.echoNow m

/-- R424: a write of delay_trim, applied as though it were a DELAY. -/
def Dev.delayTrim (d : Dev) (m : Master) (v : Nat) : Dev :=
  if v % 2 ^ 24 = d.rd Reg.REED_DELAY_TRIM.trim then d
  else if !d.owns m reedBlock then d.reedReject true
  else
    let d := d.wr Reg.REED_DELAY_TRIM.trim v
    if d.reedRole = 2 ∧ d.reed.hasDelay then d.newDelay (d.delayFrom (d.rd Reg.REED_PATH.rtt_h) v) else d

def execDelayTrimWrite (m : Master) (v : BitVec 32) (s : State) : Out := lift s fun d => d.delayTrim m v.toNat

/-- ACQUIRE is left where the clock cleaner is locked (R421, R423). -/
def Dev.leaveAcquire (d : Dev) : Dev :=
  if d.reedState = 1 ∧ d.on Reg.REED_STATE.clk_lock then
    if d.reedRole = 2 then { d.setReedState 2 with reed := { d.reed with hasDelay := false } }
    else
      let d := (if d.reed.counting then d else d.stepTime 0 0).setReedState 3
      if d.reedRole = 1 then d.roundStart true else d
  else d

/-- R421, R426: the clock cleaner locks, and ACQUIRE is left. HOLDOVER goes to ACQUIRE, which the next tick leaves (DESIGN CHOICE,
log entry 113). -/
def Dev.cleanerLock (d : Dev) : Dev :=
  let d := d.wr Reg.REED_STATE.clk_lock 1
  let d := if d.reedRole = 2 ∨ d.reed.counting then d else d.stepTime 0 0
  if d.reedState = 4 then d.setReedState 1 else d.leaveAcquire

def execClockCleanerLock (s : State) : Out := lift s fun d => d.cleanerLock

/-- R430: no clock edge for 100 ns. -/
def Dev.clockLoss (d : Dev) : Dev :=
  let d := d.wr Reg.REED_STATE.clk_lock 0
  if d.reedState = 2 ∨ d.reedState = 3 ∨ d.reedState = 5 then
    let d := ((d.setReedState 4).flag Reg.REED_IRQ.holdover).dropSends
    { d with reed := { d.reed.silent with afterHold := d.reed.synced, resync := false, pollWait := false, round := none } }
  else d

def execReedClockLoss (s : State) : Out := lift s fun d => d.clockLoss

/-- R415, R433: on a SOLO device whose lanes are looped, a frame that returns is checked. -/
def Dev.loopCheck (d : Dev) (f : BitVec 64) (lane : Bool) : Dev :=
  if d.reedRole = 0 ∧ d.on Reg.REED_CTRL.lane_loop ∧ d.reedState = 3 then
    if (if lane then d.reed.out1 else d.reed.out0) = some f then d else d.frameBad
  else d

/-- R419, R420, R428: an EVENT frame. -/
def Dev.eventFrame (d : Dev) (f : BitVec 64) (lane : Bool) : Dev :=
  if d.listens then
    let d := d.forward lane f
    if frameOk 1 f then d.schedAct lane (BitVec.ofNat 8 (fCode f)) (fullTime d.now (fStamp f)) else d.frameOther f
  else d.loopCheck f lane

def execEventFrame (f : BitVec 64) (lane : Bool) (s : State) : Out := lift s fun d => d.eventFrame f lane

/-- R425: a SYNC frame, which names a whole Reed time. -/
def Dev.syncFrame (d : Dev) (f : BitVec 64) (taps : Nat) : Dev :=
  if d.listens then
    let d := d.forward true f
    if frameOk 2 f then d.sync (fAux f * 2 ^ 40 + fCode f * 2 ^ 32 + fStamp f) taps else d.frameOther f
  else d.loopCheck f true

def execSyncFrame (f : BitVec 64) (taps : Fin 10240) (s : State) : Out := lift s fun d => d.syncFrame f taps.val

/-- R422, R423: a POLL frame. -/
def Dev.pollFrame (d : Dev) (f : BitVec 64) : Dev :=
  if d.listens then
    let d := d.forward true f
    if frameOk 3 f then
      if fAux f = 0 then
        let d := { d with reed := { d.reed with holding := true, holdUntil := BitVec.ofNat 48 (d.now + d.upSlots * 200) } }
        if fCode f = d.reedSlot ∧ d.reedState ≠ 3 then d.replyNow 0 1024001 else d
      else if fCode f = d.reedSlot ∧ d.reedState = 3 then { d with reed := { d.reed with pollWait := true, pollAt := d.reed.time } }
      else d
    else d.frameOther f
  else d.loopCheck f true

def execPollFrame (f : BitVec 64) (s : State) : Out := lift s fun d => d.pollFrame f

/-- R422, R424: a DELAY frame. -/
def Dev.delayFrame (d : Dev) (f : BitVec 64) : Dev :=
  if d.listens then
    let d := d.forward true f
    if frameOk 4 f then
      if fCode f = d.reedSlot then
        (d.wr Reg.REED_PATH.rtt_h (fStamp f)).newDelay (d.delayFrom (fStamp f) (d.rd Reg.REED_DELAY_TRIM.trim))
      else d
    else d.frameOther f
  else d.loopCheck f true

def execDelayFrame (f : BitVec 64) (s : State) : Out := lift s fun d => d.delayFrame f

/-- R427: the root relays an UP_EVENT; the slot of origin is the uplink slot in which it came. -/
def Dev.upEvent (d : Dev) (f : BitVec 64) : Dev :=
  if d.reedRole = 1 ∧ d.reedState = 3 then
    if frameOk 8 f then
      d.laneFrame (bit (fAux f) 0) ⟨1, BitVec.ofNat 8 (fCode f), BitVec.ofNat 8 (d.now % (8 * d.upSlots) / 8), 0⟩
    else d.frameOther f
  else d

def execUpEvent (f : BitVec 64) (s : State) : Out := lift s fun d => d.upEvent f

/-- The time in taps within which a slot must reply not to count as absent: 2 µs, or one uplink cycle (R423). -/
def Dev.replyLimit (d : Dev) (r : EchoRound) : Nat := tapsPerTick * (if r.initial then 200 else 8 * d.upSlots)

/-- R422, R423: the root receives a REPLY, `rtt` taps after the emission of its POLL. -/
def Dev.replyFrame (d : Dev) (f : BitVec 64) (rtt : Nat) : Dev :=
  if d.reedRole = 1 ∧ d.reedState = 3 then
    if frameOk 9 f then
      match d.reed.round with
      | some r =>
        if r.out.contains (fCode f) && decide (rtt ≤ d.replyLimit r) then
          { d with reed := { d.reed with round := some { r with replies := r.replies + 1, out := r.out.erase (fCode f) } } }.laneFrame true
            ⟨4, BitVec.ofNat 8 (fCode f), 0, BitVec.ofNat 32 rtt - BitVec.ofNat 32 (fStamp f)⟩
        else d
      | none => d
    else d.frameOther f
  else d

def execReply (f : BitVec 64) (rtt : BitVec 32) (s : State) : Out := lift s fun d => d.replyFrame f rtt.toNat

/-- The frame that a lane queue sends next: on lane 1, POLL and DELAY frames yield to EVENT frames (R420). -/
def pickFrame (q : List LaneFrame) : Option LaneFrame := (q.find? (·.kind == 1)).or q.head?

/-- R420, R427: the root emits the next frame of a lane. -/
def Dev.frameEmit (d : Dev) (lane : Bool) : Dev :=
  if d.reedRole = 1 ∧ d.reedState ≠ 0 ∧ d.reedState ≠ 4 then
    match pickFrame (d.reed.lane lane) with
    | none => d
    | some f =>
      let d := { d with reed := d.reed.setLane lane ((d.reed.lane lane).erase f) }
      let d :=
        if f.kind = 1 then
          let d := (d.forward lane (mkFrame 1 f.code.toNat f.aux.toNat d.now)).schedAct lane f.code d.now
          if f.aux = 0 then d.evc 0x83 24 else d
        else d.forward lane (mkFrame f.kind f.code.toNat f.aux.toNat (if f.kind = 4 then f.data.toNat else d.now))
      d.sendCredit
  else d

def execReedFrameEmit (lane : Bool) (s : State) : Out := lift s fun d => d.frameEmit lane

/-- R425: the root emits a SYNC at a multiple of 65,536 ticks. -/
def Dev.syncEmission (d : Dev) : Dev :=
  if d.reedRole = 1 ∧ d.reedState = 3 then
    let t := nextMultiple d.now 65536 d.reed.syncAt
    if !d.comes t then d else
    let d := d.advanceTo t
    { d with reed := { d.reed with syncAt := some (BitVec.ofNat 48 t) } }.forward true (mkFrame 2 (t / 2 ^ 32) (t / 2 ^ 40) t)
  else d

def execSyncEmission (s : State) : Out := lift s fun d => d.syncEmission

/-- R423: the round in progress goes on. -/
def Dev.echoPoll (d : Dev) : Dev :=
  if d.reedRole = 1 ∧ d.reedState = 3 then
    match d.reed.round with
    | some r => d.roundNext r
    | none => d
  else d

def execEchoPollTimer (s : State) : Out := lift s fun d => d.echoPoll

/-- R423: every echo_period ms; 0 disables. -/
def Dev.backgroundRound (d : Dev) : Dev :=
  if d.reedRole = 1 ∧ d.reedState = 3 ∧ d.rd Reg.REED_ECHO_PERIOD.ms ≠ 0 ∧ d.reed.round.isNone then d.roundStart false else d

def execBackgroundEchoRound (s : State) : Out := lift s fun d => d.backgroundRound

/-- The echo path e = (RTT − h) − d, in taps (R427). -/
def Dev.echoPath (d : Dev) : Int := sext 32 (d.rd Reg.REED_PATH.rtt_h) - d.delay

/-- The tick of the uplink cycle in which a member launches, e before the first tick 8 × s of its slot (R427). -/
def Dev.launchTick (d : Dev) : Nat :=
  ((Int.ofNat (8 * d.reedSlot * tapsPerTick) - d.echoPath) / Int.ofNat tapsPerTick % Int.ofNat (8 * d.upSlots)).toNat

/-- The next launch of a member's uplink slot: at or after this time, and not the one last used. -/
def Dev.nextLaunch (d : Dev) : Nat :=
  let cyc := 8 * d.upSlots
  let t := (d.now + (d.launchTick + cyc - d.now % cyc) % cyc) % 2 ^ 48
  if d.reed.slotAt = some (BitVec.ofNat 48 t) then (t + cyc) % 2 ^ 48 else t

/-- R423, R427: a member's uplink slot. -/
def Dev.uplinkSlot (d : Dev) : Dev :=
  if d.reedRole = 2 ∧ d.reedState = 3 ∧ d.comes d.nextLaunch then
    let t := d.nextLaunch
    let d := d.advanceTo t
    let d := { d with reed := { d.reed with slotAt := some (BitVec.ofNat 48 t) } }
    if d.reed.pollWait then d.replyNow (d.elapsed d.reed.pollAt) tapsPerTick
    else if !d.reed.holding || reached d.now d.reed.holdUntil.toNat then
      let d := { d with reed := { d.reed with holding := false } }
      match d.reed.upq with
      | [] => d
      | e :: t =>
        let d := { d with reed := { d.reed with upq := t, outUp := some (mkFrame 8 e.1.toNat (b2n e.2.1) e.2.2.toNat) } }
        (d.evc 0x83 24).sendCredit
    else d
  else d

def execUplinkSlot (s : State) : Out := lift s fun d => d.uplinkSlot

/-- R428: the acts of tick `t`, lane 0 before lane 1, where that tick comes. -/
def Dev.eventActs (d : Dev) (t : BitVec 48) : Dev :=
  let now := d.reed.acts.filter (·.act == t)
  if now.isEmpty ∨ !d.comes t.toNat then d
  else
    let d := { (d.advanceTo t.toNat) with reed := { (d.advanceTo t.toNat).reed with acts := d.reed.acts.filter (·.act != t) } }
    (now.filter (!·.lane) ++ now.filter (·.lane)).foldl (fun d a => d.reedAct a) d

def execReedEventAct (t : BitVec 48) (s : State) : Out := lift s fun d => d.eventActs t

/-- One tap towards `b`. -/
def tapTo (a b : Int) : Int := if a < b then 1 else if b < a then -1 else 0

/-- R424, R425: a slewing delay, and a slewing offset of Reed time, move by one tap. -/
def Dev.slewStep (d : Dev) : Dev :=
  let a := if d.reed.hasDelay then tapTo d.delay d.reed.dTarget else 0
  let b := tapTo 0 d.reed.tOffset
  let o := d.reed.tapsOff + a + b
  let q := o / Int.ofNat tapsPerTick
  let d := d.setDelay (d.delay + a)
  { d with reed := { d.reed with
      tOffset := d.reed.tOffset - b, tapsOff := o - q * Int.ofNat tapsPerTick,
      time := BitVec.ofNat 48 ((Int.ofNat d.now + q) % Int.ofNat (2 ^ 48)).toNat } }

def execDelaySlewStep (s : State) : Out := lift s fun d => d.slewStep

/-- R419, R420: a frame that is discarded, and forwarded unchanged on a downlink lane. A frame that R419 does not discard is
no concern of this command. -/
def Dev.badFrame (d : Dev) (f : BitVec 64) (lane : Nat) : Dev :=
  if !frameBroken f then d
  else if d.listens ∧ lane < 2 then (d.forward (lane == 1) f).frameBad
  else if d.reedRole = 1 ∧ d.reedState = 3 ∧ lane = 2 then d.frameBad
  else if d.reedRole = 0 ∧ d.on Reg.REED_CTRL.lane_loop ∧ lane < 2 then d.frameBad
  else d

def execReedBadFrame (f : BitVec 64) (lane : Fin 3) (s : State) : Out := lift s fun d => d.badFrame f lane.val

/-- A Mill that has become HELD in a loom released before then is OFF (R547). -/
def Dev.millsReleased (d : Dev) : Dev :=
  iter (fun n d => if d.unit (kMill n) = .held ∧ !d.quar n then d.setUnit (kMill n) .off else d) 24 d

/-- Time passes with no command: one Reed tick where the count runs (R426); ACQUIRE is left where the clock cleaner is locked
(R421), and what a release still has to reach is released (R547). -/
def Dev.tick (d : Dev) : Dev :=
  let d := d.leaveAcquire.millsReleased
  if d.reed.counting then { d with reed := { d.reed with time := d.reed.time + 1 } }.elapse 1 else d

end Sys2Proof.Machine
end

