-- ==== Sys2Proof/Machine/Waveform.lean ====
section
/-! DEFINITION. Waveform sources (R273 to R290). -/
namespace Sys2Proof.Machine
open Sys2Proof

def Dev.wfm (d : Dev) (c : Nat) : Wfm := Tab.get {} d.wfms c
def Dev.setWfm (d : Dev) (c : Nat) (w : Wfm) : Dev := { d with wfms := Tab.set {} d.wfms c w }
def Dev.modWfm (d : Dev) (c : Nat) (f : Wfm → Wfm) : Dev := d.setWfm c (f (d.wfm c))
def Dev.wfmState (d : Dev) (c : Nat) : Nat := d.rd (Reg.WFM.STATUS.state c)

/-- Samples of the stream read so far. -/
def Wfm.got (w : Wfm) : Nat := w.base + w.buf.length
/-- Nothing more will be fetched. -/
def Wfm.closed (w : Wfm) : Bool := w.total.isSome || w.badAt.isSome || w.lostAt.isSome

/-- A waveform descriptor from its 16 bytes, where it passes the check of R277. -/
def wdescOf (v : Nat) : Option WDesc :=
  let start := bits v 0 33
  let len := bits v 40 24
  if !bit v 88 || bits v 33 7 != 0 || bits v 90 6 != 0 || bits v 125 3 != 0 || decide (len < 32) || decide (granSize < start + 3 * len) then none
  else some { start := start, length := len, loops := bits v 64 24, last := bit v 89, next := 16 * bits v 96 29 }

/-- A read of source `c` waits for a shared credit, at most one at a time (R39). -/
def Dev.wfmAsks (d : Dev) (c : Nat) (e : Ecc) : Dev :=
  d.asksOne (wavePart c) (.wfmSampleLineArrives ⟨c % 768, Nat.mod_lt _ (by decide)⟩ e)

/-- The source reads the descriptor that it enters, once the Granary takes the access (R277). An uncorrectable half leaves no
descriptor to check: the run ends there as at an uncorrectable line (DEDUCED). -/
def Dev.wfmFetch (d : Dev) (c : Nat) : Dev :=
  match (d.wfm c).nextDesc with
  | none => d
  | some a =>
    if !d.mayAccess (wavePart c) then d.wfmAsks c .good
    else
      let r := (d.passing (wavePart c) 1).readBytes (.loom (c / 32)) a 16
      let w := { d.wfm c with nextDesc := none }
      match r.2 with
      | none => r.1.setWfm c { w with lostAt := some w.got }
      | some bs =>
        match wdescOf (leVal bs) with
        | some e => r.1.setWfm c { w with cur := some e, fPass := 0, fIdx := 0 }
        | none => r.1.setWfm c { w with badAt := some w.got, badAddr := a }

/-- The source enters the descriptor at `a` (R277). -/
def Dev.wfmEnter (d : Dev) (c a : Nat) : Dev := (d.modWfm c fun w => { w with cur := none, nextDesc := some a }).wfmFetch c

/-- An enable write of 1 on a source that is not ON (R53, R274, R283, R499). -/
def Dev.wfmEnable (d : Dev) (m : Master) (c : Nat) : Dev :=
  let st := d.wfmState c
  let reject (r : Nat) (own : Bool) := (d.wr (Reg.WFM.STATUS.reject_code c) r).rejectWith (Reg.WFM.STATUS.start_reject c) own
  if 1 ≤ st ∧ st ≤ 3 then d
  else if !d.owns m (loomBlock (c / 32)) then reject 2 true
  else if st ≠ 0 ∨ d.safeBars then reject 2 false
  else if !(forceMode (d.chMode c) && d.chConn c) || d.chRole c == 2 || d.chRole c == 3 || d.flagged c then reject 3 false
  else
    let d := ((d.wr (Reg.WFM.STATUS.state c) 1).wr (Reg.WFM.CTRL.en c) 1).wr (Reg.WFM.STATUS.rate_pending c) 0
    let d := d.setWfm c { strict := d.on (Reg.WFM.CTRL.uflow_strict c), period := 25 * d.rd (Reg.WFM.OUT_DIV.div c), step := d.rd (Reg.WFM.STEP.step c) }
    d.wfmEnter c (16 * d.rd (Reg.WFM.DESC.addr c))

def execWfmEnable (m : Master) (c : ChanId) (s : State) : Out := lift s fun d => d.wfmEnable m c.val

/-- A write of rate_commit = 1 (R283, R290). -/
def Dev.wfmRate (d : Dev) (m : Master) (c : Nat) : Dev :=
  if !d.owns m (loomBlock (c / 32)) then (d.wr (Reg.WFM.STATUS.reject_code c) 2).rejectWith (Reg.WFM.STATUS.set_reject c) true
  else d.wr (Reg.WFM.STATUS.rate_pending c) 1

def execWfmRateCommit (m : Master) (c : ChanId) (s : State) : Out := lift s fun d => d.wfmRate m c.val

/-- The span of output instants: Reed time wraps. -/
def waveSpan : Nat := 2 ^ 51

/-- Samples that no output from `p` on needs leave the buffer (R279, R282). -/
def Wfm.trim (w : Wfm) : Wfm :=
  let k := min (w.p / 2 ^ 24 - 7) w.got
  if w.base < k then { w with buf := w.buf.drop (k - w.base), base := k } else w

/-- Prefill is complete: the schedule S + k × period stands, and instants already passed are skipped (R281, R282).
Times are in units of 1.25 ns: 8 to a tick, 25 to 31.25 ns. -/
def Dev.wfmPrefill (d : Dev) (c : Nat) : Dev :=
  let w := d.wfm c
  if d.wfmState c ≠ 1 ∨ w.ready ∨ (w.got < 64 ∧ !w.closed) then d
  else if !d.on (Reg.WFM.CTRL.start_at c) then d.setWfm c { w with ready := true, instant := 8 * (d.now + 1) % waveSpan }
  else
    let s := d.rd (Reg.WFM.START.time c)
    if s = d.now ∨ !reached d.now s then d.setWfm c { w with ready := true, instant := 8 * s }
    else
      let k := 8 * ((d.now + 2 ^ 48 - s) % 2 ^ 48) / max w.period 1 + 1
      (d.setWfm c (Wfm.trim { w with ready := true, instant := (8 * s + k * w.period) % waveSpan, p := k * w.step })).wr (Reg.WFM.STATUS.late_start c) 1

def execWfmPrefillComplete (c : ChanId) (s : State) : Out := lift s fun d => d.wfmPrefill c.val

/-- Sample `i` of the run, as R278 extends it: none where it is not in the buffer. -/
def Wfm.sample (w : Wfm) (i : Int) : Option Int :=
  if i ≤ 0 then (if w.got = 0 then none else some w.first)
  else
    let j := match w.total with | some t => min i.toNat (t - 1) | none => i.toNat
    if j < w.base then some w.first else w.buf[j - w.base]?

/-- Coefficient t of phase φ: the free ones, closed to the sum 2^17 (R279). -/
def coeff (ph t : Nat) : Int :=
  if ph = 0 then (if t = 7 then 2 ^ 17 else 0)
  else if t < 15 then Config.filterTap ph t
  else 2 ^ 17 - (List.range 15).foldl (fun s i => s + Config.filterTap ph i) 0

/-- The highest stream index that the output at `w.p` needs (R279). -/
def Wfm.needs (w : Wfm) (hold : Bool) : Nat := w.p / 2 ^ 24 + (if hold then 0 else 8)

/-- The value at `w.p`: none where a sample is missing. -/
def Wfm.value (w : Wfm) (hold : Bool) : Option Int :=
  let n : Int := Int.ofNat (w.p / 2 ^ 24)
  if hold then w.sample n
  else
    let ph := bits w.p 19 5
    ((List.range 16).foldl (fun acc t =>
      match acc, w.sample (n - 7 + Int.ofNat t) with
      | some a, some s => some (a + coeff ph t * s)
      | _, _ => none) (some 0)).map fun a => roundDiv a (2 ^ 17)

/-- The drain of a source: the last value is held, and the channel ramps to Off (R54, R55); where the channel no longer forces,
no ramp is left to complete. -/
def Dev.wfmRampOff (d : Dev) (c : Nat) : Dev :=
  let d := (d.wr (Reg.WFM.CTRL.en c) 0).wr (Reg.WFM.STATUS.state c) 4
  if d.forcing c then d.startRamp c true else d.wfmRamped c

/-- A read that still waits for a credit when the run ends is not made any more (R51). -/
def Dev.wfmUnask (d : Dev) (c : Nat) : Dev :=
  { d with waitGran := Tab.set [] d.waitGran (partKey (wavePart c)) ((d.waiting (wavePart c)).filter fun h => drawKey h.q != drawKey (wavePart c)) }

/-- A run ends for a cause (R284, R285). -/
def Dev.wfmEnd (d : Dev) (c cause : Nat) : Dev :=
  let d := (d.wr (Reg.WFM.STATUS.end_cause c) cause).irqLoom Reg.LOOM.IRQ_CAUSE.wfm_end (c / 32)
  let d := if cause = 2 then d.wr (Reg.WFM.STATUS.bad_desc c) (bits (d.wfm c).badAddr 4 16) else d
  let d := if d.on (Reg.WFM.CTRL.end_evt c) then d.sendEvent (BitVec.ofNat 8 (d.rd (Reg.WFM.CTRL.end_code c))) else d
  let d := (((d.modWfm c fun w => { w with endReq := none, ready := false }).wr (Reg.WFM.STATUS.rate_pending c) 0).wfmUnask c)
  if cause = 3 ∨ cause = 4 then (d.wr (Reg.WFM.STATUS.state c) 0).wr (Reg.WFM.CTRL.en c) 0
  else if cause = 7 then (d.wr (Reg.WFM.STATUS.state c) 5).wr (Reg.WFM.CTRL.en c) 0
  else if cause = 1 ∨ !d.on (Reg.WFM.CTRL.end_hold c) then d.wfmRampOff c
  else d.wr (Reg.WFM.STATUS.state c) 3

/-- A drain request: at the next output instant of a source that plays, at once where none is due (R51, R54, R285). -/
def Dev.wfmDrain (d : Dev) (c : Nat) : Dev :=
  let st := d.wfmState c
  let go := (d.wr (Reg.WFM.STATUS.state c) 4).wr (Reg.WFM.CTRL.en c) 0
  if st = 2 then go.modWfm c fun w => { w with endReq := some (w.endReq.getD 1) }
  else if st = 1 then go.wfmEnd c ((d.wfm c).endReq.getD 1)
  else if st = 3 then (match (d.wfm c).endReq with
    | some k => go.wfmEnd c k
    | none => go.wfmRampOff c)
  else d

/-- Quarantine of the loom: cause 7, the last value stays (R284, R544). A source that is OFF is HELD too (R52). -/
def Dev.wfmQuarantine (d : Dev) (c : Nat) : Dev :=
  let st := d.wfmState c
  if st = 1 ∨ st = 2 ∨ (st = 4 ∧ (d.wfm c).endReq.isSome) then d.wfmEnd c 7
  else (d.wr (Reg.WFM.STATUS.state c) 5).wr (Reg.WFM.CTRL.en c) 0

/-- A pending rate takes effect, and the schedule goes on (R279, R283). -/
def Dev.wfmStep (d : Dev) (c : Nat) (move : Bool) : Dev :=
  let pend := d.on (Reg.WFM.STATUS.rate_pending c)
  let w := d.wfm c
  let w := if pend then { w with period := 25 * d.rd (Reg.WFM.OUT_DIV.div c), step := d.rd (Reg.WFM.STEP.step c) } else w
  let w : Wfm := { w with instant := (w.instant + w.period) % waveSpan, p := if move then w.p + w.step else w.p }
  (d.setWfm c w.trim).wr (Reg.WFM.STATUS.rate_pending c) 0

/-- An output is applied, clipped to 24 bits (R275, R279); one that is equal to the set-point is no change of force (R186). -/
def Dev.wfmApply (d : Dev) (c : Nat) (y : Int) : Dev :=
  let v := clampI (-8388608) 8388607 y
  let d := if v = y then d else (d.wr (Reg.WFM.STATUS.clip c) 1).evc 0x36 (c / 32)
  (if d.rd (Reg.CHAN.FORCE_CODE.code c) = toCode 24 v then d else d.setForce c (toCode 24 v)).evc 0x34 (c / 32)

/-- An output instant (R279, R284, R289). -/
def Dev.wfmOutput (d : Dev) (c : Nat) : Dev :=
  let st := d.wfmState c
  let w := d.wfm c
  if !(st == 2 || (st == 1 && w.ready) || ((st == 3 || st == 4) && w.endReq.isSome)) || (w.ready && !d.comes (w.instant / 8)) then d
  else
    let d := if w.ready then d.advanceTo (w.instant / 8) else d
    let d := if st = 1 then d.wr (Reg.WFM.STATUS.state c) 2 else d
    let hold := d.on (Reg.WFM.CTRL.filter c)
    let reaches (at_ : Option Nat) (i : Nat) : Bool := at_.any fun k => decide (k ≤ i)
    match w.endReq with
    | some k => d.wfmEnd c k
    | none =>
      if reaches w.total (w.p / 2 ^ 24) then d.wfmEnd c 0
      else if reaches w.badAt (w.needs hold) then d.wfmEnd c 2
      else if reaches w.lostAt (w.needs hold) then d.wfmEnd c 6
      else match w.value hold with
        | some y => (d.wfmApply c y).wfmStep c true
        | none =>
          if w.strict then (d.evc 0x35 (c / 32)).wfmEnd c 5
          else (((d.bump (Reg.WFM.UFLOW.count c)).wr (Reg.WFM.STATUS.uflow c) 1).evc 0x35 (c / 32)).wfmStep c false

def execWfmOutputInstant (c : ChanId) (s : State) : Out := lift s fun d => d.wfmOutput c.val

/-- The samples of a pass from `i` on whose last byte lies in line `l` (R276). -/
def samplesIn (start len i l : Nat) : Nat := ((List.range 23).takeWhile fun j => decide (i + j < len) && (start + 3 * (i + j) + 2) / 64 == l).length

/-- `n` samples from byte address `a`. -/
def Dev.samplesAt (d : Dev) (a n : Nat) : List Int := (List.range n).map fun j => sext 24 (leVal (d.bytesAt (a + 3 * j) 3))

/-- The pass goes on, the next pass begins, the next descriptor is entered, or the end of the run is known (R278). -/
def Dev.wfmNext (d : Dev) (c : Nat) (e : WDesc) : Dev :=
  let w := d.wfm c
  if w.fIdx < e.length then d
  else if w.fPass + 1 < max e.loops 1 then d.setWfm c { w with fPass := w.fPass + 1, fIdx := 0 }
  else if e.last then d.setWfm c { w with cur := none, total := some w.got }
  else d.wfmEnter c e.next

/-- The next sample line arrives, where the buffer has room for one (R288), or the descriptor that the source waits for. -/
def Dev.wfmLine (d : Dev) (c : Nat) (x : Ecc) : Dev :=
  let w := d.wfm c
  match w.cur with
  | none => if d.wfmState c = 1 ∨ d.wfmState c = 2 then d.wfmFetch c else d
  | some e =>
    if d.wfmState c ≠ 1 ∧ d.wfmState c ≠ 2 then d
    else
      let a := e.start + 3 * w.fIdx
      let l := (a + 2) / 64
      let k := samplesIn e.start e.length w.fIdx l
      if 512 < w.buf.length + k then d
      else if !d.mayAccess (wavePart c) then d.wfmAsks c x
      else
        let r := (d.passing (wavePart c) 1).touchAll (.loom (c / 32)) (a / 32) (fun h => if h = (a + 2) / 32 then x else .good) (halves a (3 * k))
        if !r.2 then r.1.setWfm c { w with cur := none, lostAt := some w.got }
        else
          let ss := d.samplesAt a k
          (r.1.setWfm c (Wfm.trim { w with buf := w.buf ++ ss, fIdx := w.fIdx + k, first := if w.got = 0 then ss.headD 0 else w.first })).wfmNext c e

def execWfmSampleLineArrives (c : ChanId) (e : Ecc) (s : State) : Out := lift s fun d => d.wfmLine c.val e

end Sys2Proof.Machine
end

