-- ==== Sys2Proof/Machine/Thermal.lean ====
section
/-! DEFINITION. Temperature (R488 to R492), the power governor (R496, R497), the safe state (R499, R500), and the
shutdown (R501, R502). -/
namespace Sys2Proof.Machine
open Sys2Proof

/-! The safe state. -/

/-- The period in progress on loom `n` is cut and its compares are masked; the burst ends with cause 4 (R499). -/
def Dev.cutBurst (d : Dev) (n : Nat) : Dev :=
  match (d.pat n).burst with
  | none => d
  | some b =>
    if b.ended.isSome then d
    else
      let d := if b.started && !b.holding then d.modPat n fun p => { p with sched := p.sched.filter fun x => x.idx != b.idx || x.rep != b.rep } else d
      d.endPlay n 4

/-- A forcing channel holds, then ramps to Off; a group ramps as its leader does (R55, R182, R499). -/
def Dev.safeChan (d : Dev) (c : Nat) : Dev :=
  if d.forcing c && d.lead c == c then d.startRamp c true else d

/-- The units that the safe state drains (R499). -/
def safeUnits : List UnitId :=
  (List.finRange 24).flatMap (fun n => [.shuttle n, .mill n, .capture n, .tme n]) ++ [.tap 0, .tap 1]

/-- The safe state is entered (R499). -/
def Dev.enterSafe (d : Dev) : Dev :=
  let d := iter (fun n d => d.cutBurst n) 24 d
  let d := iter (fun c d => d.safeChan c) 768 d
  let d := safeUnits.foldl (fun d u => d.unitDrain u) d
  iter (fun c d => if d.wfmActive c then d.wfmDrain c else d) 768 d

/-- A safe command: any master enters SAFE from NORMAL (R500). -/
def execSafe (m : Master) (s : State) : Out :=
  lift s fun d =>
    if d.rd Reg.TH_STATUS.state = 0 then (((d.wr Reg.TH_STATUS.state 1).logRec 0x04 (masterCode m)).enterSafe) else d

/-- A command of this block is refused (R510). -/
def Dev.thReject (d : Dev) (own : Bool) : Dev := d.rejectWith Reg.TH_STATUS.cmd_reject own

def execClearSafe (m : Master) (s : State) : Out :=
  lift s fun d =>
    if !d.owns m thermBlock then d.thReject true
    else if d.rd Reg.TH_STATUS.state = 1 then d.wr Reg.TH_STATUS.state 0 else d

/-! Shutdown. -/

/-- A shutdown is confirmed, with its record (R501): the safe state is entered unless the device is in SAFE already. -/
def Dev.shutdown (d : Dev) (cause data : Nat) : Dev :=
  let st := d.rd Reg.TH_STATUS.state
  if st = 2 ∨ st = 3 then d
  else
    let d := { d with therm := { d.therm with haltCause := cause } }
    let d := if cause = 1 then { d with log := { d.log with life := { d.log.life with trips := d.log.life.trips + 1 } } } else d
    let d := (d.wr Reg.TH_STATUS.state 2).logRec 0x02 data
    if st = 0 then d.enterSafe else d

/-- The ramps of a shutdown are over: THERMAL_HALT (R501). -/
def Dev.thermalHalt (d : Dev) : Dev :=
  if d.rd Reg.TH_STATUS.state ≠ 2 ∨ d.chans.any (fun e => e.2.ramp != .none) then d
  else
    let d := ((d.wr Reg.TH_STATUS.state 3).flag Reg.TH_STATUS.shutdown).fullStop
    if d.therm.haltCause = 0 then { d with log := { d.log with life := { d.log.life with halts := d.log.life.halts + 1 } } } else d

def execSafeStateRampsEnd (s : State) : Out := lift s fun d => d.thermalHalt

/-- THERMAL_HALT is left once both conditions hold (R502). -/
def Dev.leaveHalt (d : Dev) : Dev :=
  let cool := d.therm.coolSince.any fun t => d.therm.cooled || decide (100000000 ≤ d.elapsed t)
  if d.rd Reg.TH_STATUS.state = 3 ∧ d.on Reg.TH_STATUS.ack_latched ∧ cool then
    ((d.wr Reg.TH_STATUS.state 0).wr Reg.TH_STATUS.ack_latched 0).logRec 0x03 (d.rd Reg.TEMP_MAX.temp)
  else d

def execThermalAck (m : Master) (s : State) : Out :=
  lift s fun d =>
    if !d.owns m thermBlock then d.thReject true
    else if d.rd Reg.TH_STATUS.state ≠ 3 then d.thReject false
    else (d.wr Reg.TH_STATUS.ack_latched 1).leaveHalt

/-- TEMP_MAX has been below resume for 1 s; where the Reed count runs it has moved on by then. -/
def execResumeTimer (s : State) : Out :=
  lift s fun d =>
    match d.therm.coolSince with
    | some t =>
      let d := { d with therm := { d.therm with cooled := true } }
      (d.localTo (t.toNat + 100000000)).leaveHalt
    | none => d

/-! Sensors. -/

def Dev.setSensor (d : Dev) (i : Nat) (x : Sensor) : Dev := { d with therm := { d.therm with sensors := Tab.set {} d.therm.sensors i x } }

/-- A sensor takes part in maxima. -/
def Sensor.good (x : Sensor) : Bool := x.valid && !x.faulty

/-- A sensor is declared faulty by condition `k` (R489). -/
def Dev.sensorFault (d : Dev) (i k : Nat) : Dev :=
  if (d.sensor i).faulty then d
  else
    let d := ((d.setSensor i { d.sensor i with faulty := true }).flag Reg.TH_STATUS.sensor_fault).logRec 0x05 (i + 64 * k)
    { d with log := { d.log with life := { d.log.life with faults := d.log.life.faults + 1 } } }

/-- A conversion of sensor `i`, or its absence: the first and the third condition of R489. -/
def Dev.sensorRead (d : Dev) (i : Nat) (r : Option Int) : Dev :=
  let x := d.sensor i
  match r with
  | some t =>
    let d := d.setSensor i { x with temp := t, valid := true, silent := 0 }
    if t < -320 ∨ 1200 < t then d.sensorFault i 0 else d
  | none =>
    let d := d.setSensor i { x with silent := min (x.silent + 1) 10 }
    if 10 ≤ x.silent + 1 then d.sensorFault i 2 else d

/-- The second condition of R489 for sensor `i` against the other sensor of its loom. -/
def Dev.sensorPair (d : Dev) (i : Nat) : Dev :=
  let x := d.sensor i
  let y := d.sensor (if i % 2 = 0 then i + 1 else i - 1)
  if x.good && y.good && decide (y.temp + 80 < x.temp) then
    let d := d.setSensor i { x with diff := min (x.diff + 1) 10 }
    if 10 ≤ x.diff + 1 then d.sensorFault i 1 else d
  else d.setSensor i { x with diff := 0 }

/-- The highest good reading of sensors `k` to `k + n − 1`, and its sensor: the lowest of those that share it. -/
def Dev.hottest (d : Dev) (k : Nat) : Nat → Option (Int × Nat)
  | 0 => none
  | n + 1 =>
    let x := d.sensor (k + n)
    match d.hottest k n with
    | some (t, i) => if x.good && decide (t < x.temp) then some (x.temp, k + n) else some (t, i)
    | none => if x.good then some (x.temp, k + n) else none

/-- TEMP_MAX takes the highest valid reading (R488). -/
def Dev.tempMax (d : Dev) : Dev :=
  match d.hottest 0 64 with
  | none => d
  | some (t, i) =>
    let d := (d.wr Reg.TEMP_MAX.temp (toCode 16 t)).wr Reg.TEMP_MAX.sensor i
    let m := match d.log.life.maxTemp with
      | some u => if u < t then t else u
      | none => t
    { d with log := { d.log with life := { d.log.life with maxTemp := some m } } }

/-- TEMP_MAX as a number. -/
def Dev.tMax (d : Dev) : Int := sext 16 (d.rd Reg.TEMP_MAX.temp)

/-- The record data of a reading (R505). -/
def heatData (t : Int) (i cause : Nat) : Nat := toCode 16 t + 65536 * i + 4194304 * cause

/-- Warn (R492), and the time from which TEMP_MAX has been below resume (R502). -/
def Dev.judgeWarn (d : Dev) : Dev :=
  let warn := Int.ofNat (d.rd Reg.TH_LIMIT_A.warn)
  let d :=
    if d.on Reg.TH_STATUS.warn then (if d.tMax < warn - 16 then d.wr Reg.TH_STATUS.warn 0 else d)
    else if warn ≤ d.tMax then
      let d := (d.wr Reg.TH_STATUS.warn 1).flag Reg.TH_STATUS.warn_seen
      let d := { d with log := { d.log with life := { d.log.life with warn := true } } }
      if d.therm.warnLog.any (fun t => decide (d.elapsed t < 1000000000)) then d
      else { d.logRec 0x06 (heatData d.tMax (d.rd Reg.TEMP_MAX.sensor) 0) with therm := { d.therm with warnLog := some d.reed.time } }
    else d
  let cool := if d.tMax < Int.ofNat (d.rd Reg.TH_LIMIT_B.resume) then some (d.therm.coolSince.getD d.reed.time) else none
  { d with therm := { d.therm with coolSince := cool, cooled := d.therm.cooled && cool.isSome } }

/-- Throttling, with its 2 °C of hysteresis on the reading concerned (R492): bits 0 to 23 of `hot` stand for the looms, and
bits 24 to 39 for sensors 48 to 63. -/
def Dev.judgeThrottle (d : Dev) : Dev :=
  let th := Int.ofNat (d.rd Reg.TH_LIMIT_A.throttle)
  let old := d.rd Reg.TH_THROTTLED.shuttles
  let stays := fun (was : Bool) (t : Int) => decide (th ≤ t) || (was && decide (th - 16 ≤ t))
  let hot := maskTo (fun n =>
    if n < 24 then stays (bit d.therm.hot n) (d.tLoom n)
    else (d.sensor (n + 24)).good && stays (bit d.therm.hot n) (d.sensor (n + 24)).temp) 40
  let die := hot / 2 ^ 24 != 0
  let new := maskTo (fun s => die || (decide (s < 24) && bit hot s)) 25
  let d := { d with therm := { d.therm with hot := hot } }.wr Reg.TH_THROTTLED.shuttles new
  if (List.range 25).any (fun s => bit new s && !bit old s) then d.flag Reg.TH_STATUS.throttle_seen else d

/-- The due rule (R473, R484). -/
def Dev.judgeDue (d : Dev) : Dev :=
  let old := d.rd Reg.CAL_DUE.looms
  let new := maskTo (fun n => (List.range 34).any (d.coreDue n)) 24
  let d := d.wr Reg.CAL_DUE.looms new
  let d := iter (fun n d =>
    if bit new n && !bit old n then
      let d := d.flag Reg.CAL_STATUS.due
      if (Tab.get none d.cal.dueLog n).any (fun t => decide (d.elapsed t < 1000000000)) then d
      else { d.logRec 0x1D n with cal := { d.cal with dueLog := Tab.set none d.cal.dueLog n (some d.reed.time) } }
    else d) 24 d
  let stale := (List.range 24).any fun n =>
    let v := loomGet d.cal.loomA n 10
    decide (80 < (d.tLoom n - tCal v).natAbs)
  if stale then d.wr Reg.CAL_STATUS.ladder_stale 1 else d

/-- A sensor that reads at or above shutdown on two consecutive updates begins the shutdown (R492). -/
def Dev.judgeShutdown (d : Dev) (rs : List (Option Int)) : Dev :=
  let lim := Int.ofNat (d.rd Reg.TH_LIMIT_B.shutdown)
  let high := fun i => (rs.getD i none).any (fun t => decide (lim ≤ t)) && !(d.sensor i).faulty
  let hit := findTo (fun i => high i && (d.sensor i).isOver) 64
  let d' := iter (fun i d => d.setSensor i { d.sensor i with isOver := high i }) 64 d
  match hit with
  | some i => d'.shutdown 0 (heatData (d'.sensor i).temp i 0)
  | none => d'

/-- The update of every 100 µs (R488, R489, R492, R473). -/
def Dev.sensorUpdate (d : Dev) (rs : List (Option Int)) : Dev :=
  let d := iter (fun i d => d.sensorRead i (rs.getD i none)) 64 d
  let d := iter (fun i d => d.sensorPair i) 48 d
  ((((d.tempMax).judgeWarn).judgeThrottle).judgeDue).judgeShutdown rs

def execSensorUpdate (readings : List (Option Int)) (s : State) : Out :=
  if readingsWf readings then lift s fun d => d.sensorUpdate readings else .fault (.illFormed "SENSOR_UPDATE")

/-! The governor (R496, R497). -/

def Dev.powerUpdate (d : Dev) (avg : Nat) : Dev :=
  let lim := d.rd Reg.PWR_LIMIT.limit
  let lv := d.rd Reg.PWR_NOW.level
  let d := (d.wr Reg.PWR_NOW.power (min avg 0xFFFF)).peak Reg.PWR_PEAK.peak (min avg 0xFFFF)
  let d :=
    if lim < avg then
      if lv < 16 then
        let d := (d.wr Reg.PWR_NOW.level (lv + 1)).evc 0x96 24
        if lv = 15 then d.flag Reg.TH_STATUS.gov_max else d
      else d
    else if avg + 200 < lim then d.wr Reg.PWR_NOW.level (lv - 1)
    else d
  let held := if d.rd Reg.PWR_NOW.level = 16 ∧ 16000 < avg then d.therm.trip + 1 else 0
  let d := { d with therm := { d.therm with trip := min held 4096 } }
  if d.on Reg.PWR_LIMIT.trip_en ∧ 10 * max (d.rd Reg.PWR_LIMIT.trip_ms) 1 < held then
    d.shutdown 1 (min avg 0xFFFF + 65536 * 63 + 4194304)
  else d

def execPowerUpdate (avg : Nat) (s : State) : Out := lift s fun d => d.powerUpdate avg

end Sys2Proof.Machine
end

