-- ==== Sys2Proof/Machine/Ucode.lean ====
section
/-! DEFINITION. The microcode stores: machine checks and their retry (R518, R519), patch images (R520 to R523), the
live swap (R524 to R528) and sure mode (R529 to R531). -/
namespace Sys2Proof.Machine
open Sys2Proof

/-- The block of start-up, security, microcode and the board port (R535). -/
def secBlock : Nat := 7

/-- Shuttle `n`'s control store. -/
def Dev.ustore (d : Dev) (n : Nat) : Store := Tab.get {} d.ucode.stores n
def Dev.modUstore (d : Dev) (n : Nat) (f : Store → Store) : Dev :=
  { d with ucode := { d.ucode with stores := Tab.set {} d.ucode.stores n (f (d.ustore n)) } }

/-- The shuttles, 24 the core shuttle (R20). -/
def nShuttles : Nat := 25

/-- The version that a bank shows (R516, R534). -/
def Bank.version (b : Bank) : Nat := if b.src = 0 then Config.romVersion.toNat else b.ver.toNat

/-- Entry `k` of the dispatch table of a bank (R514 to R516): the base, or the first bytes of the slot that it holds. -/
def Dev.dispatchEntry (d : Dev) (b : Bank) (k : Nat) : BitVec 12 :=
  let of := fun (s : PatchSlot) => BitVec.ofNat 12 (leVal ((s.bytes.drop (2 * k)).take 2))
  if b.src = 0 then Config.romDispatch k else if b.src = 1 then of d.ucode.slotA else of d.ucode.slotB

/-- The instruction word at the PC of context `c` of shuttle `s`: as its cache holds it, or as the Granary does. -/
def Dev.wordAtPc (d : Dev) (s c : Nat) : W24 :=
  let a := d.progBase + 3 * (d.ctx c).pc.toNat
  (d.cachedWord s a).getD (BitVec.ofNat 24 (leVal (d.bytesAt a 3)))

/-- The address at which the instruction at the PC of context `c` enters its sequence, through the active bank of shuttle `s`. -/
def Dev.microEntry (d : Dev) (s c : Nat) : BitVec 12 := d.dispatchEntry (d.ustore s).act (dispatchIndex (d.wordAtPc s c))

/-- A microcode command is refused (R532, R534). -/
def Dev.ucodeReject (d : Dev) (code : Nat) : Dev :=
  (d.wr Reg.UCODE_STATUS.reject_code code).rejectWith Reg.UCODE_CTRL.cmd_reject (code == 1)

/-- A shuttle is pending. -/
def Dev.anyPend (d : Dev) : Bool := (List.range nShuttles).any fun s => (d.ustore s).pend

/-- The state is IDLE once no shuttle is pending (R527, R534). -/
def Dev.swapSettle (d : Dev) : Dev :=
  if d.rd Reg.UCODE_STATUS.state = 3 ∧ !d.anyPend then (d.wr Reg.UCODE_STATUS.state 0).flag Reg.UCODE_STATUS.swap_done else d

/-- Shuttle `s` gives up its swap (R527, R528). -/
def Dev.swapGiveUp (d : Dev) (s : Nat) : Dev :=
  if (d.ustore s).pend then d.modUstore s fun t => { t with pend := false, limit := none } else d

/-! Patch images. -/

def execUcodeLoad (m : Master) (s : State) : Out :=
  lift s fun d =>
    if !d.owns m secBlock then d.ucodeReject 1
    else if d.rd Reg.UCODE_STATUS.state ≠ 0 then d.ucodeReject 2
    else d.wr Reg.UCODE_STATUS.state 1

/-- Bytes of an image (R520). -/
def imageBytes : Nat := 16300

/-- A microword of 3 bytes passes check 6: odd parity over its 17 bits, and not class 0x0 (R511). -/
def microOk (v : Nat) : Bool := popcount v 17 % 2 == 1 && bits v 12 4 != 0

/-- Three bytes at a time. -/
def wordsOk (p : Nat → Bool) (w : Nat) : Nat → List Byte → Bool
  | 0, _ => true
  | n + 1, l => p (leVal (l.take w)) && wordsOk p w n (l.drop w)

/-- The slot that a load may fill: 1 A, 2 B (R522 check 9, R523). -/
def Dev.freeSlot (d : Dev) : Option Nat :=
  [1, 2].find? fun k => (List.range nShuttles).all fun s => (d.ustore s).act.src != k

/-- The plaintext of an image (R521). -/
def imagePlain (b : List Byte) : List Byte :=
  aesCtr Config.ucodeKey (leVal ((b.drop 16).take 8)) 0 ((b.drop 192).take 14336)

/-- The checks of R522 in order: the first that fails, or the slot and the plaintext. -/
def Dev.imageCheck (d : Dev) (b : List Byte) (readable : Bool) : Except Nat (Nat × List Byte) :=
  let at_ := fun o n => leVal ((b.drop o).take n)
  let pub := (b.drop 64).take 56
  if at_ 0 4 ≠ 0x55435031 ∨ at_ 4 2 ≠ 1 then .error 1
  else if at_ 9 7 ≠ 0 ∨ at_ 28 4 ≠ 0 ∨ at_ 120 72 ≠ 0 ∨ at_ 24 4 ≠ 14336 then .error 2
  else if digestVal pub ≠ Config.ucodeSigner then .error 3
  else if !lmsVerify pub (b.drop 14528) (b.take 14528) then .error 4
  else
    let p := imagePlain b
    if sha256 p ≠ (b.drop 32).take 32 then .error 5
    else if !wordsOk (fun v => bits v 12 4 == 0) 2 1024 p || !wordsOk microOk 3 4096 (p.drop 2048) then .error 6
    else if at_ 6 3 < d.rd Reg.UCODE_FLOOR.version ∨ at_ 8 1 ≠ Config.romVersion.toNat / 65536 then .error 7
    else if !readable then .error 8
    else match d.freeSlot with
      | none => .error 9
      | some k => .ok (k, p)

/-- The image goes into the slot and into every shadow bank (R523). -/
def Dev.imageTake (d : Dev) (k ver : Nat) (p : List Byte) : Dev :=
  let slot : PatchSlot := ⟨true, BitVec.ofNat 24 ver, p⟩
  let d := { d with ucode := if k = 1 then { d.ucode with slotA := slot } else { d.ucode with slotB := slot } }
  iter (fun s d => d.modUstore s fun t => { t with shd := ⟨k, BitVec.ofNat 24 ver⟩ }) nShuttles d

/-- The load in progress ends (R522, R523). The security block reads the image (R384 source 6). -/
def Dev.ucodeLoaded (d : Dev) : Dev :=
  if d.rd Reg.UCODE_STATUS.state ≠ 1 then d
  else
    let a := 64 * d.rd Reg.UCODE_IMG.line
    let n := min imageBytes (granSize - a)
    let r := (d.passing .security (linesOf a n)).touchAll flashSrc (a / 32) (fun _ => .good) (halves a n)
    let b := r.1.bytesAt a imageBytes
    let d := r.1.wr Reg.UCODE_STATUS.state 0
    match d.imageCheck b (r.2 && n == imageBytes) with
    | .error c => ((d.wr Reg.UCODE_STATUS.load_code c).flag Reg.UCODE_STATUS.load_reject).logRec 0x15 c
    | .ok (k, p) =>
      let ver := leVal ((b.drop 6).take 3)
      ((d.imageTake k ver p).flag Reg.UCODE_STATUS.load_done).logRec 0x14 ver

def execUcodeLoadComplete (s : State) : Out :=
  lift s fun d => d.accessing (if d.rd Reg.UCODE_STATUS.state = 1 then some .security else none) .ucodeLoadComplete (·.ucodeLoaded)

/-! Live swap. -/

/-- A swap is asked for on the shuttles of the mask (R524, R527, R528). -/
def Dev.ucodeSwap (d : Dev) (m : Master) : Dev :=
  let mask := d.rd Reg.UCODE_MASK.shuttles
  let st := d.rd Reg.UCODE_STATUS.state
  if !d.owns m secBlock then d.ucodeReject 1
  else if st = 1 ∨ st = 2 then d.ucodeReject 2
  else if mask = 0 ∨ (List.range nShuttles).any (fun s => bit mask s && (d.ustore s).shd.src == 3) then d.ucodeReject 3
  else
    let ms := d.rd Reg.UCODE_SWAP_CFG.limit
    let lim := if ms = 0 then none else some (BitVec.ofNat 48 (d.now + ms * 100000))
    iter (fun s d => if bit mask s && !(d.ustore s).pend then d.modUstore s fun t => { t with pend := true, limit := lim } else d)
      nShuttles (d.wr Reg.UCODE_STATUS.state 3)

def execUcodeSwap (m : Master) (s : State) : Out := lift s fun d => d.ucodeSwap m

def execSwapAbort (_m : Master) (s : State) : Out :=
  lift s fun d => (iter (fun s d => d.swapGiveUp s) nShuttles d).swapSettle

/-- The swap of shuttle `s` may act: no context of its home loom is in a wait of kind 5, no instruction of a resident
context is in flight, and none waits to be retried (R525, R526, R528). -/
def Dev.swapOpen (d : Dev) (s : Nat) : Bool :=
  let t := d.ustore s
  t.refill.isNone
    && d.ctxs.all (fun e => e.2.home.toNat != s
        || (!(e.2.state == .waiting && e.2.waitKind == 5) && !(e.2.state == .ready && decide (e.2.wait ≠ .none))))
    && !t.retry.any fun r => (d.ctx r.1).state == .ready

/-- A pending shuttle has compared its shadow with its source, `mismatches` times in vain (R525); it swaps at the first
instant that allows it (R526). -/
def Dev.shuttleSwap (d : Dev) (s mismatches : Nat) : Dev :=
  let t := d.ustore s
  if !t.pend then d
  else if mismatches = 2 then ((d.swapGiveUp s).flag Reg.UCODE_STATUS.swap_fail).swapSettle
  else if !d.swapOpen s then d
  else
    let d := d.modUstore s fun t => { t with act := t.shd, shd := t.act, pend := false, limit := none }
    (d.logRec 0x16 (s + t.shd.version / 256 * 256)).swapSettle

def execShuttleSwap (sh : Fin 25) (mismatches : Fin 3) (s : State) : Out := lift s fun d => d.shuttleSwap sh.val mismatches.val

def execSwapTimeout (sh : Fin 25) (s : State) : Out :=
  lift s fun d =>
    match (d.ustore sh.val).limit with
    | some t => (((d.localTo t.toNat).swapGiveUp sh.val).flag Reg.UCODE_STATUS.swap_timeout).swapSettle
    | none => d

/-! Sure mode. -/

/-- Shuttle `s` enters sure mode (R531). -/
def Dev.sureIn (d : Dev) (s : Nat) (auto : Bool) : Dev :=
  if (d.ustore s).sure then d
  else (d.modUstore s fun t => { t with sure := true }).logRec 0x12 (s + 32 * b2n auto)

def execSureEnter (_m : Master) (s : State) : Out :=
  lift s fun d => iter (fun k d' => if bit (d.rd Reg.UCODE_MASK.shuttles) k then d'.sureIn k false else d') nShuttles d

def execSureExit (m : Master) (s : State) : Out :=
  lift s fun d =>
    if !d.owns m secBlock then d.ucodeReject 1
    else iter (fun k d' =>
      if bit (d.rd Reg.UCODE_MASK.shuttles) k && (d'.ustore k).sure then (d'.modUstore k fun t => { t with sure := false }).logRec 0x13 k else d')
      nShuttles d

/-! Machine checks. -/

/-- The sure-mode window in ticks: a window of 0 acts as 1 ms (R534). -/
def Dev.sureWindow (d : Dev) : Nat := max (d.rd Reg.UCODE_SURE_CFG.window) 1 * 100000

/-- Machine checks and mismatches of shuttle `s` within the window (R531). -/
def Dev.sureRecent (d : Dev) (s : Nat) : Nat := ((d.ustore s).errs.filter fun t => decide (d.elapsed t < d.sureWindow)).length

/-- A microword of the instruction that context `c` is issuing fails, or its dispatch entry does: issue stops for a refill, after
which the instruction enters its sequence again (R514, R518, R530). -/
def Dev.microFail (d : Dev) (s c : Nat) (sure : Bool) : Dev :=
  let t := d.ustore s
  if (d.ctx c).home.toNat ≠ s ∨ !d.canIssue c ∨ (sure ∧ !t.sure) then d
  else
    let again := t.retry.any fun r => r.1 == c && (if sure then r.2.2 else r.2.1)
    let seen := match t.retry with
      | some (x, a, b) => if x = c then (a, b) else (false, false)
      | none => (false, false)
    let d := d.modUstore s fun t => { t with refill := some ⟨c, again, sure⟩, retry := some (c, seen.1 || !sure, seen.2 || sure), entry := some (d.microEntry s c) }
    if sure then (if s < 24 then d.evc 0x29 s else d).flag Reg.UCODE_STATUS.sure_mismatch else d

def execMachineCheck (sh : Fin 25) (c : CtxId) (s : State) : Out := lift s fun d => d.microFail sh.val c.val false

def execSureModeMismatch (sh : Fin 25) (c : CtxId) (s : State) : Out := lift s fun d => d.microFail sh.val c.val true

/-- One more machine check or mismatch is counted, and sure mode is entered at the threshold (R531). -/
def Dev.microCount (d : Dev) (s : Nat) : Dev :=
  let d := d.modUstore s fun t => { t with total := satInc 16 t.total, errs := (t.errs.filter fun x => decide (d.elapsed x < d.sureWindow)) ++ [d.reed.time] }
  let th := d.rd Reg.UCODE_SURE_CFG.threshold
  if th ≠ 0 ∧ th ≤ d.sureRecent s then d.sureIn s true else d

/-- Context `c` of shuttle `s` faults with class MACHINE and detail `det` (R519, R530, R533). -/
def Dev.machineFault (d : Dev) (s c det : Nat) : Dev :=
  let d := (d.modUstore s fun t => { t with retry := none, entry := none }).flag Reg.UCODE_STATUS.mc_fail
  let d := d.logRec 0x11 (s + 32 * det + 128 * c)
  if (d.ctx c).state = .ready then d.faultCtx c (fMachine det) else d

/-- The refill of shuttle `s` ends (R518, R519, R530); `bad`: its source held an uncorrectable error. -/
def Dev.refillEnd (d : Dev) (s : Nat) (bad : Bool) : Dev :=
  match (d.ustore s).refill with
  | none => d
  | some r =>
    let src := (d.ustore s).act.src
    let wasSure := (d.ustore s).sure
    let d := (d.modUstore s fun t => { t with refill := none }).microCount s
    if bad then
      let d := d.machineFault s r.ctx 1
      if s < 24 then d.loomErr s 5 else d
    else if r.second then
      let d := d.machineFault s r.ctx (if r.sure then 2 else 1)
      if s < 24 then d.loomErr s 3 else d
    else if r.sure then d
    else
      let d := (d.flag Reg.UCODE_STATUS.mc).logRec 0x10 (s + 32 * src + 128 * b2n wasSure)
      if s < 24 then d.evc 0x28 s else d

def execControlStoreRefillComplete (sh : Fin 25) (sourceBad : Bool) (s : State) : Out := lift s fun d => d.refillEnd sh.val sourceBad

end Sys2Proof.Machine
end

