-- ==== Sys2Proof/Machine/Depend.lean ====
section
/-! DEFINITION. Authority (R535 to R540), error containment and quarantine (R541 to R550), and the event counters
(R556 to R558). -/
namespace Sys2Proof.Machine
open Sys2Proof

/-! Authority. -/

/-- An owner write or a seize of block `b` is refused (R537, R561). -/
def Dev.noteReject (d : Dev) (m : Master) (b : Nat) : Dev :=
  ((d.wr Reg.GLB_OWNER_STATUS.block b).wr Reg.GLB_OWNER_STATUS.writer (masterCode m)).flag Reg.GLB_OWNER_STATUS.owner_reject

/-- The block of field `i` of owner slot 0 GLB_OWNER, 1 GLB_OWNER_LOOM_LO, 2 GLB_OWNER_LOOM_HI, and the number of fields. -/
def ownerField (slot i : Nat) : Nat := if slot = 0 then i else if slot = 1 then 16 + i else 32 + i
def ownerFields (slot : Nat) : Nat := if slot = 0 then 10 else if slot = 1 then 16 else 8

/-- Block `b` is written with owner `v`, judged against the ownership `o` before the write (R537). -/
def Dev.ownerSet (o d : Dev) (m : Master) (b v : Nat) : Dev × Bool :=
  if d.rd (ownerFld b) = v then (d, true)
  else if o.owns m b || o.owns m 0 then
    (((d.wr (ownerFld b) v).logRec 0x26 (b + 64 * v + 256 * masterCode m)).evc 0x9F 24, true)
  else (d.noteReject m b, false)

/-- A write of an owner register (R537). Block 0 is changed by its owner only, which both conditions say of it. -/
def Dev.ownerWrite (d : Dev) (m : Master) (slot v : Nat) : Dev :=
  let r := iter (fun i (r : Dev × Bool) => let q := Dev.ownerSet d r.1 m (ownerField slot i) (bits v (2 * i) 2); (q.1, r.2 && q.2))
    (ownerFields slot) (d, true)
  if r.2 then r.1 else r.1.refuse true

def execOwnerWrite (m : Master) (slot : Fin 3) (v : BitVec 32) (s : State) : Out := lift s fun d => d.ownerWrite m slot.val v.toNat

/-- Every block of R535. -/
def allBlocks : List Nat := List.range 10 ++ (List.range 24).map (16 + ·)

/-- Master `m` becomes the owner of every block (R539). -/
def Dev.seizeAll (d : Dev) (m : Master) : Dev :=
  (allBlocks.foldl (fun d b => if d.owns m b then d else (d.wr (ownerFld b) (masterCode m)).evc 0x9F 24) d).logRec 0x27 (masterCode m)

/-- The lock of R607 holds. -/
def Dev.secLocked (d : Dev) : Bool := d.on Reg.SEC_STATUS.locked

/-- An RWC field that the lock of R607 covers is written by master `m`; a value it holds is not judged (R13, R617). -/
def Dev.writeRwc (d : Dev) (own : Bool) (refuseOwn : Dev → Dev) (f : Fld) (v : Nat) : Dev :=
  if d.rd f = v then d
  else if !own then refuseOwn d
  else if d.secLocked then d.rejectWith Reg.GLB_STATUS.lock_reject false
  else d.wr f v

/-- A write of `GLB_TAKEOVER`; every field is judged against the state before it (R539). -/
def Dev.takeover (d : Dev) (m : Master) (v : Nat) : Dev :=
  let may := (m == .board && d.on Reg.GLB_TAKEOVER.bp_en) || (m == .core && d.on Reg.GLB_TAKEOVER.cs_en)
  let own := d.owns m 0
  let d := d.writeRwc own (fun d => d.ownerReject m 0) Reg.GLB_TAKEOVER.bp_en (bits v 1 1)
  let d := d.writeRwc own (fun d => d.ownerReject m 0) Reg.GLB_TAKEOVER.cs_en (bits v 2 1)
  if bit v 0 then (if may then d.seizeAll m else d.ownerReject m 0) else d

def execSeize (m : Master) (v : BitVec 32) (s : State) : Out := lift s fun d => d.judged (·.takeover m v.toNat)

/-! Quarantine (R543 to R547). -/

def execQuarantineCommand (_m : Master) (n : LoomId) (s : State) : Out := lift s fun d => d.askQuar n.val 4

/-- A die hub link fails: its six looms meet an error of kind 6 (R541, R543). -/
def execDieHubLinkFailure (die : Fin 4) (s : State) : Out :=
  lift s fun d => iter (fun i d =>
    let n := 6 * die.val + i
    if d.on (Reg.LOOM.QUAR.hub_down n) then d else (d.wr (Reg.LOOM.QUAR.hub_down n) 1).loomErr n 6) 6 d

def execDieHubLinkRestored (die : Fin 4) (s : State) : Out :=
  lift s fun d => iter (fun i d => d.wr (Reg.LOOM.QUAR.hub_down (6 * die.val + i)) 0) 6 d

/-- The pattern path of a quarantined loom: the burst ends at the next period boundary, and the path is HELD then (R544, R625). -/
def Dev.quarPattern (d : Dev) (n : Nat) : Dev :=
  let d := d.modPat n Pat.emptyWindow
  match (d.pat n).burst with
  | some b =>
    if b.ended.isSome then d.setUnit (kPattern n) .held
    else
      let d := d.loomSiteStatus n 0x05
      if b.started then d.modBurst n fun b => { b with halt := some (b.halt.getD 4) } else d.endPlay n 4
  | none => d.setUnit (kPattern n) .held

/-- The shuttle of a quarantined loom: its resident contexts are saved in their states, and a swap is given up (R528, R544). -/
def Dev.quarShuttle (d : Dev) (n : Nat) : Dev :=
  let d := { d with ctxs := d.ctxs.map fun (e : Nat × Ctx) => if e.2.home.toNat = n then (e.1, { e.2 with slot := none, leave := false }) else e }
  ((d.swapGiveUp n).swapSettle).setUnit (kShuttle n) .held

/-- Waits of contexts of other shuttles on the units of loom `n` end with class QUARANTINE (R546). -/
def Dev.quarWaits (d : Dev) (n : Nat) : Dev :=
  let other := fun (x : Ctx) => x.home.toNat != n
  let d := d.releaseIf (fun x => other x && match x.wait with
    | .mwait k _ => k == n | .mload k _ => k == n | .mstart k _ => k == n | .mloading k => k == n
    | .burst k => k == n | .startBurst k _ _ _ => k == n | _ => false) (.fault (fQuarantine n))
  let d' := d.modMill n fun x => { x with queue := x.queue.filter fun c => !other (d.ctx c) }
  d'.modPat n fun p => { p with startQ := p.startQ.filter fun c => !other (d.ctx c) }

/-- The monitors of loom `n`, by the bases of their registers. -/
def loomMons (n : Nat) : List Nat :=
  (List.range 32).flatMap (fun k => [monBase (32 * n + k) false, monBase (32 * n + k) true])
    ++ (List.finRange 8).map fun m => if h : n < 24 then monIdBase (.loom ⟨n, h⟩ m) else 0

/-- The Tapestry outputs bound to loom `n`. -/
def Dev.tapsOf (d : Dev) (n : Nat) : List Nat := [0, 1].filter fun o => d.rd (Reg.TAP.CFG.loom o) == n

/-- The quarantine that was asked for begins: every unit of the loom stops and shows HELD (R544). -/
def Dev.quarBegin (d : Dev) (n : Nat) : Dev :=
  match (d.box n).pend with
  | none => d
  | some cause =>
    let d := (((d.modBox n fun b => { b with pend := none }).wr (Reg.LOOM.QUAR.quarantined n) 1).wr (Reg.LOOM.QUAR.cause n) cause)
    let d := (d.logRec 0x21 (n + 32 * cause)).flag Reg.GLB_ERR_STATUS.quar
    let d := (d.quarWaits n).fullStop
    let d := (d.quarPattern n).quarShuttle n
    let d := d.millQuar n
    let d := (d.capEnd n 3).setUnit (kCapture n) .held
    let d := (d.tmeQuarantine n).setUnit (kTme n) .held
    let d := iter (fun k d => d.wfmQuarantine (32 * n + k)) 32 d
    let d := (loomMons n).foldl (fun d b => d.wr (Reg.MON.STATE.state b) monHeld) d
    ((d.tapsOf n).foldl (fun d o => d.tapHold o) d).cmpSettle n

def execQuarantineBegin (n : LoomId) (s : State) : Out := lift s fun d => d.quarBegin n.val

/-- A HELD unit becomes OFF. -/
def Dev.unhold (d : Dev) (k : Nat) : Dev := if d.unit k = .held then d.setUnit k .off else d

/-- The quarantine of loom `n` is over: every HELD unit becomes OFF (R547). -/
def Dev.quarEnd (d : Dev) (n : Nat) : Dev :=
  let d := (d.wr (Reg.LOOM.QUAR.quarantined n) 0).wr (Reg.LOOM.QUAR.cause n) 0
  let d := [kShuttle n, kPattern n, kMill n, kCapture n, kTme n].foldl (fun d k => d.unhold k) d
  let d := (d.tapsOf n).foldl (fun d o => d.tapRelease o) d
  let d := iter (fun k d => if d.rd (Reg.WFM.STATUS.state (32 * n + k)) = 5 then d.wr (Reg.WFM.STATUS.state (32 * n + k)) 0 else d) 32 d
  let d := (loomMons n).foldl (fun d b => if d.rd (Reg.MON.STATE.state b) = monHeld then d.wr (Reg.MON.STATE.state b) monOff else d) d
  (d.modBox n fun b => { b with errs := [], lockHeld := false }).logRec 0x22 n

/-- A write of `LOOM[n].QUAR`.release (R547). -/
def Dev.quarRelease (d : Dev) (m : Master) (n : Nat) : Dev :=
  if !d.owns m (loomBlock n) then d.ownerReject m (loomBlock n)
  else if d.on (Reg.LOOM.QUAR.hub_down n) then d.rejectWith (Reg.LOOM.QUAR.release_reject n) false
  else if d.quar n then d.quarEnd n
  else if (d.box n).lockHeld then (d.unhold (kPattern n)).modBox n fun b => { b with lockHeld := false }
  else d

def execQuarantineRelease (m : Master) (n : LoomId) (s : State) : Out := lift s fun d => d.quarRelease m n.val

/-! Device errors (R548). -/

/-- A device error is reported (R541, R560). -/
def Dev.deviceErr (d : Dev) : Dev := (d.logRec 0x25 256).flag Reg.GLB_ERR_STATUS.device_err

/-- The record of context `c` is uncorrectable; `issued`: the last microword of an instruction in flight has issued, so
that it counts as complete. -/
def Dev.recordLost (d : Dev) (c : Nat) (issued : Bool) : Dev :=
  let x := d.ctx c
  let d := d.deviceErr
  if x.state = .free then d.setCtx c {}
  else
    let d := (d.logRec 0x11 (x.home.toNat + 32 * 3 + 128 * c)).flag Reg.UCODE_STATUS.mc_fail
    if x.state = .parked then d.setCtx c { x with fault := fMachine 3 }
    else
      let step := if x.state = .ready ∧ x.wait = .send ∧ issued then (if x.waitX then 2 else 1) else 0
      let d := d.setCtx c { x with pc := x.pc + BitVec.ofNat 24 step }
      if x.state = .ready ∨ x.state = .waiting then d.faultCtx c (fMachine 3) else d.park c (fMachine 3)

def execContextStoreError (h : StoreHit) (s : State) : Out :=
  lift s fun d =>
    match h with
    | .ctx c issued => d.recordLost c.val issued
    | .site i => { d.deviceErr with sites := Tab.set {} d.deviceErr.sites i.val { d.site i.val with valid := false } }

/-! Event counters (R556 to R558, R563). -/

/-- The block of the event counters (R535). -/
def evcBlock : Nat := 9

/-- The source of global counter `i` is written: it is cleared, or the write is refused (R556, R557). -/
def Dev.evcSource (d : Dev) (m : Master) (i v : Nat) : Dev :=
  let src := bits v 0 8
  let loom := bits v 8 5
  if d.rd (Reg.EVC_SEL.src i) = src ∧ d.rd (Reg.EVC_SEL.loom i) = loom then d
  else if !d.owns m evcBlock then d.rejectWith Reg.EVC_STATUS.sel_reject true
  else if 0xA0 ≤ src ∨ (src < 0x80 ∧ 24 ≤ loom ∧ loom ≤ 30) then d.rejectWith Reg.EVC_STATUS.sel_reject false
  else ((d.wr (Reg.EVC_SEL.src i) src).wr (Reg.EVC_SEL.loom i) loom).wr (Reg.EVC.count i) 0

/-- The source of counter `i` of loom `n` is written: byte i of the slot value (R557). -/
def Dev.evcLoomSource (d : Dev) (m : Master) (n i v : Nat) : Dev :=
  let src := bits v (8 * i) 8
  if 4 ≤ i ∨ d.rd (Reg.LOOM.EVC_SEL.src n i) = src then d
  else if !d.owns m (loomBlock n) then d.rejectWith Reg.EVC_STATUS.sel_reject true
  else if 0x80 ≤ src then d.rejectWith Reg.EVC_STATUS.sel_reject false
  else (d.wr (Reg.LOOM.EVC_SEL.src n i) src).wr (Reg.LOOM.EVC.count n i) 0

def execEvcSourceWrite (m : Master) (loom : Option LoomId) (i : Fin 16) (v : BitVec 32) (s : State) : Out :=
  lift s fun d => match loom with
    | none => d.evcSource m i.val v.toNat
    | some n => d.evcLoomSource m n.val i.val v.toNat

/-- A write of `EVC_CTRL`.run and sync (R558): with sync the new run waits for the next multiple of 65,536 ticks. -/
def Dev.evcRunWrite (d : Dev) (m : Master) (v : Nat) : Dev :=
  let run := bits v 0 16
  let sync := bits v 16 1
  if d.rd Reg.EVC_CTRL.run = run ∧ d.rd Reg.EVC_CTRL.sync = sync then d
  else if !d.owns m evcBlock then d.ownerReject m evcBlock
  else
    let d := d.wr Reg.EVC_CTRL.sync sync
    if sync = 1 then (if d.rd Reg.EVC_CTRL.run = run then d else { d with evcRun := some run })
    else { d with evcRun := none }.wr Reg.EVC_CTRL.run run

def execEvcRunWrite (m : Master) (v : BitVec 32) (s : State) : Out := lift s fun d => d.evcRunWrite m v.toNat

/-- Reed time reaches the next multiple of 65,536 ticks. -/
def execEvcSyncStart (s : State) : Out :=
  lift s fun d =>
    match d.evcRun with
    | some run =>
      let t := multipleFrom d.now 65536
      if d.comes t then { d.advanceTo t with evcRun := none }.wr Reg.EVC_CTRL.run run else d
    | none => d

/-- Every global counter is cleared (R563). -/
def execClearAll (m : Master) (s : State) : Out :=
  lift s fun d =>
    if d.owns m evcBlock then iter (fun i d => d.wr (Reg.EVC.count i) 0) 16 d else d.ownerReject m evcBlock

end Sys2Proof.Machine
end

