-- ==== Sys2Proof/Machine/Host.lean ====
section
/-! DEFINITION. The PCIe endpoint: BAR2 (R377, R391), configuration (R386, R388), resets (R389), bus mastering (R390),
messages (R400) and software interrupts (R402). -/
namespace Sys2Proof.Machine
open Sys2Proof

/-! BAR2. -/

/-- A BAR2 request is served, or waits behind those received before it and for a host credit (R391); before gran_ready it is
answered at once (R377). -/
def Dev.bar2Access (d : Dev) (i : Instr) (f : Dev → Dev) : Dev :=
  if !d.granOpen || d.mayAccess .bar2 then f d else d.joinQueue { ask := .cmd i, q := .bar2 }

/-- A BAR2 read: an uncorrectable half comes back as zeros, with the poisoned bit (R382, R391); zeros before gran_ready. -/
def Dev.bar2Read (d : Dev) (a n : Nat) : Dev :=
  if !d.granOpen then
    let d := (d.evc 0x8A 24).flag Reg.GLB_STATUS.bar2_early
    { d with pcie := { d.pcie with bar2 := List.replicate n 0, poison := false } }
  else
    let r := ((d.evc 0x8A 24).passing .bar2 (linesOf a n)).touchAll ⟨4, 0⟩ (a / 32) (fun _ => .good) (halves a n)
    let bs := (List.range n).map fun i => if r.1.ecc ((a + i) / 32) = .uncorr then 0 else r.1.byte (a + i)
    { r.1 with pcie := { r.1.pcie with bar2 := bs, poison := !r.2 } }

def execBar2Read (addr : BitVec 33) (len : Nat) (s : State) : Out :=
  if granSize < addr.toNat + len then .fault (.illFormed "BAR2_READ")
  else lift s fun d => d.bar2Access (.bar2Read addr len) (·.bar2Read addr.toNat len)

/-- A BAR2 write: discarded before gran_ready; applied after the writes received before it (R391). -/
def Dev.bar2Write (d : Dev) (a : Nat) (bs : List Byte) (be : List Bool) : Dev :=
  if !d.granOpen then (d.evc 0x8B 24).flag Reg.GLB_STATUS.bar2_early
  else (((d.evc 0x8B 24).passing .bar2 (linesOf a bs.length)).writeBytes ⟨4, 0⟩ a ((bs.zip be).map fun e => if e.2 then some e.1 else none)).1

def execBar2Write (addr : BitVec 33) (bytes : List (BitVec 8)) (be : List Bool) (s : State) : Out :=
  if granSize < addr.toNat + bytes.length ∨ bytes.length ≠ be.length then .fault (.illFormed "BAR2_WRITE")
  else lift s fun d => d.bar2Access (.bar2Write addr bytes be) (·.bar2Write addr.toNat bytes be)

/-! Configuration. -/

/-- What doubleword `r` of configuration space reads, the bits apart that the host may write (R385 to R387): identifiers, a Type 0
header with Interrupt Pin 0, the two 64-bit BARs of 1 MiB and 8 GiB, and the capabilities in one chain. The places in the header
and the capabilities' layouts are those of PCI Express (PRESUMED); the capabilities' places, DESIGN CHOICE (log entry 112). -/
def Dev.cfgFixed (d : Dev) (r : Nat) : Nat :=
  match r with
  | 0 => 0x0768 * 65536 + 0x1E5A
  | 1 => 0x00100000
  | 2 => 0x118000 * 256 + Config.revision.toNat
  | 4 => 0x4
  | 6 => 0xC
  | 11 => d.rd Reg.GLB_PCIE_SUBSYS.subsys_id * 65536 + d.rd Reg.GLB_PCIE_SUBSYS.subsys_vendor
  | 13 => 0x40
  | 16 => 0x00035001
  | 17 => 0x00000008
  | 20 => 0x003F7011
  | 21 => 0x0000C000
  | 22 => 0x0000D000
  | 28 => 0x00020010
  | 29 => 0x00008002
  | 31 => 0x00000840 + min 5 (d.rd Reg.GLB_PCIE_CTRL.max_speed)
  | 32 => d.rd Reg.GLB_PCIE_LINK.width * 2 ^ 20 + d.rd Reg.GLB_PCIE_LINK.speed * 2 ^ 16
  | 64 => 0x15010001
  | 84 => 0x16010003
  | 85 => Config.serial.toNat % 2 ^ 32
  | 86 => Config.serial.toNat / 2 ^ 32
  | 88 => 0x17010019
  | 92 => 0x18010026
  | 96 => 0x1901002A
  | 100 => 0x00010027
  | _ => 0

/-- The bits of doubleword `r` that the host may write: the command register, cache line size, the address bits of the BARs,
Interrupt Line, the power state, MSI-X enable and function mask, Max Payload Size and Max Read Request Size with the attribute
enables, ASPM, and the masks of AER. -/
def cfgMask (r : Nat) : BitVec 32 :=
  match r with
  | 1 => 0x00000546
  | 3 => 0x000000FF
  | 4 => 0xFFF00000
  | 5 => 0xFFFFFFFF
  | 7 => 0xFFFFFFFE
  | 15 => 0x000000FF
  | 17 => 0x00000003
  | 20 => 0xC0000000
  | 30 => 0x00007CFF
  | 32 => 0x000000C3
  | 66 => 0x07FFF030
  | 67 => 0x07FFF030
  | 69 => 0x0000F1C1
  | _ => 0

/-- What the writable bits of a doubleword hold where the host has written nothing: Max Read Request Size 512 bytes, Relaxed
Ordering and No Snoop enabled, and the severities and masks that PCI Express gives (PRESUMED). -/
def cfgDefault (r : Nat) : BitVec 32 :=
  match r with
  | 30 => 0x00002810
  | 67 => 0x00462030
  | 69 => 0x0000E000
  | _ => 0

/-- What the writable bits of a doubleword hold: those that other commands move as well, from their own homes (R390, R400). -/
def Dev.cfgHeld (d : Dev) (r : Nat) : BitVec 32 :=
  let v := (Tab.get (cfgDefault r) d.pcie.cfg r).toNat
  if r = 1 then BitVec.ofNat 32 (putBits v 2 1 (b2n d.pcie.bme))
  else if r = 17 then (if d.pcie.d3 then 3 else 0)
  else if r = 20 then BitVec.ofNat 32 (b2n d.pcie.msixEn * 2 ^ 31 + b2n d.pcie.msixMaskAll * 2 ^ 30)
  else BitVec.ofNat 32 v

/-- The value of doubleword `r`. -/
def Dev.cfgValue (d : Dev) (r : Nat) : BitVec 32 := (d.cfgHeld r &&& cfgMask r) ||| (BitVec.ofNat 32 (d.cfgFixed r) &&& ~~~cfgMask r)

/-- Max Payload Size and Max Read Request Size in bytes, as programmed: at most 512 and 4,096 (R385). -/
def Dev.maxPayload (d : Dev) : Nat := min 512 (128 * 2 ^ bits (d.cfgValue 30).toNat 5 3)
def Dev.maxRead (d : Dev) : Nat := min 4096 (128 * 2 ^ bits (d.cfgValue 30).toNat 12 3)

/-- cfg_commit, from the owner of block 0 (R388, R619). -/
def execCfgCommit (m : Master) (s : State) : Out :=
  lift s fun d => if d.owns m 0 then d.wr Reg.GLB_PCIE_CTRL.cfg_done 1 else d.ownerReject m 0

/-! Messages (R390, R400). -/

/-- Pending messages that may leave now leave. -/
def Dev.sendPending (d : Dev) : Dev :=
  iter (fun v d =>
    if Tab.get false d.pcie.pba v && d.pcie.mayPost v then
      { d with pcie := { d.pcie with pba := Tab.set false d.pcie.pba v false } }.message v
    else d) 64 d

/-- Bus mastering changes: messages, and skips, that waited for it go on (R390). -/
def Dev.mastering (d : Dev) (bme d3 : Bool) : Dev :=
  let d := Dev.sendPending { d with pcie := { d.pcie with bme := bme, d3 := d3 } }
  if d.pcie.master then d.dmaSkips else d

def execBusMasterEnableChange (bme d3 : Bool) (s : State) : Out := lift s fun d => d.mastering bme d3

/-- What a write of `v` to doubleword `r` of configuration space moves: Bus Master Enable and the power state (R390), and MSI-X
Enable and Function Mask, which let pending messages go (R400). A power state but D0 and D3hot is not taken (R385). -/
def Dev.cfgEffect (d : Dev) (r v : Nat) : Dev :=
  if r = 1 then d.mastering (bit v 2) d.pcie.d3
  else if r = 17 then (if v % 4 = 0 ∨ v % 4 = 3 then d.mastering d.pcie.bme (decide (v % 4 = 3)) else d)
  else if r = 20 then Dev.sendPending { d with pcie := { d.pcie with msixEn := bit v 31, msixMaskAll := bit v 30 } }
  else d

/-- A configuration request: Request Retry Status until cfg_done (R388). -/
def Dev.cfgRequest (d : Dev) (write : Bool) (r : Nat) (v : BitVec 32) : Dev :=
  if !d.on Reg.GLB_PCIE_CTRL.cfg_done then { d with pcie := { d.pcie with rsp := none } }
  else
    let d := if write then { d with pcie := { d.pcie with cfg := Tab.set (cfgDefault r) d.pcie.cfg r (v &&& cfgMask r) } }.cfgEffect r v.toNat else d
    { d with pcie := { d.pcie with rsp := some (d.cfgValue r) } }

def execPcieConfigRequest (write : Bool) (reg : BitVec 10) (v : BitVec 32) (s : State) : Out :=
  lift s fun d => d.cfgRequest write reg.toNat v

/-- Word 3 of a vector's entry of the MSI-X table, with its mask bit (R400). -/
def msixKey (v : Nat) : Nat := 4 * v + 3

/-- What an entry of the table holds where nothing was written: every vector is masked (R389). -/
def msixDefault (k : Nat) : BitVec 32 := if k % 4 = 3 then 1 else 0

/-- A vector is unmasked: its entry's mask bit is cleared. -/
def execMsixUnmask (v : Fin 64) (s : State) : Out :=
  lift s fun d =>
    let k := msixKey v.val
    let w := Tab.get (msixDefault k) d.pcie.table k
    Dev.sendPending { d with pcie := { d.pcie with table := Tab.set (msixDefault k) d.pcie.table k (w &&& ~~~1) } }

/-- GLB_IRQ_SW_SET: from any master (R402). -/
def Dev.irqSw (d : Dev) (v : Nat) : Dev := iter (fun b d => if bit v b then d.setBit Reg.GLB_IRQ_SW.cause b else d) 24 d

def execIrqSwSet (_m : Master) (v : BitVec 32) (s : State) : Out := lift s fun d => d.irqSw v.toNat

/-! Resets and the link (R389, R403). -/

/-- A request is a BAR2 read. -/
def Held.isRead (h : Held) : Bool := match h.ask with | .cmd (.bar2Read _ _) => true | _ => false

/-- What every reset of R389 does; BAR2 reads that wait are discarded. -/
def Dev.pcieReset (d : Dev) : Dev :=
  let d := iter (fun i d => d.dmaPcieReset i) 8 d
  { d with pcie := { sent := d.pcie.sent },
           waitGran := Tab.set [] d.waitGran (partKey .bar2) ((d.waiting .bar2).filter fun h => !h.isRead) }

/-- The link is down. -/
def Dev.linkOff (d : Dev) : Dev := ((d.wr Reg.GLB_STATUS.link_up 0).wr Reg.GLB_PCIE_LINK.speed 0).wr Reg.GLB_PCIE_LINK.width 0

def execPcieConventionalReset (s : State) : Out := lift s fun d => d.pcieReset.linkOff.wr Reg.GLB_PCIE_LINK.hot_reset_seen 1
def execHotReset (s : State) : Out := lift s fun d => d.pcieReset.linkOff.wr Reg.GLB_PCIE_LINK.hot_reset_seen 1
def execLinkDown (s : State) : Out := lift s fun d => d.pcieReset.linkOff.wr Reg.GLB_PCIE_LINK.link_down_seen 1
def execFunctionLevelReset (s : State) : Out := lift s fun d => d.pcieReset.wr Reg.GLB_PCIE_LINK.flr_seen 1

/-- The link trains: at 2.5 to 32 GT/s (codes 1 to 5), at most max_speed, on 1, 2 or 4 lanes (R385, R403). -/
def execPcieLinkUp (speed : BitVec 4) (width : BitVec 6) (s : State) : Out :=
  lift s fun d =>
    if 1 ≤ speed.toNat ∧ speed.toNat ≤ min 5 (d.rd Reg.GLB_PCIE_CTRL.max_speed) ∧ (width = 1 ∨ width = 2 ∨ width = 4) then
      ((d.wr Reg.GLB_STATUS.link_up 1).wr Reg.GLB_PCIE_LINK.speed speed.toNat).wr Reg.GLB_PCIE_LINK.width width.toNat
    else d

end Sys2Proof.Machine
end

