-- ==== Sys2Proof/Machine/Irq.lean ====
section
/-! DEFINITION. The messages that an access to flags or enables requests (R400). -/
namespace Sys2Proof.Machine
open Sys2Proof

/-- The vectors whose causes or enables slot `a` holds (R399). -/
def irqVecs (a : Nat) : List Nat :=
  if a = 0x0C ∨ a = 0x10 then [0]
  else if 0x100 ≤ a ∧ a < 0x200 then [1 + (a - 0x100) / 0x20]
  else if a = 0x60 then [9]
  else if a = Reg.TH_STATUS.warn_seen.addr ∨ a = Reg.TH_IRQ_EN.en.addr then [10]
  else if a = Reg.CTX_PARKED.new.addr then [11]
  else if a = Reg.GLB_ERR_STATUS.quar.addr ∨ a = Reg.GLB_ERR_IRQ_EN.en.addr then [12]
  else if a = Reg.REED_IRQ.late.addr ∨ a = Reg.REED_IRQ_EN.en.addr then [13]
  else if a = Reg.CAL_STATUS.done.addr ∨ a = Reg.CAL_IRQ_EN.en.addr then [14]
  else if a = Reg.UCODE_STATUS.mc.addr ∨ a = Reg.UCODE_IRQ_EN.en.addr ∨ a = Reg.SEC_STATUS.att_done.addr ∨ a = Reg.SEC_CTRL.irq_en.addr
      ∨ a = Reg.FL_STATUS.hash_fail.addr then [15]
  else if a = 0x1C then (List.range 24).map (40 + ·)
  else if 0x10000 ≤ a ∧ a < 0x11800 ∧ a % 0x100 / 8 = 0x18 then [16 + (a - 0x10000) / 0x100]
  else []

/-- After an access that turned `o` into `d`, a message is due on vector `v`: a set cause became enabled, or causes were
cleared and an enabled one remains. -/
def Dev.messageDue (o d : Dev) (v : Nat) : Bool :=
  (causesOf v).any (fun c => o.causeSet c && d.causeSet c && !o.causeEn c && d.causeEn c)
    || ((causesOf v).any (fun c => o.causeSet c && !d.causeSet c) && d.pends v)

/-- The messages that an access to slot `a` requests, when it has turned `o` into `d`. -/
def Dev.irqEdge (o d : Dev) (a : Nat) : Dev := (irqVecs a).foldl (fun d v => if Dev.messageDue o d v then d.message v else d) d

/-- W1C bits of field `f`: the 1s of `x` clear theirs. -/
def Dev.clear1 (d : Dev) (f : Fld) (x : Nat) : Dev :=
  let v := d.rd f
  let y := maskTo (fun i => bit v i && !bit x i) f.w
  if v = y then d else d.wr f y

end Sys2Proof.Machine
end

