-- ==== Sys2Proof/Machine/Booster.lean ====
section
/-! DEFINITION. The booster loop, its trips and its ramp (R170, R178 to R182). Codes are held with 24 fraction bits. -/
namespace Sys2Proof.Machine
open Sys2Proof

/-- CC, VSET, KI and KV of the pair of even channel `e` (R191). A pair that has been formed and had no gain written takes what the odd
channel's level fields hold (DESIGN CHOICE, log entry 118). -/
def Dev.boostCC (d : Dev) (e : Nat) : Int := d.chForce e
def Dev.boostVset (d : Dev) (e : Nat) : Int := d.chForce (e + 1)
def Dev.boostKI (d : Dev) (e : Nat) : Int :=
  sext 24 (d.rd (Reg.CHAN.LVL_DRV.vil (e + 1)) + 2 ^ 16 * (d.rd (Reg.CHAN.LVL_DRV.vih (e + 1)) % 256))
def Dev.boostKV (d : Dev) (e : Nat) : Int :=
  sext 24 (d.rd (Reg.CHAN.LVL_CMP.vol (e + 1)) + 2 ^ 16 * (d.rd (Reg.CHAN.LVL_CMP.voh (e + 1)) % 256))

/-- Largest move of x in one sample while it ramps: 8,388,608 codes per 9 µs (R182). -/
def rampStep : Int := 2 ^ 23 * 2 ^ 24 / 18

/-- x after the samples of one instant (R178), or on its way to 0 (R182). -/
def Dev.boostX (d : Dev) (e : Nat) (v : BitVec 24) : Int :=
  let x := (d.chan e).x
  let cc := d.boostCC e
  match (d.chan e).ramp with
  | .booster k _ => if k = 2 then (if x < 0 then min 0 (x + rampStep) else max 0 (x - rampStep)) else x
  | _ =>
    if d.boostKV e = 0 then fracs cc
    else clampI (fracs (min 0 cc)) (fracs (max 0 cc)) (x + d.boostKV e * (d.boostVset e - v.toInt))

/-- u from x and the shunt code (R178). Where x has fraction bits the division leaves more than 24 of them: rounded down (DESIGN
CHOICE, log entry 60). -/
def Dev.boostU (d : Dev) (e : Nat) (x : Int) (s : BitVec 24) : Int :=
  d.clampOut e ((d.chan e).u + d.boostKI e * (x - fracs s.toInt) / 2 ^ 24)

/-- Whether the cell voltage or the shunt code breaks a trip limit (R170). -/
def Dev.boostOut (d : Dev) (e : Nat) (v s : BitVec 24) : Bool :=
  decide (v.toInt < level24 (d.rd (Reg.CHAN.VCLAMP.lo (e + 1)))) || decide (level24 (d.rd (Reg.CHAN.VCLAMP.hi (e + 1))) < v.toInt)
    || decide (s.toInt < level24 (d.rd (Reg.CHAN.ICLAMP.lo e))) || decide (level24 (d.rd (Reg.CHAN.ICLAMP.hi e)) < s.toInt)

/-- The trips watch the samples: a limit broken on 4 consecutive ones trips the pair (R170). While it stays broken, a flag that has
been cleared is set again (R172). -/
def Dev.boostTrip (d : Dev) (e : Nat) (v s : BitVec 24) : Dev :=
  if d.boostOut e v s then
    let k := (d.chan e).tripCount + 1
    let d := d.modChan e fun x => { x with tripCount := k }
    if k = 4 then ((d.wr (Reg.CHAN.STATUS.boost_trip e) 1).evc 0x33 (e / 32)).trip e
    else if 4 < k then d.wr (Reg.CHAN.STATUS.boost_trip e) 1
    else d
  else d.modChan e fun x => { x with tripCount := 0 }

/-- The loop computes its next output (R178, R180), while it is closed. -/
def Dev.boostLoop (d : Dev) (e : Nat) (v s : BitVec 24) : Dev :=
  if (d.chan e).loopOpen then d
  else
    let hold := match (d.chan e).ramp with
      | .booster k _ => k == 1
      | _ => false
    let x := d.boostX e v
    let u := if hold then (d.chan e).u else d.boostU e x s
    let d1 := d.modChan e fun y => { y with x := x, u := u, uQueue := y.uQueue ++ [u] }
    (d1.cvFlag e).wr (Reg.CHAN.STATUS.vclamp_act e) (b2n (decide (u = fracs (d.vLo e)) || decide (u = fracs (d.vHi e))))

/-- R178: one sample of the pair 2i, 2i + 1, from the raw codes of the cell voltage, which the even core takes, and of the shunt, which
the odd core takes (R174, R487). A sample at an end of the code range is over-range (R162). -/
def Dev.boostSample (d : Dev) (e : Nat) (rawV rawS : BitVec 24) : Dev :=
  if d.evenOfPair e then
    let v := d.voltCode e rawV
    let s := d.shuntCode (e + 1) (d.rd (Reg.CHAN.CTRL.range e)) rawS
    let d := (d.modChan e fun x => { x with vNow := v }).modChan (e + 1) fun x => { x with iNow := s }
    let d := if overRange v then d.wr (Reg.CHAN.STATUS.over_range e) 1 else d
    let d := if overRange s then d.wr (Reg.CHAN.STATUS.over_range (e + 1)) 1 else d
    let d := d.boostLoop e v s
    if d.chMode e = 4 ∨ d.chMode e = 5 then d.boostTrip e v s else d
  else d

def execBoosterLoopSample (i : Fin 384) (v s : BitVec 24) (st : State) : Out := lift st fun d => d.boostSample (2 * i.val) v s

/-- R179: the output computed 1.5 µs ago is applied. -/
def Dev.boostApply (d : Dev) (e : Nat) : Dev :=
  match (d.chan e).uQueue with
  | [] => d
  | u :: t => d.modChan e fun x => { x with uQueue := t, uOut := u }

def execBoosterUpdateApply (i : Fin 384) (s : State) : Out := lift s fun d => d.boostApply (2 * i.val)

/-- R182: a step of the booster ramp ends. The loop opens after the third, and no control limit acts any more. After the fourth, the
control output is at the off level, and the pair shows Off and ends; an off level outside VCLAMP is held at its nearer end, since
R174 has the output within it (DESIGN CHOICE, log entry 118). The end of the ramp is no change of mode where mode 0 or 3 was
written before: the pair has settled (R154, R186). -/
def Dev.boostPhase (d : Dev) (e : Nat) : Dev :=
  match (d.chan e).ramp with
  | .booster k off =>
    if k < 4 then
      let d := (d.modChan e fun x => { x with ramp := .booster (k + 1) off, x := if k = 2 then 0 else x.x,
                                              loopOpen := x.loopOpen || k == 3, uQueue := if k = 3 then [] else x.uQueue }).cvFlag e
      if k = 3 then d.wr (Reg.CHAN.STATUS.vclamp_act e) 0 else d
    else
      let out := d.clampOut e (fracs (level24 (d.rd (Reg.CHAN.LVL_DRV.vil e))))
      let d := (d.modChan e fun x => { x with ramp := .none, tripRamp := false, uOut := out }).groupWr e Reg.CHAN.STATUS.settled
        (b2n !(off && d.chMode e != 0))
      ((if off then d.modeOff e else d).pairEnd e).wfmRamped e
  | _ => d

def execBoosterRampPhaseEnd (i : Fin 384) (s : State) : Out := lift s fun d => d.boostPhase (2 * i.val)

end Sys2Proof.Machine
end

