-- ==== Sys2Proof/Machine/Boot.lean ====
section
/-! DEFINITION. Supplies and the TAP (R573 to R591), resets and start-up (R594 to R604), the lock (R607) and
attestation (R608 to R612). -/
namespace Sys2Proof.Machine
open Sys2Proof

/-- The block of start-up, security and microcode (R535). -/
def bootBlock : Nat := 7

/-- The stage of R597. -/
def Dev.stage (d : Dev) : Nat := d.rd Reg.SEC_STATUS.stage

/-! Device resets (R594 to R596, R614). -/

/-- The device as a reset leaves it (R595): the MRAM, the fuses, the supplies and the TAP are kept, and barred slots
across causes 4 and 5 only. What waits in the log's queue is lost. -/
def Dev.afterReset (d : Dev) (cause : Nat) : Dev :=
  let soft := cause == 4 || cause == 5
  Dev.wr { log := { d.log with queue := [], waiting := [] }, supply := d.supply, jtag := d.jtag, freeCtr := d.freeCtr,
           boot := { pinLow := d.boot.pinLow, barredA := soft && d.boot.barredA, barredB := soft && d.boot.barredB } }
    Reg.SEC_STATUS.reset_cause cause

/-- The record being written when the reset falls is torn after `n` bytes; none where `n` is 0 (R504, R577). -/
def Dev.tear (d : Dev) (n : Nat) : Dev :=
  match d.log.queue with
  | [] => d
  | e :: _ => d.mramWrite (16 * d.log.slot) ((logBytes d.log.seq e).take n)

/-- RESET_N goes low (R594). Before the first release after power-good, or after a supply fault, the cause stays. -/
def execPinReset (torn : Fin 16) (s : State) : Out :=
  lift s fun d =>
    let cause := if d.boot.held ∧ (d.rd Reg.SEC_STATUS.reset_cause = 1 ∨ d.rd Reg.SEC_STATUS.reset_cause = 3)
      then d.rd Reg.SEC_STATUS.reset_cause else 2
    let d := (d.tear torn.val).afterReset cause
    { d with boot := { d.boot with pinLow := true } }

/-- A brown-out of a rail other than VHI and VLO (R577). -/
def execBrownOut (torn : Fin 16) (s : State) : Out :=
  lift s fun d =>
    let d := (d.tear torn.val).afterReset 3
    { d with supply := { good := false, vcore := 750 } }

/-- Internal power-good (R575). -/
def execPowerGood (s : State) : Out := lift s fun d => { d with supply := { d.supply with good := true } }

/-- Start-up begins: stage TRAIN (R597, R598). -/
def Dev.startUp (d : Dev) : Dev := { d with boot := { d.boot with held := false, pinLow := false } }.wr Reg.SEC_STATUS.stage 1

/-- RESET_N is high and power-good has held for 1 ms (R575): the release is counted among those of RESET_N (R508). -/
def execResetRelease (s : State) : Out :=
  lift s fun d =>
    if !d.boot.held || !d.supply.good || d.rd Reg.SEC_STATUS.reset_cause == 4 || d.rd Reg.SEC_STATUS.reset_cause == 5 then d
    else { d with log := { d.log with life := { d.log.life with releases := d.log.life.releases + 1 } } }.startUp

/-- The 10 µs of an internal reset have passed (R596). -/
def execInternalResetRelease (s : State) : Out :=
  lift s fun d =>
    if d.boot.held && !d.boot.pinLow && d.supply.good && (d.rd Reg.SEC_STATUS.reset_cause == 4 || d.rd Reg.SEC_STATUS.reset_cause == 5)
    then d.startUp else d

/-- A device reset that the IF768 makes itself, after the records that wait have reached the MRAM (R594, R599). -/
def Dev.selfReset (d : Dev) (cause : Nat) : Dev := d.logDrain.afterReset cause

/-! Supplies (R576, R578). -/

/-- Channel `c` and what governs it are Off and ramp nothing: nothing of it changes when its ball opens (R186). -/
def Dev.atRest (d : Dev) (c : Nat) : Bool := d.chMode (d.lead c) == 0 && (d.chan (d.lead c)).ramp == .none

/-- A fall of VHI or VLO opens the ball of channel `c`, as overstress does, with no ramp (R578). -/
def Dev.openBall (d : Dev) (c : Nat) : Dev :=
  let pair := d.evenOfPair c
  let rest := d.atRest c
  let d := (d.wfmCause c 4).huskFlag (Reg.CHAN.STATUS.husk_over c) c
  let d := (d.modChan c fun x => { x with opened := true, ramp := .none, rampFrom := none, tripRamp := false }).dropDrive c
  let d := (if rest then d else d.unsettle c).modeOff c
  (if pair then d.pairEnd c else d).wfmRamped c

def execVhiVloBrownOut (s : State) : Out := lift s fun d => iter (fun c d => d.openBall c) 768 d

/-- One step of the VCORE target (R576): at most 10 mV, within 650 to 850 mV; a regulator that does not answer leaves it. -/
def execAvsVcoreStep (target : Nat) (answered : Bool) (s : State) : Out :=
  lift s fun d =>
    if answered ∧ !d.boot.held ∧ 650 ≤ target ∧ target ≤ 850 ∧ target ≤ d.supply.vcore + 10 ∧ d.supply.vcore ≤ target + 10
    then { d with supply := { d.supply with vcore := target } } else d

/-! The TAP (R589 to R591). -/

def execTapReset (s : State) : Out := lift s fun d => { d with jtag := { d.jtag with instr := .idcode } }

/-- A scan of the boundary register: it captures the balls, and what is shifted in is held for EXTEST and CLAMP. -/
def Dev.tapScan (d : Dev) (i : TapInstr) (balls shifted : BitVec 43) : Dev := { d with jtag := ⟨i, balls, shifted⟩ }

def execExtest (balls shifted : BitVec 43) (s : State) : Out := lift s fun d => d.tapScan .extest balls shifted

def execSamplePreload (balls shifted : BitVec 43) (s : State) : Out := lift s fun d => d.tapScan .sample balls shifted

def Dev.tapSelect (d : Dev) (i : TapInstr) : Dev := { d with jtag := { d.jtag with instr := i } }

def execIdcode (s : State) : Out := lift s fun d => d.tapSelect .idcode

def execClamp (s : State) : Out := lift s fun d => d.tapSelect .clamp

def execHighz (s : State) : Out := lift s fun d => d.tapSelect .highz

def execBypass (s : State) : Out := lift s fun d => d.tapSelect .bypass

/-- What the device identification register reads (R590). -/
def idRegister : Nat := 1 + 2 * 0x56B + 2 ^ 12 * 0x0768 + 2 ^ 28 * (Config.revision.toNat % 16)

/-- What the balls of the boundary register do (R591). -/
inductive BallDrive where
  | function
  | held (cells : BitVec 43)
  | floating
  deriving DecidableEq, Repr

/-- EXTEST, CLAMP and HIGHZ control the balls only while RESET_N is low. -/
def Dev.ballDrive (d : Dev) : BallDrive :=
  if !d.boot.pinLow then .function
  else match d.jtag.instr with
    | .extest | .clamp => .held d.jtag.preload
    | .highz => .floating
    | _ => .function

/-! VERIFY (R600 to R604). -/

/-- A field of `n` bytes at offset `o`, little-endian (R12). -/
def leField (b : List Byte) (o n : Nat) : Nat := leVal ((b.drop o).take n)

/-- A directory copy whose CRC-32 matches (R600). -/
def dirCrcOk (b : List Byte) : Bool := b.length == 64 && crc32 (b.take 60) == leField b 60 4

/-- The copy that VERIFY uses (R600). -/
def bootDir (f : BootFlash) : Option (List Byte) :=
  if dirCrcOk f.dir0 then some f.dir0 else if dirCrcOk f.dir1 then some f.dir1 else none

/-- Check 2 of R602: the constant and reserved fields of the directory and of the manifest, and n. -/
def formOk (dir m : List Byte) : Bool :=
  let n := leField m 14 2
  leField dir 0 4 == 0x42444952 && leField dir 4 2 == 1 && leField dir 6 1 / 4 == 0 && leField dir 7 1 / 4 == 0 && leField dir 16 44 == 0
    && leField m 0 4 == 0x424D4631 && leField m 4 2 == 1 && leField m 9 1 == 0 && decide (1 ≤ n ∧ n ≤ 4096)
    && leField m 18 1 / 2 == 0 && leField m 19 1 == 0 && leField m 28 36 == 0 && leField m 120 8 == 0
    && m.length == 128 + 32 * n + 1772

/-- The divisors that `FL_CFG` accepts in the protocol written with them (R436, R445). -/
def flDivOk (v : Nat) : Bool := bits v 1 6 == 0 || decide ((if bit v 0 then 4 else 8) ≤ bits v 1 6)
/-- The sizes that it accepts: 2^20 to 2^31 bytes (R445). -/
def flSizeOk (v : Nat) (f : Fld) : Bool := decide (20 ≤ bits v f.lo f.w ∧ bits v f.lo f.w ≤ 31)
/-- The values that `FL_CFG` accepts. -/
def flCfgOk (v : Nat) : Bool := flDivOk v && flSizeOk v Reg.FL_CFG.size0_log2 && flSizeOk v Reg.FL_CFG.size1_log2

/-- The signed span of a manifest (R601). -/
def signedSpan (m : List Byte) : List Byte := m.take (128 + 32 * leField m 14 2)

/-- Check 5 of R602. -/
def windowOk (m : List Byte) : Bool :=
  let v := leField m 10 4
  flCfgOk v && decide (leField m 14 2 ≤ 4096)
    && decide ((leField m 16 2 + leField m 14 2) * 4096 ≤ 2 ^ bits v (if leField m 18 1 % 2 = 1 then 18 else 13) 5)

/-- The first check of R602 that a slot fails; 0: it passes. A barred slot is skipped (R599). -/
def slotCode (dir : Option (List Byte)) (m : List Byte) (dqs barred : Bool) : Nat :=
  if barred then 7
  else match dir with
    | none => 1
    | some x =>
      if !formOk x m then 2
      else if digestVal ((m.drop 64).take 56) != Config.fwSigner then 3
      else if !lmsVerify ((m.drop 64).take 56) (m.drop (128 + 32 * leField m 14 2)) (signedSpan m) then 4
      else if !windowOk m then 5
      else if !dqs then 6
      else if !Config.fuseOk then 8
      else 0

/-- The hash store of a manifest (R442, R601). -/
def hashStore (m : List Byte) : Tab (BitVec 256) :=
  (List.range (leField m 14 2)).foldl (fun t p => Tab.set 0 t p (BitVec.ofNat 256 (leField m (128 + 32 * p) 32))) []

/-- The fields of `FL_CFG`. -/
def flCfgFields : List Fld :=
  [Reg.FL_CFG.mode, Reg.FL_CFG.div, Reg.FL_CFG.dummy, Reg.FL_CFG.addr4, Reg.FL_CFG.size0_log2, Reg.FL_CFG.size1_log2, Reg.FL_CFG.rd_op]

/-- A slot passes: the flash port is set up, and the firmware's context starts (R603). -/
def Dev.bootSlot (d : Dev) (k : Nat) (dir m : List Byte) : Dev :=
  let d := d.putAll flCfgFields (leField m 10 4)
  let d := { d with flash := { d.flash with hash := hashStore m, cache := [] } }
  let d := (((d.wr Reg.FL_XIP.en 1).wr Reg.FL_XIP.sel (leField m 18 1)).wr Reg.FL_XIP.base_page (leField m 16 2)).wr
    Reg.FL_XIP.pages_m1 (leField m 14 2 - 1)
  let d := (d.wr Reg.FL_NONCE.nonce (leField m 20 8)).setCtx 0 { home := 24, regGrant := true, parent := 0x3FFE }
  let d := ((d.ready 0).wr Reg.SEC_STATUS.slot k).wr Reg.SEC_STATUS.stage 3
  { d with boot := { d.boot with dir := some (leField dir 6 1 % 4, leField dir 7 1 % 4), fwDigest := digestVal (signedSpan m),
                                 fwVersion := BitVec.ofNat 24 (leField m 6 3), fwSince := d.reed.time } }

/-- No slot passes (R604). -/
def Dev.bootFailed (d : Dev) (dir : Option (List Byte)) : Dev :=
  let o := match dir with
    | some x => leField x 6 1 % 4
    | none => 0
  let d := (d.wr Reg.SEC_STATUS.stage 5).flag Reg.SEC_STATUS.boot_fail
  let d := [Reg.GLB_PCIE_SUBSYS.subsys_vendor, Reg.GLB_PCIE_SUBSYS.subsys_id, Reg.GLB_PCIE_CTRL.max_speed].foldl (fun d f => d.wr f f.rst) d
  let d := allBlocks.foldl (fun d b => d.wr (ownerFld b) o) (d.wr Reg.GLB_PCIE_CTRL.cfg_done 1)
  { d with boot := { d.boot with dir := dir.map fun x => (leField x 6 1 % 4, leField x 7 1 % 4) } }

/-- A slot has been tried: its code is shown, and a failure is logged (R602, R616). -/
def Dev.slotTried (d : Dev) (f : Fld) (k c : Nat) : Dev :=
  let d := d.wr f c
  if c = 0 then d else d.logRec 0x30 (c + 16 * k)

/-- VERIFY ends (R597, R602). -/
def Dev.verify (d : Dev) (f : BootFlash) : Dev :=
  if d.stage ≠ 2 then d
  else
    let a := slotCode (bootDir f) f.manA f.dqsA d.boot.barredA
    let d := d.slotTried Reg.SEC_STATUS.code_a 0 a
    if a = 0 then d.bootSlot 0 ((bootDir f).getD []) f.manA
    else
      let b := slotCode (bootDir f) f.manB f.dqsB d.boot.barredB
      let d := d.slotTried Reg.SEC_STATUS.code_b 1 b
      if b = 0 then d.bootSlot 1 ((bootDir f).getD []) f.manB else d.bootFailed (bootDir f)

def execBootVerifyComplete (flash : BootFlash) (s : State) : Out := lift s fun d => d.verify flash

/-- The boot watchdog: 4.0 s in ticks. -/
def bootLimit : Nat := 400000000

/-- ready has not been written in time (R599). -/
def execBootWatchdogExpiry (s : State) : Out :=
  lift s fun d =>
    if d.stage ≠ 3 then d
    else
      let d := d.localTo (d.boot.fwSince.toNat + bootLimit)
      let b := d.on Reg.SEC_STATUS.slot
      let d := { d with boot := { d.boot with barredA := d.boot.barredA || !b, barredB := d.boot.barredB || b } }
      (d.logRec 0x30 (7 + 16 * b2n b)).selfReset 5

/-! Commands of `SEC_CTRL` (R606, R607, R609, R611, R612, R615). -/

/-- A command of `SEC_CTRL` is refused. -/
def Dev.secReject (d : Dev) (own : Bool) : Dev := d.rejectWith Reg.SEC_CTRL.cmd_reject own

/-- The lock (R607). -/
def Dev.secLock (d : Dev) (m : Master) : Dev :=
  if !d.owns m bootBlock then d.secReject true
  else if d.stage ≠ 3 ∧ d.stage ≠ 4 then d.secReject false
  else if d.secLocked then d
  else (d.wr Reg.SEC_STATUS.locked 1).logRec 0x33 (masterCode m)

def execLock (m : Master) (s : State) : Out := lift s fun d => d.secLock m

/-- ready (R606). -/
def Dev.secReady (d : Dev) (m : Master) : Dev :=
  if m = .core ∧ d.stage = 3 then d.wr Reg.SEC_STATUS.stage 4 else d.secReject false

def execReady (m : Master) (s : State) : Out := lift s fun d => d.secReady m

/-- An attestation ends with a refusal code (R612). -/
def Dev.attFail (d : Dev) (c : Nat) : Dev :=
  ({ d with boot := { d.boot with att := none } }.wr Reg.SEC_STATUS.att_code c).flag Reg.SEC_STATUS.att_reject

/-- The conditions that attest and pubkey share (R612): the master, the stage, and codes 1 and 2. -/
def Dev.attGate (d : Dev) (m : Master) : Option Dev :=
  let l := d.rd Reg.SEC_ATT_ADDR.line
  if !d.owns m bootBlock then some (d.secReject true)
  else if d.stage < 3 then some (d.secReject false)
  else if d.boot.att.isSome then some (((d.wr Reg.SEC_STATUS.att_code 1).flag Reg.SEC_STATUS.att_reject).refuse false)
  else if 2 ^ 27 < l + 87 then some (((d.wr Reg.SEC_STATUS.att_code 2).flag Reg.SEC_STATUS.att_reject).refuse false)
  else none

/-- attest: the challenge is read, once a security credit is free, and an index reserved with `bad` read-backs that are not valid
(R37, R609, steps 1 and 2). -/
def Dev.secAttest (d : Dev) (m : Master) (bad : Nat) : Dev :=
  match d.attGate m with
  | some d => d
  | none =>
    d.accessing (some .security) (.attest m ⟨bad % 3, Nat.mod_lt _ (by decide)⟩) fun d =>
    let l := d.rd Reg.SEC_ATT_ADDR.line
    let r := (d.passing .security 1).readBytes flashSrc (64 * l) 32
    let i := d.hssNext
    match r.2 with
    | none => (r.1.attFail 3).refuse false
    | some bs =>
      if 2 ^ 25 ≤ i then (r.1.attFail 4).refuse false
      else if !Config.fuseOk then (r.1.attFail 7).refuse false
      else if bad = 2 then r.1.attFail 5
      else
        let d := (r.1.copyWrite 0x8200 (leBytes 4 (i + 1) ++ leBytes 52 0)).logRec 0x32 i
        { d with boot := { d.boot with att := some ⟨some i, lineOf bs, l⟩ } }.wr Reg.SEC_STATUS.att_busy 1

def execAttest (m : Master) (badReads : Fin 3) (s : State) : Out := lift s fun d => d.secAttest m badReads.val

/-- pubkey (R611). -/
def Dev.secPubkey (d : Dev) (m : Master) : Dev :=
  match d.attGate m with
  | some d => d
  | none =>
    if !Config.fuseOk then (d.attFail 7).refuse false
    else { d with boot := { d.boot with att := some ⟨none, 0, d.rd Reg.SEC_ATT_ADDR.line⟩ } }.wr Reg.SEC_STATUS.att_busy 1

def execPubkey (m : Master) (s : State) : Out := lift s fun d => d.secPubkey m

/-- A software reset (R594, R596, R616). -/
def Dev.secReset (d : Dev) (m : Master) : Dev := (d.logRec 0x34 (masterCode m)).selfReset 4

/-- A write of `SEC_CTRL`: `bad` is for the reservation of an attest. A confirmed reset acts alone (R612, R615). -/
def Dev.secCtrl (d : Dev) (m : Master) (v bad : Nat) : Dev :=
  let own := d.owns m bootBlock
  if bit v 3 ∧ bits v 8 8 = 0xA5 ∧ own then d.secReset m
  else
    let o := d
    let d := (d.clear1 Reg.SEC_CTRL.cmd_reject (bits v 31 1))
    let d := if bits v 16 3 = d.rd Reg.SEC_CTRL.irq_en then d else if own then d.wr Reg.SEC_CTRL.irq_en (bits v 16 3) else d.secReject true
    let d := Dev.irqEdge o d 0x3C0
    let d := if bit v 3 then d.secReject (!own) else d
    let d := if bit v 0 then d.secLock m else d
    let d := if bit v 1 && bit v 2 then d.secReject (!own) else if bit v 1 then d.secAttest m bad else if bit v 2 then d.secPubkey m else d
    if bit v 4 then d.secReady m else d

def execDevReset (m : Master) (v : BitVec 32) (s : State) : Out := lift s fun d => d.judged (·.secCtrl m v.toNat 0)

/-! What an attestation writes (R610, R611). -/

/-- The microcode word of shuttle `k` in a report. -/
def Dev.attUcode (d : Dev) (k : Nat) : Nat :=
  (d.ustore k).act.version + 2 ^ 24 * (d.ustore k).act.src + 2 ^ 26 * b2n (d.ustore k).sure

/-- Bytes 0 to 319 of the report. -/
def Dev.attHead (d : Dev) (a : Att) (i : Nat) : List Byte :=
  let cal := b2n (d.on Reg.CAL_STATUS.staged_dirty) + 2 * b2n d.uncal + 4 * b2n (d.on Reg.CAL_STATUS.ladder_stale)
  leBytes 4 0x41545231 ++ leBytes 2 1 ++ leBytes 6 Config.serial.toNat ++ (lineBytes a.challenge).take 32
    ++ d.mramBytes 0x8000 32 ++ leBytes 32 d.boot.fwDigest.toNat ++ leBytes 3 d.boot.fwVersion.toNat
    ++ leBytes 1 (d.rd Reg.SEC_STATUS.slot + 2 * b2n d.secLocked + 4 * b2n (d.stage == 5))
    ++ (List.range nShuttles).flatMap (fun k => leBytes 4 (d.attUcode k))
    ++ leBytes 3 Config.romVersion.toNat ++ leBytes 1 0
    ++ (List.range 8).flatMap (fun k => leBytes 4 (d.rd (Reg.CAL_HASH.hash k)))
    ++ leBytes 1 cal ++ leBytes 3 0 ++ leBytes 32 (d.copyField 0x8100 4 32)
    ++ leBytes 4 d.log.seq.toNat ++ leBytes 6 d.now ++ leBytes 4 i ++ leBytes 22 0

/-- What is written to the Granary reaches it, and att_done is set (R609, R611). -/
def Dev.attDone (d : Dev) (a : Att) (bs : List Byte) : Dev :=
  let d := ((d.passing .security (linesOf (64 * a.line) bs.length)).writeBytes flashSrc (64 * a.line) (bs.map some)).1
  ({ d with boot := { d.boot with att := none } }.wr Reg.SEC_STATUS.att_busy 0).flag Reg.SEC_STATUS.att_done

/-- The report is signed and written (R609, steps 3 to 5); it waits while the calibration hash is
recomputed, and for a security credit (R613). -/
def execAttestComplete (s : State) : Out :=
  lift s fun d =>
    match d.boot.att with
    | some ⟨some i, ch, l⟩ =>
      if d.on Reg.CAL_STATUS.hash_busy then d
      else d.accessing (some .security) .attestComplete fun d =>
        let h := d.attHead ⟨some i, ch, l⟩ i
        (d.attDone ⟨some i, ch, l⟩ (h ++ leBytes 5236 (Config.hssSign i h).toNat)).logRec 0x31 i
    | _ => d

/-- The public key, the serial and the identity hash are written, when the hash of the key is the one in the MRAM (R611). -/
def execPubkeyComplete (s : State) : Out :=
  lift s fun d =>
    match d.boot.att with
    | some ⟨none, ch, l⟩ =>
      let key := leBytes 60 Config.hssPublic.toNat
      let id := sha256 (key ++ leBytes 6 Config.serial.toNat)
      if id = d.mramBytes 0x8000 32 then
        d.accessing (some .security) .pubkeyComplete (·.attDone ⟨none, ch, l⟩ (key ++ leBytes 6 Config.serial.toNat ++ id ++ leBytes 30 0))
      else (d.attFail 6).wr Reg.SEC_STATUS.att_busy 0
    | _ => d

end Sys2Proof.Machine
end

