-- ==== Sys2Proof/Machine/CtxCmds.lean ====
section
/-! DEFINITION. Commands and windows of the context block (R121 to R126, R139, R140, R143 to R145, R626). -/
namespace Sys2Proof.Machine
open Sys2Proof

/-- The context block (R535). -/
def ctxBlock : Nat := 1

/-- A command of CTX_CMD is refused with a reason (R143). -/
def Dev.cmdReject (d : Dev) (r : Nat) : Dev :=
  (d.wr Reg.CTX_STATUS.reject_code r).rejectWith Reg.CTX_STATUS.cmd_reject (r == 1)

/-- The state of a context that START has made READY (R124). -/
def Ctx.started (x : Ctx) : Ctx :=
  { x.noWait with w := Tab.set 0 [] 0 (x.rw 0), lc := [], flags := 0, fault := 0, parent := 0x3FFF, slot := none,
                  parkPend := false, killPend := false, dlPend := none, leave := false }

/-- Why a command is refused, 0 where it is accepted (R122 to R125, R143, R626). -/
def Dev.cmdReason (d : Dev) (k : CtxCmd) : Nat :=
  let x := d.ctx k.c
  if k.op < 4 ∧ d.owns k.m ctxBlock = false then 1
  else if k.op < 4 ∧ k.lost then 5
  else
    match k.op with
    | 1 => if x.state = .free then 0 else 2
    | 2 => if x.state ≠ .claimed then 2 else if 24 < x.home.toNat then 3 else if (d.site x.site.toNat).valid then 0 else 4
    | 3 => if x.state = .parked then 0 else 2
    | 4 => if x.state = .ready ∨ x.state = .waiting then 0 else 2
    | _ => if x.state = .free then 2 else 0

/-- The effect of a command that is accepted (R122 to R125). -/
def Dev.cmdEffect (d : Dev) (k : CtxCmd) : Dev :=
  let x := d.ctx k.c
  match k.op with
  | 1 => d.setCtx k.c { x with state := .claimed }
  | 2 => (d.setCtx k.c x.started).ready k.c
  | 3 => ((d.wr Reg.CTX_PARKED.count (d.rd Reg.CTX_PARKED.count - 1)).setCtx k.c { x with fault := 0 }).ready k.c
  | 4 => d.setCtx k.c { x with parkPend := true }
  | _ => if x.state = .ready ∨ x.state = .waiting then d.setCtx k.c { x with killPend := true } else d.freed k.c

/-- The command at the front begins, if there is one: it is judged against the state as it stands, and accepted or refused. While
an accepted one is in progress, the state before it is the one that is read (R626). -/
def Dev.cmdBegin (d : Dev) : Dev :=
  match d.ctxCmd with
  | [] => d
  | k :: t =>
    if d.cmdReason k = 0 then { d with ctxCmd := { k with was := some (d.ctx k.c).state } :: t }.cmdEffect k
    else d.cmdReject (d.cmdReason k)

/-- A command arrives for the context that the writer's CTX_SEL names (R620, R626): it begins, or is held. -/
def Dev.cmdArrive (d : Dev) (m : Master) (op : Nat) (lost : Bool) : Dev :=
  let k : CtxCmd := ⟨m, d.rd (Reg.CTX_SEL.context (masterCode m)), op, lost, none⟩
  if d.ctxCmd.isEmpty then { d with ctxCmd := [k] }.cmdBegin else { d with ctxCmd := d.ctxCmd ++ [k] }

/-! Each is an access to the register bus, and waits behind an earlier one of its master that waits (R626). -/

def execClaim (m : Master) (lost : Bool) (s : State) : Out := lift s fun d => d.inTurn m (.claim m lost) (·.cmdArrive m 1 lost)
def execStart (m : Master) (lost : Bool) (s : State) : Out := lift s fun d => d.inTurn m (.start m lost) (·.cmdArrive m 2 lost)
def execResume (m : Master) (lost : Bool) (s : State) : Out := lift s fun d => d.inTurn m (.resume m lost) (·.cmdArrive m 3 lost)
def execPark (m : Master) (s : State) : Out := lift s fun d => d.inTurn m (.park m) (·.cmdArrive m 4 false)
def execKill (m : Master) (s : State) : Out := lift s fun d => d.inTurn m (.kill m) (·.cmdArrive m 5 false)

/-- The command in progress ends, and the next held one begins (R626). -/
def Dev.cmdEnd (d : Dev) : Dev := { d with ctxCmd := d.ctxCmd.tail }.cmdBegin

/-! The context record (R126, R144). -/

/-- The state code (R120). -/
def CtxState.code : CtxState → Nat
  | .free => 0 | .ready => 1 | .waiting => 2 | .halted => 3 | .parked => 4 | .claimed => 5

/-- `n` registers of `k` bytes each. -/
def regBytes {w : Nat} (t : Tab (BitVec w)) (k n : Nat) : List Byte :=
  ((List.range n).map fun i => leBytes k (Tab.get 0 t i).toNat).flatten

/-- The 128 bytes of a record (R126). -/
def recBytes (x : Ctx) : List Byte :=
  regBytes x.w 3 16 ++ regBytes x.a 5 4 ++ regBytes x.lc 3 4 ++ leBytes 3 x.pc.toNat ++ leBytes 1 x.flags.toNat
    ++ leBytes 3 x.fault.toNat ++ leBytes 1 (CtxState.code x.state + 8 * b2n x.slot.isSome + 16 * b2n x.pausePend)
    ++ leBytes 1 x.home.toNat ++ leBytes 2 x.site.toNat ++ leBytes 1 (b2n x.regGrant + 2 * b2n x.dlPark)
    ++ leBytes 2 x.parent.toNat ++ leBytes 1 x.waitKind.toNat ++ [0] ++ leBytes 3 x.waitSel.toNat ++ [0]
    ++ leBytes 6 x.wakeTime.toNat ++ leBytes 6 x.deadline.toNat ++ leBytes 4 x.dlInterval.toNat
    ++ leBytes 6 x.readySince.toNat ++ leBytes 6 0

/-- The little-endian field of `n` bytes at `o`. -/
def fieldAt (bs : List Byte) (o n : Nat) : Nat := leVal ((bs.drop o).take n)

/-- `n` registers of `k` bytes from offset `o`. -/
def regsFrom (w : Nat) (bs : List Byte) (o k n : Nat) : Tab (BitVec w) :=
  (List.range n).foldl (fun t i => Tab.set 0 t i (BitVec.ofNat w (fieldAt bs (o + k * i) k))) []

/-- A context whose record bytes are replaced; byte 0x57 ignores writes, reserved bits are dropped. A resident context whose home
loom is rewritten keeps the number of its slot, and counts on the shuttle of its new home (DESIGN CHOICE, log entry 121). -/
def recSet (x : Ctx) (bs : List Byte) : Ctx :=
  { x with
    w := regsFrom 24 bs 0 3 16, a := regsFrom 36 bs 0x30 5 4, lc := regsFrom 24 bs 0x44 3 4
    pc := BitVec.ofNat 24 (fieldAt bs 0x50 3), flags := BitVec.ofNat 6 (fieldAt bs 0x53 1)
    fault := BitVec.ofNat 24 (fieldAt bs 0x54 3), home := BitVec.ofNat 5 (fieldAt bs 0x58 1)
    site := BitVec.ofNat 10 (fieldAt bs 0x59 2), regGrant := bit (fieldAt bs 0x5B 1) 0, dlPark := bit (fieldAt bs 0x5B 1) 1
    parent := BitVec.ofNat 14 (fieldAt bs 0x5C 2), waitKind := BitVec.ofNat 8 (fieldAt bs 0x5E 1)
    waitSel := BitVec.ofNat 24 (fieldAt bs 0x60 3), wakeTime := BitVec.ofNat 48 (fieldAt bs 0x64 6)
    deadline := BitVec.ofNat 48 (fieldAt bs 0x6A 6), dlInterval := BitVec.ofNat 32 (fieldAt bs 0x70 4)
    readySince := BitVec.ofNat 48 (fieldAt bs 0x74 6) }

/-- Slot `i` of the context window shows bytes 4i to 4i + 3 (R144). -/
def recSlot (x : Ctx) (i : Nat) : Nat := fieldAt (recBytes x) (4 * i) 4

/-- A context with slot `i` of its record written. -/
def recWrite (x : Ctx) (i v : Nat) : Ctx :=
  recSet x ((recBytes x).take (4 * i) ++ leBytes 4 v ++ (recBytes x).drop (4 * i + 4))

/-- A window or map write is ignored (R144, R145). -/
def Dev.winReject (d : Dev) (own : Bool) : Dev := d.rejectWith Reg.CTX_STATUS.write_reject own

/-- A write through the context window (R144); one that changes nothing is not judged (R617). -/
def Dev.ctxWindow (d : Dev) (m : Master) (i v : Nat) : Dev :=
  let c := d.rd (Reg.CTX_SEL.context (masterCode m))
  let x := d.ctx c
  if recWrite x i v = x then d
  else if !d.owns m ctxBlock then d.winReject true
  else if x.state = .claimed ∨ x.state = .parked ∨ x.state = .halted then d.setCtx c (recWrite x i v)
  else d.winReject false

def execContextWindowWrite (p : Port) (slot : Fin 32) (v : BitVec 32) (s : State) : Out :=
  lift s fun d => d.inTurn p.master (.contextWindowWrite p slot v) (·.ctxWindow p.master slot.val v.toNat)

/-- Contexts of a site in any state but FREE or CLAIMED (R140, R145). -/
def Dev.siteBusy (d : Dev) (i : Nat) : Nat :=
  (d.ctxs.filter fun e => e.2.state != .free && e.2.state != .claimed && e.2.site.toNat == i).length

/-- A write through the site window (R140, R145). DESIGN CHOICE (log entry 96): the pending low word of R19 is known by its slot,
so that it is used for the site that SITE_SEL names at the high write. -/
def Dev.siteWindow (d : Dev) (p : Port) (slot v : Nat) : Dev :=
  let i := d.rd (Reg.SITE_SEL.site (masterCode p.master))
  let y := d.site i
  let put (d : Dev) (y : Site) : Dev := { d with sites := Tab.set {} d.sites i y }
  let own := d.owns p.master ctxBlock
  match slot with
  | 0 =>
    if bit v 0 = y.valid then d
    else if !own then d.winReject true
    else if d.siteBusy i = 0 then put d { y with valid := bit v 0 }
    else d.winReject false
  | 1 =>
    if !own && decide (v % 2 ^ 32 / 64 * 64 ≠ y.addr.toNat % 2 ^ 32) then d.winReject true
    else d.setLow (portKey p) 0x80084 (BitVec.ofNat 32 v)
  | 2 =>
    let a : BitVec 33 := BitVec.ofNat 33 (v % 2 * 2 ^ 32 + d.lowFor (portKey p) 0x80084 y.addr.toNat / 64 * 64)
    let d' := d.useLow (portKey p) 0x80084
    if a = y.addr then d'
    else if !own then d'.winReject true
    else put d' { y with addr := a }
  | _ => d

def execSiteWindowWrite (p : Port) (slot : Fin 4) (v : BitVec 32) (s : State) : Out :=
  lift s fun d => d.inTurn p.master (.siteWindowWrite p slot v) (·.siteWindow p slot.val v.toNat)

/-- A write of a channel's map entry (R140, R145). -/
def Dev.siteMap (d : Dev) (m : Master) (c v : Nat) : Dev :=
  let old := Tab.get 0 d.chmap c
  let new := v % 1024 + 1024 * b2n (bit v 15)
  let busy (e : Nat) : Bool := decide (1024 ≤ e) && decide (0 < d.siteBusy (e - 1024))
  if new = old then d
  else if !d.owns m ctxBlock then d.winReject true
  else if busy old || busy new then d.winReject false
  else { d with chmap := Tab.set 0 d.chmap c new }

def execSiteMapWrite (p : Port) (c : Fin 768) (v : BitVec 32) (s : State) : Out :=
  lift s fun d => d.inTurn p.master (.siteMapWrite p c v) (·.siteMap p.master c.val v.toNat)

end Sys2Proof.Machine
end

