-- ==== Sys2Proof/Machine/Slots.lean ====
section
/-! DEFINITION. What a slot of BAR0 reads as (R13, R16 to R18, R393 to R398): the fields that lie in it, the fields whose
value a rule gives (R621), and the windows onto unit storage. -/
namespace Sys2Proof.Machine
open Sys2Proof

/-! The fields of a slot. -/

/-- The offset of a field on BAR0: copies of R620 lie at one offset. -/
def Fld.offset (f : Fld) : Nat := f.addr % 0x1000000

/-- Wider than a slot (R18). -/
def Fld.wide (f : Fld) : Bool := decide (32 < f.w)

/-- The rows of the global, Reed and event counter regions among which the fields of slot `a` lie. -/
def rowsLow (m a : Nat) : List Fld :=
  if 0x100 ≤ a ∧ a < 0x200 then rowsDma ((a - 0x100) / 0x20)
  else if a = 0x200 then (List.range 10).map Reg.GLB_OWNER.owner
  else if a = 0x204 then (List.range 16).map Reg.GLB_OWNER_LOOM.loom
  else if a = 0x208 then (List.range 8).map fun i => Reg.GLB_OWNER_LOOM.loom (16 + i)
  else if 0x2C0 ≤ a ∧ a < 0x2E0 then rowsGlbCalHash ((a - 0x2C0) / 4)
  else if 0x900 ≤ a ∧ a < 0x980 then rowsGlbEvcLo ((a - 0x900) / 8)
  else if 0x980 ≤ a ∧ a < 0x9C0 then rowsGlbEvcSel ((a - 0x980) / 4)
  else rowsSel m ++ rowsGlb

/-- The rows among which the fields of slot `a` lie, as master `m` sees them (R393, R394, R620). -/
def rowsAt (m a : Nat) : List Fld :=
  if a < 0xA00 then rowsLow m a
  else if a < 0x10000 then []
  else if a < 0x11800 then
    let n := (a - 0x10000) / 0x100
    rowsLoom n ++ (List.range 4).flatMap fun i => rowsLoomEvcSel n i ++ rowsLoomI n i
  else if a < 0x20000 then []
  else if a < 0x26000 then rowsChan ((a - 0x20000) / 0x20)
  else if a < 0x90000 then []
  else if a < 0x96000 then rowsMon (a / 0x10 * 0x10)
  else if 0x98000 ≤ a ∧ a < 0x98C00 then rowsMon (a / 0x10 * 0x10)
  else if a < 0xB0000 then []
  else if a < 0xB6000 then
    let n := (a - 0xB0000) / 0x400
    let o := a % 0x400
    rowsTw n ++ (if 0x40 ≤ o ∧ o < 0x80 ∨ 0x100 ≤ o ∧ o < 0x180 then rowsTwI n (if o < 0x80 then (o - 0x40) / 4 else (o - 0x100) / 4) else [])
      ++ (if 0x80 ≤ o ∧ o < 0xA0 then rowsTwQ n ((o - 0x80) / 4) else [])
  else if 0xC8000 ≤ a ∧ a < 0xC8200 then
    let i := (a - 0xC8000) / 0x100
    let o := a % 0x100
    rowsTap i ++ (if 0x20 ≤ o ∧ o < 0x40 then rowsTapQ i ((o - 0x20) / 4) else []) ++ (if 0x80 ≤ o then rowsTapL i ((o - 0x80) / 0x20) else [])
  else if 0xD0000 ≤ a ∧ a < 0xD6000 then rowsWfm ((a - 0xD0000) / 0x20)
  else if 0xE0000 ≤ a ∧ a < 0xE6000 then rowsTme ((a - 0xE0000) / 0x80)
  else []

/-- The bits that loom monitors leave reserved: src, the guard bits, trip_armed and guard_trip (R213). -/
def lmonRsv (f : Fld) : Bool :=
  decide (0x98000 ≤ f.addr) && decide (f.addr < 0x99000)
    && ((f.addr % 0x10 == 0 && (f.lo == 1 || f.lo == 16 || f.lo == 17)) || (f.addr % 0x10 == 8 && (f.lo == 3 || f.lo == 7)))

/-- The fields that lie in slot `a`; a wide quantity lies in both of its slots. -/
def fieldsAt (m a : Nat) : List Fld :=
  (rowsAt m a).filter fun f => (f.offset == a || (f.wide && f.offset + 4 == a)) && !lmonRsv f

/-- The fields of slot `a` that lie in it alone. -/
def narrowAt (m a : Nat) : List Fld := (fieldsAt m a).filter fun f => !f.wide

/-! Windows (R394). -/

/-- The slot of a window that shows storage of a unit and no field. -/
inductive Win where
  | ctx (i : Nat)
  | site (i : Nat)
  | map (c : Nat)
  | cal (area slot : Nat)
  | pend (n i : Nat)
  | tset (i : Nat)
  | seg (i : Nat)
  | log (i : Nat)
  | mill (i : Nat)
  | millReg (i : Nat)
  deriving DecidableEq, Repr

/-- The window slot at address `a`. -/
def winAt (a : Nat) : Option Win :=
  if a < 0x80000 then none
  else if a < 0x80080 then some (.ctx ((a - 0x80000) / 4))
  else if a < 0x80090 then some (.site ((a - 0x80080) / 4))
  else if a < 0x80100 then none
  else if a < 0x80D00 then some (.map ((a - 0x80100) / 4))
  else if a < 0x88000 then none
  else if a < 0x90000 then (calArea (a - 0x88000)).map fun p => .cal p.1 p.2
  else if 0x99000 ≤ a ∧ a < 0x99180 then (if a % 0x10 < 12 then some (.pend ((a - 0x99000) / 0x10) (a % 0x10 / 4)) else none)
  else if 0xA0000 ≤ a ∧ a < 0xA0500 then (if a < 0xA0008 ∨ 0xA0100 ≤ a then some (.tset ((a - 0xA0000) / 4)) else none)
  else if 0xC0000 ≤ a ∧ a < 0xC0010 then some (.seg ((a - 0xC0000) / 4))
  else if 0xC4000 ≤ a ∧ a < 0xC8000 then some (.log ((a - 0xC4000) / 4))
  else if 0xF0000 ≤ a ∧ a < 0xF8000 then some (.mill ((a - 0xF0000) / 4))
  else if 0xF8000 ≤ a ∧ a < 0xF8090 then some (.millReg ((a - 0xF8000) / 4))
  else none

/-- Slots that a table lists as reserved: they read 0, and writes to them are ignored (R16). -/
def reservedAt (a : Nat) : Bool :=
  a == 0x3BC || (decide (0xE0000 ≤ a) && decide (a < 0xE6000) && decide (0x5C ≤ a % 0x80))
    || (decide (0xC8000 ≤ a) && decide (a < 0xC8200) && (a % 0x100 == 0x1C || (decide (0x50 ≤ a % 0x100) && decide (a % 0x100 < 0x80))))

/-- Slot `a` is implemented (R397). -/
def implemented (m a : Nat) : Bool := !(fieldsAt m a).isEmpty || (winAt a).isSome || reservedAt a

/-- The end of the block of slot `a` (R398): a slot outside every block stands alone. -/
def blockEnd (a : Nat) : Nat :=
  let upTo (k : Nat) : Nat := (a / k + 1) * k
  if a < 0x600 then 0x600
  else if 0x800 ≤ a ∧ a < 0xA00 then upTo 0x100
  else if 0xC000 ≤ a ∧ a < 0xC400 then 0xC400
  else if 0xD000 ≤ a ∧ a < 0xD008 then 0xD008
  else if 0x10000 ≤ a ∧ a < 0x11800 then upTo 0x100
  else if 0x20000 ≤ a ∧ a < 0x26000 then upTo 0x20
  else if 0x80000 ≤ a ∧ a < 0x80080 then 0x80080
  else if 0x80080 ≤ a ∧ a < 0x80090 then 0x80090
  else if 0x80100 ≤ a ∧ a < 0x80D00 then 0x80D00
  else if 0x88000 ≤ a ∧ a < 0x90000 then 0x90000
  else if 0x90000 ≤ a ∧ a < 0x96000 then upTo 0x20
  else if 0x98000 ≤ a ∧ a < 0x98C00 then upTo 0x80
  else if 0x99000 ≤ a ∧ a < 0x99180 then upTo 0x10
  else if 0xA0000 ≤ a ∧ a < 0xA0500 then 0xA0500
  else if 0xB0000 ≤ a ∧ a < 0xB6000 then upTo 0x400
  else if 0xC0000 ≤ a ∧ a < 0xC0010 then 0xC0010
  else if 0xC4000 ≤ a ∧ a < 0xC8000 then 0xC8000
  else if 0xC8000 ≤ a ∧ a < 0xC8200 then upTo 0x100
  else if 0xD0000 ≤ a ∧ a < 0xD6000 then upTo 0x20
  else if 0xE0000 ≤ a ∧ a < 0xE6000 then upTo 0x80
  else if 0xF0000 ≤ a ∧ a < 0xF8000 then 0xF8000
  else if 0xF8000 ≤ a ∧ a < 0xF8090 then 0xF8090
  else a + 4

/-! Fields whose value a rule gives. -/

/-- The vectors of `GLB_IRQ_PEND` (from 0) or `GLB_IRQ_PEND_HI` (from 32) that have an enabled cause set (R403). -/
def Dev.pendMask (d : Dev) (base : Nat) : Nat := maskTo (fun i => d.pends (base + i)) 32

/-- FAULT_N is low (R549). -/
def Dev.faultN (d : Dev) : Bool :=
  (List.range 24).any (fun n => d.quar n || d.on (Reg.LOOM.UNSPARED.pairs n)) || d.on Reg.GLB_ERR_STATUS.device_err

/-- THERM_N is low: warn is active, or the state is THERMAL_HALT (R492). -/
def Dev.thermN (d : Dev) : Bool := d.on Reg.TH_STATUS.warn || d.rd Reg.TH_STATUS.state == 3

/-- FL_RESET_N, which is low while RESET_N is (R434). -/
def Dev.flResetN (d : Dev) : Bool := !d.boot.pinLow

/-- BP_ALERT_N is low (R455). -/
def Dev.bpAlertN (d : Dev) : Bool :=
  (List.range 32).any (fun v => bit (d.rd Reg.BP_ALERT_EN_LO.mask_lo) v && d.pends v)
    || (List.range 32).any fun v => bit (d.rd Reg.BP_ALERT_EN_HI.mask_hi) v && d.pends (32 + v)

/-- Fields of the global, Reed and event counter regions whose value a rule gives, as master `m` reads them. -/
def Dev.viewLow (d : Dev) (m : Nat) (f : Fld) : Option Nat :=
  let ctx : Nat := d.rd (Reg.CTX_SEL.context m)
  let st : Store := d.ustore (d.rd (Reg.UCODE_SEL.shuttle m))
  let sen : Sensor := Tab.get {} d.therm.sensors (d.rd (Reg.TEMP_SEL.sensor m))
  let bank (b : Bank) : Nat := if b.src = 0 then Config.romVersion.toNat else b.ver.toNat
  if f.addr < 0x100 then
    if f = Reg.GLB_IRQ_PEND.pend then some (d.pendMask 0)
    else if f = Reg.GLB_IRQ_PEND_HI.pend_hi then some (d.pendMask 32)
    else none
  else if f.addr < 0x300 then
    if f = Reg.GLB_ERR_STATUS.fault_n then some (b2n d.faultN)
    else if f = Reg.GLB_QUAR.looms then some (maskTo d.quar 24)
    else if f = Reg.CAL_STATUS.uncal then some (b2n d.uncal)
    else none
  else if f.addr < 0x380 then
    if f = Reg.TEMP_READ.temp then some (toCode 16 sen.temp)
    else if f = Reg.TEMP_READ.faulty then some (b2n sen.faulty)
    else if f = Reg.LOG_WPTR.slot then some d.log.slot
    else if f = Reg.LOG_SEQ.seq then some d.log.seq.toNat
    else if f = Reg.LOG_STATUS.queued then some d.log.queue.length
    else none
  else if f.addr < 0x400 then
    if f = Reg.UCODE_VERSION_ACT.version then some (bank st.act)
    else if f = Reg.UCODE_VERSION_ACT.source then some st.act.src
    else if f = Reg.UCODE_VERSION_SHD.version then some (if st.shd.src = 3 then 0 else bank st.shd)
    else if f = Reg.UCODE_VERSION_SHD.source then some st.shd.src
    else if f = Reg.UCODE_MC.total then some st.total
    else if f = Reg.UCODE_MC.recent then some (min (d.sureRecent (d.rd (Reg.UCODE_SEL.shuttle m))) 255)
    else if f = Reg.UCODE_SURE.shuttles then some (maskTo (fun s => (d.ustore s).sure) nShuttles)
    else if f = Reg.UCODE_PENDING.shuttles then some (maskTo (fun s => (d.ustore s).pend) nShuttles)
    else if f = Reg.SEC_STATUS.exhausted then some (b2n (decide (2 ^ 25 ≤ d.hssNext)))
    else if f = Reg.SEC_HSS.next_index then some d.hssNext
    else if f = Reg.FL_STATUS.fill_busy then some (b2n (!d.flash.fills.isEmpty))
    else if f = Reg.BP_STATUS.busy then some (b2n (!d.bp.writes.isEmpty || d.busWaits .board))
    else none
  else if f.addr < 0x600 then
    if f = Reg.GLB_UNIT_ENABLE.dma_en then some (maskTo (fun i => d.unit (kDma i) == .on) 8)
    else if f = Reg.GLB_UNIT_ENABLE.tap0_en then some (b2n (d.unit (kTap 0) == .on))
    else if f = Reg.GLB_UNIT_ENABLE.tap1_en then some (b2n (d.unit (kTap 1) == .on))
    else if f = Reg.GLB_UNIT_ENABLE.scrub_en then some (b2n (d.enabled .scrub))
    else if f = Reg.GLB_UNIT_STATE.dma_state then some (sumTo (fun i => UState.code (d.unit (kDma i)) * 4 ^ i) 8)
    else if f = Reg.GLB_UNIT_STATE.tap0_state then some (UState.code (d.unit (kTap 0)))
    else if f = Reg.GLB_UNIT_STATE.tap1_state then some (UState.code (d.unit (kTap 1)))
    else if f = Reg.GLB_UNIT_STATE.scrub_state then some (UState.code (d.unit kScrub))
    else if f = Reg.GLB_POOL.in_use then some d.poolInUse
    else if f = Reg.GLB_POOL.reserve_in_use then some (d.inUseOf 76 + d.inUseOf 77)
    else if f = Reg.GLB_ICACHE_BUSY.busy then some (maskTo (fun s => Tab.get false d.icacheBusy s) 25)
    else if f = Reg.CTX_STATUS.state then
      some (match d.ctxCmd.find? fun k => k.c == ctx && k.was.isSome with
        | some k => CtxState.code (k.was.getD .free)
        | none => CtxState.code (d.ctx ctx).state)
    else if f = Reg.CTX_STATUS.resident then some (b2n (d.ctx ctx).slot.isSome)
    else if f = Reg.CTX_STATUS.busy then some (b2n (!d.ctxCmd.isEmpty))
    else none
  else if f = Reg.REED_STATE.aligned then some (b2n (d.reedState == 3))
  else if f = Reg.REED_STATE.late_risk then some (b2n d.lateRisk)
  else if f = Reg.REED_STATE.slot then some d.reedSlot
  else if f = Reg.REED_TIME.time then some d.now
  else if f = Reg.REED_UPQ.depth then some d.reed.upq.length
  else none

/-- Fields of a loom block whose value a rule gives: vectors held ahead fill the elastic FIFO first, and then the
streaming part of the bobbin (DEDUCED). -/
def Dev.viewLoom (d : Dev) (n : Nat) (f : Fld) : Option Nat :=
  let p : Pat := d.pat n
  let x : Mill := d.mill n
  let held : Nat := match p.burst with | some b => b.avail.1 | none => 0
  let on (k : Nat) : Option Nat := some (b2n (d.unit k == .on))
  let st (k : Nat) : Option Nat := some (UState.code (d.unit k))
  if f = Reg.LOOM.ENABLE.shuttle_en n then on (kShuttle n)
  else if f = Reg.LOOM.ENABLE.pattern_en n then on (kPattern n)
  else if f = Reg.LOOM.ENABLE.mill_en n then on (kMill n)
  else if f = Reg.LOOM.ENABLE.capture_en n then on (kCapture n)
  else if f = Reg.LOOM.ENABLE.tme_en n then on (kTme n)
  else if f = Reg.LOOM.UNIT_STATE.shuttle_state n then st (kShuttle n)
  else if f = Reg.LOOM.UNIT_STATE.pattern_state n then st (kPattern n)
  else if f = Reg.LOOM.UNIT_STATE.mill_state n then st (kMill n)
  else if f = Reg.LOOM.UNIT_STATE.capture_state n then st (kCapture n)
  else if f = Reg.LOOM.UNIT_STATE.tme_state n then st (kTme n)
  else if f = Reg.LOOM.CREDIT.refill_in_use n then some (d.inUseOf n)
  else if f = Reg.LOOM.CREDIT.shared_in_use n then some (d.inUseOf (32 + n))
  else if f = Reg.LOOM.TSET_COMMIT.dirty n then some (b2n (p.staged != p.active))
  else if f = Reg.LOOM.SEL_STATUS.running n then some (b2n p.burst.isSome)
  else if f = Reg.LOOM.BOB_FILL.stream n then some (match p.burst with | some b => min 16384 b.streamed.2 | none => 0)
  else if f = Reg.LOOM.BOB_FILL.fifo n then some (min 128 held)
  else if f = Reg.LOOM.PIN_STATUS.used n then some p.winUsed
  else if f = Reg.LOOM.PIN_STATUS.segs n then some p.window.length
  else if f = Reg.LOOM.PIN_STATUS.busy n then some (b2n (!p.loads.isEmpty))
  else if f = Reg.LOOM.MILL_STATUS.status n then some x.status
  else if f = Reg.LOOM.MILL_STATE.state n then some x.state
  else if f = Reg.LOOM.MILL_STATE.pc n then some x.pc
  else if f = Reg.LOOM.MILL_STEPS.steps n then some x.steps
  else if f = Reg.LOOM.QUAR.err_recent n then some (min (d.errRecent n) 255)
  else if f = Reg.LOOM.SPARE.pending n then some (b2n ((d.box n).exch.any (·.why == 2)))
  else none

/-- The result of a time measurement engine that a port sees: its snapshot, or the live value (R324). -/
def Dev.viewTme (d : Dev) (pk e : Nat) (f : Fld) : Option Nat :=
  let k : Nat := if f = Reg.TME.MEAN.mean e then 1 else if f = Reg.TME.STDEV.stdev e then 2 else if f = Reg.TME.MIN.min e then 3
    else if f = Reg.TME.MAX.max e then 4 else if f = Reg.TME.LAST.last e then 5 else 0
  if k = 0 then none else (Tab.get [] (d.tme e).snaps pk)[k]?

/-- The value that a read of field `f` returns to port `p`: reset values, stored values and values given by rule; a
write-only field reads 0 (R13, R617). -/
def Dev.view (d : Dev) (p : Port) (f : Fld) : Nat :=
  if f.acc = .wo then 0
  else
    let o := f.offset
    let v := if o < 0xA00 then d.viewLow (masterCode p.master) f
      else if 0x10000 ≤ o ∧ o < 0x11800 then d.viewLoom ((o - 0x10000) / 0x100) f
      else if 0x90000 ≤ o ∧ o < 0x98C00 ∧ o % 0x10 = 0 ∧ f.lo = 0 then some (b2n (monOn (d.rd (Reg.MON.STATE.state o))))
      else if 0xB0000 ≤ o ∧ o < 0xB6000 ∧ o % 0x400 = 0 then some (d.twXY ((o - 0xB0000) / 0x400)).1
      else if 0xB0000 ≤ o ∧ o < 0xB6000 ∧ o % 0x400 = 0x10 then some (d.twXY ((o - 0xB0000) / 0x400)).2
      else if 0xE0000 ≤ o ∧ o < 0xE6000 then d.viewTme (portKey p) ((o - 0xE0000) / 0x80) f
      else none
    (v.getD (d.rd f)) % 2 ^ f.w

/-! What a slot reads as. -/

/-- Word `i` of the state view of a Mill beyond A and gaddr (R356). -/
def Mill.regWord (x : Mill) (i : Nat) : Nat :=
  let g : Ag := Tab.get {} x.ags ((i - 10) / 5)
  if i < 2 then 0
  else if i < 10 then (Tab.get 0 x.v (i - 2)).toNat
  else if i < 30 then
    toCode 16 (match (i - 10) % 5 with | 0 => g.base | 1 => g.length | 2 => g.index | 3 => g.step | _ => g.mod)
  else if i = 30 then (match x.loop0 with | some l => l.count | none => 0)
  else if i = 31 then (match x.loop1 with | some l => l.count | none => 0)
  else 0

/-- The loom that a master's Mill selection names. -/
def Dev.millSel (d : Dev) (m : Nat) : Nat := d.rd (Reg.GLB_MILL_SEL.loom m)

/-- Word `i` of the Mill memory window. -/
def Dev.millWord (d : Dev) (m i : Nat) : Nat :=
  let x : Mill := d.mill (d.millSel m)
  let page := d.rd (Reg.GLB_MILL_SEL.page m)
  if page = 4 then (if i < 2048 then (Tab.get 0 x.pm i).toNat else 0) else (x.word (8192 * page + i)).toNat

/-- The value of a window slot, before R17; the narrow part only where the slot belongs to a wide quantity. -/
def Dev.winVal (d : Dev) (p : Port) : Win → Nat
  | .ctx i => recSlot (d.ctx (d.rd (Reg.CTX_SEL.context (masterCode p.master)))) i
  | .site i =>
    let s := d.rd (Reg.SITE_SEL.site (masterCode p.master))
    match i with
    | 0 => b2n (d.site s).valid + 2 * sumTo (fun c => b2n (d.inSite c s)) 768 + 0x10000 * d.siteBusy s
    | 3 => maskTo (fun n => d.loomInSite n s) 24
    | _ => 0
  | .map c =>
    let v := Tab.get 0 d.chmap c
    v % 1024 + 0x8000 * (v / 1024)
  | .cal area slot => (d.calSlot p.master area slot).toNat
  | .pend n i =>
    if i < 2 then maskTo (fun k => d.monPend (monBase (32 * n + k) (i == 1))) 32
    else maskTo (fun k => d.monPend (0x98000 + 0x80 * n + 0x10 * k)) 8
  | .tset i =>
    let m := masterCode p.master
    let q := d.pat (d.rd (Reg.TSET_SEL.loom m))
    (tsGet (if d.on (Reg.TSET_SEL.view m) then q.active else q.staged) (d.rd (Reg.TSET_SEL.set m)) i).toNat
  | .seg i => leVal (d.bytesAt (d.segBase + 16 * d.segSel p.master + 4 * i) 4)
  | .log i =>
    let g := d.rd (Reg.LOG_PAGE.page (masterCode p.master))
    if g = 3 then 0 else leVal (d.mramBytes (16384 * g + 4 * i) 4)
  | .mill i => d.millWord (masterCode p.master) i
  | .millReg i => (d.mill (d.millSel (masterCode p.master))).regWord i

/-- The wide quantity whose low slot is `a` (R18). -/
def Dev.wideAt (d : Dev) (p : Port) (a : Nat) : Option Nat :=
  if a = 0x80084 then some (d.site (d.rd (Reg.SITE_SEL.site (masterCode p.master)))).addr.toNat
  else if a = 0xF8000 then some (toCode 64 (d.mill (d.millSel (masterCode p.master))).a)
  else if a = 0xF8080 then some (d.mill (d.millSel (masterCode p.master))).gaddr
  else ((fieldsAt (masterCode p.master) a).find? fun f => f.wide && f.offset == a).map (d.view p)

/-- 24-bit fields to which R17 does not apply: their tables mark bits [31:24] reserved. -/
def rawSlot (a : Nat) : Bool :=
  [0x1C, 0x20, 0x21C, 0x294, 0x348, 0x394, 0x398, 0x3B0, 0x3B8].contains a
    || (decide (0x10000 ≤ a) && decide (a < 0x11800) && (a % 0x100 == 0x38 || a % 0x100 == 0x3C))

/-- The core and loom slots of the calibration window that hold one 24-bit field (R487). -/
def calSigned (area slot : Nat) : Bool :=
  (area == 0 && (decide (slot < 19) || (decide (27 ≤ slot) && decide (slot < 31)))) || (area == 1 && (decide (slot < 6) || slot == 7))

/-- The widths whose top bit a slot copies upward: R17, and the result slots of R329. -/
def signWidth (m a : Nat) : Option Nat :=
  match winAt a with
  | some (.mill _) => some 24
  | some (.millReg i) => if 2 ≤ i ∧ i < 10 ∨ i = 30 ∨ i = 31 then some 24 else none
  | some (.cal area slot) => if calSigned area slot then some 24 else none
  | some _ => none
  | none =>
    if 0xE0000 ≤ a ∧ a < 0xE6000 ∧ (a % 0x80 = 0x40 ∨ a % 0x80 = 0x48 ∨ a % 0x80 = 0x50) then some 8
    else if 0xE0000 ≤ a ∧ a < 0xE6000 ∧ a % 0x80 = 0x34 then some 16
    else if (narrowAt m a).any (fun f => f.w == 24 && f.lo == 0) && !rawSlot a then some 24
    else none

/-- What a slot of a channel in a booster pair reads as where R191 gives it another meaning: KI and KV under R17. -/
def Dev.pairSlot (d : Dev) (a : Nat) : Option Nat :=
  let c := (a - 0x20000) / 0x20
  if a < 0x20000 ∨ 0x26000 ≤ a ∨ !(d.evenOfPair c || d.oddOfPair c) then none
  else
    match a % 0x20 / 4 with
    | 3 => if d.oddOfPair c then some 0 else none
    | 4 => some (if d.oddOfPair c then toCode 32 (d.boostKI (c - 1)) else d.rd (Reg.CHAN.LVL_DRV.vil c))
    | 5 => some (if d.oddOfPair c then toCode 32 (d.boostKV (c - 1)) else 0)
    | 6 => some (65536 * d.rd (Reg.CHAN.RATE.rate c))
    | _ => none

/-- The narrow part of slot `a`. -/
def Dev.narrowVal (d : Dev) (p : Port) (a : Nat) : Nat :=
  match winAt a, d.pairSlot a with
  | some w, _ => d.winVal p w
  | _, some v => v
  | _, _ => (narrowAt (masterCode p.master) a).foldl (fun v f => v + d.view p f * 2 ^ f.lo) 0

/-- The high slot of a result that the port's snapshot of an engine holds (R324). -/
def Dev.snapHigh (d : Dev) (p : Port) (a : Nat) : Bool :=
  decide (0xE0000 ≤ a) && decide (a < 0xE6000) && decide (0x30 ≤ a % 0x80) && decide (a % 0x80 < 0x54)
    && !(Tab.get [] (d.tme ((a - 0xE0000) / 0x80)).snaps (portKey p)).isEmpty

/-- The wide quantity whose high slot is `a`, as port `p` sees it: its snapshot where its last low-slot read was of this
quantity, or the live value (R18). DESIGN CHOICE (log entry 96): behind a selection register a quantity is known by its slots,
so that a change of the selection between the two reads keeps the snapshot. -/
def Dev.highAt (d : Dev) (p : Port) (a : Nat) : Option Nat :=
  if a < 4 then none
  else match d.wideAt p (a - 4) with
    | none => none
    | some v =>
      match (Tab.get {} d.ports (portKey p)).snap with
      | some (low, s) => some (if low = a - 4 ∧ !d.snapHigh p a then s else v)
      | none => some v

/-- The 32 bits that a read of slot `a` returns to port `p`. -/
def Dev.slotVal (d : Dev) (p : Port) (a : Nat) : Nat :=
  let n := d.narrowVal p a
  let v := match d.wideAt p a with
    | some v => v % 2 ^ 32
    | none => (match d.highAt p a with | some v => v / 2 ^ 32 % 2 ^ 32 | none => 0)
  signSlot (signWidth (masterCode p.master) a) (n + v)

end Sys2Proof.Machine
end

