-- ==== Sys2Proof/Machine/ChanIns.lean ====
section
/-! DEFINITION. The CHAN instructions (R100 to R104, R155, R163, R165, R526). -/
namespace Sys2Proof.Machine
open Sys2Proof

/-- The channel number that w_d names. -/
def chanOf (x : Ctx) (i : RRX) : Nat := (x.rw i.d.toNat).toNat

/-- The checks of a CHAN that do not depend on the setting (R71, R103); a site table entry that was lost holds no channel
for CHAN (R548). -/
def Dev.chanChecks (d : Dev) (x : Ctx) (i : RRX) (bad : Bool) : List (Bool × BitVec 24) :=
  [badReserved bad, (decide (767 < chanOf x i), fOperand 0x0101), (!d.inSite (chanOf x i) x.site.toNat || !(d.site x.site.toNat).valid, fOperand 0x0102)]

/-- Whether b lies outside the values that the field defines: judged at issue (R101, R103). -/
def Dev.chanBadB (d : Dev) (k op sub : Nat) (b : W24) : Bool :=
  match op with
  | 0 => b.toNat != d.rd (Reg.CHAN.CTRL.mode k) && d.modeBad k b.toNat
  | 1 => b.toNat != d.rd (Reg.CHAN.CTRL.range k) && !d.rangeOk k b.toNat
  | _ =>
    match d.chanSetting k op sub b with
    | .error r => r == rjRange
    | .ok _ => false

/-- A CHAN setting after its checks: applied, or waiting behind an exchange or a MEAS (R101, R104). -/
def Dev.chanIns (d : Dev) (c : Nat) (i : RRX) (k op sub : Nat) (b : W24) : IRes :=
  if d.quar (k / 32) then .fault (fQuarantine (k / 32))
  else if d.on (Reg.CHAN.STATUS.exchanging k) then .stays (d.waitOn c (.chan k op sub b) i.x 5 (k / 32) 0 false)
  else if deferredOp op && (d.chan k).meas.isSome then
    .stays ((d.waitOn c (.chan k op sub b) i.x 5 (k / 32) 0 false).modChan k fun y => { y with deferred := y.deferred ++ [.ctx c] })
  else
    match (d.chanApply k op sub b).2 with
    | some w => .fault w
    | none => .ok (d.chanApply k op sub b).1

/-- Whether a CHAN setting would wait. -/
def Dev.chanWaits (d : Dev) (k op : Nat) : Bool := d.on (Reg.CHAN.STATUS.exchanging k) || (deferredOp op && (d.chan k).meas.isSome)

/-- A CHAN setting: operation and sub-field of R100. -/
def Dev.chanOp (d : Dev) (c : Nat) (i : RRX) (op sub : Nat) (bad badSub : Bool) : Dev :=
  let checks := fun (d : Dev) (x : Ctx) =>
    [badFunction badSub] ++ d.chanChecks x i (bad || (op == 5 && decide (1 < (opB x i).toNat))) ++ [(d.chanBadB (chanOf x i) op sub (opB x i), fOperand 0x0104)]
  if d.heldBySwap c (d.chanWaits (chanOf (d.ctx c) i) op) (checks d) then d
  else d.issue c i.x fun d x =>
    guarded (checks d x)
      (d.chanIns c i (chanOf x i) op sub (opB x i))

/-- What is reserved in every CHAN word: function bits [9:7], and s in X form. -/
def chanRsv (i : RRX) (rsv : BitVec 3) : Bool := rsv != 0 || (i.x && nz i.s)

def execChanMode (c : CtxId) (i : RRX) (sub rsv : BitVec 3) (s : State) : Out :=
  lift s fun d => d.chanOp c i 0 0 (chanRsv i rsv || sub != 0) false
def execChanRange (c : CtxId) (i : RRX) (sub rsv : BitVec 3) (s : State) : Out :=
  lift s fun d => d.chanOp c i 1 0 (chanRsv i rsv || sub != 0) false
def execChanForce (c : CtxId) (i : RRX) (sub rsv : BitVec 3) (s : State) : Out :=
  lift s fun d => d.chanOp c i 2 0 (chanRsv i rsv || sub != 0) false
def execChanClamp (c : CtxId) (i : RRX) (sub rsv : BitVec 3) (s : State) : Out :=
  lift s fun d => d.chanOp c i 3 sub.toNat (chanRsv i rsv) (decide (3 < sub.toNat))
def execChanLevel (c : CtxId) (i : RRX) (sub rsv : BitVec 3) (s : State) : Out :=
  lift s fun d => d.chanOp c i 4 sub.toNat (chanRsv i rsv) (decide (4 < sub.toNat))
def execChanConn (c : CtxId) (i : RRX) (sub rsv : BitVec 3) (s : State) : Out :=
  lift s fun d => d.chanOp c i 5 0 (chanRsv i rsv || sub != 0) false

/-- The number of samples of a MEAS: the extension word, or 1 (R100). -/
def measCount (i : RRX) : Nat := if i.x then i.ext.toNat else 1

/-- MEAS after its checks; while an exchange, a MEAS of another context or a capture holds the channel it waits (R104, R293). -/
def Dev.measIns (d : Dev) (c : Nat) (i : RRX) (k : Nat) : IRes :=
  if d.quar (k / 32) then .fault (fQuarantine (k / 32))
  else if d.chMode (d.lead k) = 0 then .fault (fChannel 0x0203)
  else if d.on (Reg.CHAN.STATUS.exchanging k) || (d.chan k).meas.isSome || d.capHolds k then
    .stays (d.waitOn c (.measWait k (BitVec.ofNat 24 (measCount i)) i.s) i.x 5 (k / 32) 0 false)
  else .stays ((d.waitOn c (.meas k i.s) i.x 5 (k / 32) 0 false).measBegin c k (measCount i))

/-- MEAS: s names the destination in both forms. -/
def execMeas (c : CtxId) (i : RRX) (sub rsv : BitVec 3) (s : State) : Out :=
  lift s fun d =>
    let checks := fun (d : Dev) (x : Ctx) => d.chanChecks x i (rsv != 0 || sub != 0) ++ [(measCount i == 0, fOperand 0x0104)]
    if d.heldBySwap c true (checks d) then d
    else d.issue c i.x fun d x =>
      guarded (checks d x)
        (d.measIns c i (chanOf x i))

end Sys2Proof.Machine
end

