-- ==== Sys2Proof/Machine/UnitIns.lean ====
section
/-! DEFINITION. The MILL and REED instructions (R109, R110, R351, R427). -/
namespace Sys2Proof.Machine
open Sys2Proof

/-- The operand conditions of a MILL instruction for loom `n`, and those of its unit (R110, R117, R546). -/
def Dev.millOperand (d : Dev) (x : Ctx) (n : Nat) : List (Bool × BitVec 24) :=
  [(decide (23 < n), fOperand 0x0108), (!d.loomInSite n x.site.toNat, fOperand 0x0103)]
def Dev.millUnit (d : Dev) (n : Nat) : List (Bool × BitVec 24) :=
  [(d.quar n, fQuarantine n), (d.unit (kMill n) != .on, fUnitDisabled 2 n)]

/-- A start or a load waits behind those issued before it, and until the Mill is idle (R348). -/
def Dev.millBusy (d : Dev) (n : Nat) : Bool := (d.mill n).state != mIdle || !(d.mill n).queue.isEmpty

/-- The conditions on an MLOAD for loom `n`, in the order of R117. -/
def Dev.mloadChecks (d : Dev) (i : RRX) (x : Ctx) (n : Nat) : List (Bool × BitVec 24) :=
  [badForm (!i.x), badIndex (above3 i.s), badReserved (nz i.d)] ++ d.millOperand x n ++ [(decide (granSize < (x.ra i.s.toNat).toNat + 32), fAddress 1)]
    ++ d.millUnit n

/-- The conditions on an MSTART or an MWAIT for loom `n`. -/
def Dev.mstartChecks (d : Dev) (i : RRX) (x : Ctx) (n : Nat) : List (Bool × BitVec 24) :=
  [badReserved (i.x && nz i.s)] ++ d.millOperand x n ++ d.millUnit n

/-- MLOAD: the image at a_s. -/
def execMload (c : CtxId) (i : RRX) (s : State) : Out :=
  lift s fun d =>
    if d.heldBySwap c true (fun x => d.mloadChecks i x (loomOf x (i.ext.toNat % 32))) then d
    else d.issue c i.x fun d x =>
      let n := loomOf x (i.ext.toNat % 32)
      let a := x.ra i.s.toNat
      guarded (d.mloadChecks i x n)
        (if d.millBusy n then .stays ((d.waitOn c (.mload n a) true 5 n 0 false).modMill n fun m => { m with queue := m.queue ++ [c.val] })
         else .stays ((d.millLoad n a.toNat c).waitOn c (.mloading n) true 5 n 0 false))

/-- MSTART: the Mill of loom w_d[4:0], at operation b[10:0]. -/
def execMstart (c : CtxId) (i : RRX) (s : State) : Out :=
  lift s fun d =>
    let m := loomOf (d.ctx c) (((d.ctx c).rw i.d.toNat).toNat % 32)
    if d.heldBySwap c (d.millBusy m) (fun x => d.mstartChecks i x m) then d
    else d.issue c i.x fun d x =>
      let n := loomOf x ((x.rw i.d.toNat).toNat % 32)
      let e := (opB x i).setWidth 11
      guarded (d.mstartChecks i x n)
        (if d.millBusy n then .stays ((d.waitOn c (.mstart n e) i.x 5 n 0 false).modMill n fun m => { m with queue := m.queue ++ [c.val] })
         else .ok (d.millStart n e.toNat))

/-- MWAIT: w_d takes the status word. -/
def execMwait (c : CtxId) (i : RRX) (s : State) : Out :=
  lift s fun d =>
    let m := loomOf (d.ctx c) ((opB (d.ctx c) i).toNat % 32)
    if d.heldBySwap c ((d.mill m).state != mIdle) (fun x => d.mstartChecks i x m) then d
    else d.issue c i.x fun d x =>
      let n := loomOf x ((opB x i).toNat % 32)
      guarded (d.mstartChecks i x n)
        (if (d.mill n).state = mIdle then
          let v := BitVec.ofNat 24 (d.mill n).status
          .ok (d.modCtx c fun y => (y.setW i.d.toNat v).setZ (v == 0))
         else .stays (d.waitOn c (.mwait n i.d) i.x 5 n 0 false))

/-- SEND: event code b[7:0] on the lane of bit [4]; one that finds no credit waits for it (R75, R427). -/
def execSend (c : CtxId) (i : RRX) (tmo lane : Bool) (rsv : BitVec 5) (s : State) : Out :=
  lift s fun d => d.issue c i.x fun d x =>
    let b := opB x i
    guarded [badReserved (tmo || rsv != 0 || nz i.d || (i.x && nz i.s) || decide (256 ≤ b.toNat))]
      (match d.sendTake (b.setWidth 8) lane with
       | some d' => .ok d'
       | none =>
         .stays (({ d with reed := { d.reed with sendWait := d.reed.sendWait ++ [({ ctx := c.val, code := b.setWidth 8, lane := lane } : SendWait)] } }).modCtx c fun y =>
           { y with wait := .send, waitX := i.x }))

/-- RECV: an event whose code matches extension word [7:0] under mask [15:8], or the time-out of w_d ticks. -/
def execRecv (c : CtxId) (i : RRX) (tmo lane : Bool) (rsv : BitVec 5) (s : State) : Out :=
  lift s fun d => d.issue c i.x fun d x =>
    guarded [badForm (!i.x), badReserved (lane || rsv != 0)]
      (.stays (d.waitOn c (.recv (i.ext.setWidth 8) ((i.ext >>> 8).setWidth 8) i.d i.s tmo) true 6 0
        (if tmo then d.now + (x.rw i.d.toNat).toNat else 0) true))

end Sys2Proof.Machine
end

