-- ==== Sys2Proof/Machine/RegWrite.lean ====
section
/-! DEFINITION. Writes to the slots of the global, Reed and event counter regions (R13, R190, R617, R619): every field is
judged by its register's rule, and the fields that pass are stored. The refusals of one slot write count as one. -/
namespace Sys2Proof.Machine
open Sys2Proof

/-! The parts that slot writes are made of. -/

/-- The effect on the device of a command's meaning. -/
def Dev.via (d : Dev) (f : State → Out) : Dev :=
  match f { dev := d, pending := [] } with
  | .next s => s.dev
  | _ => d

/-- The part of slot value `v` that field `f` takes. -/
def slotPart (v : Nat) (f : Fld) : Nat := bits v f.lo f.w

/-- Some field of `fs` would change (R617). -/
def Dev.moves (d : Dev) (p : Port) (v : Nat) (fs : List Fld) : Bool := fs.any fun f => slotPart v f != d.view p f

/-- Fields written together: judged where one of them changes; `own` says that the writer may, `ok` that the values pass. -/
def Dev.putRw (d : Dev) (p : Port) (v : Nat) (fs : List Fld) (own ok : Bool) (noOwn bad : Dev → Dev) : Dev :=
  if !d.moves p v fs then d else if !own then noOwn d else if !ok then bad d else d.putAll fs v

/-- W1C flags written 1 (R617). -/
def Dev.putW1c (d : Dev) (v : Nat) (fs : List Fld) (own : Bool) (noOwn : Dev → Dev) : Dev :=
  if fs.all fun f => slotPart v f == 0 then d
  else if own then fs.foldl (fun d f => d.clear1 f (slotPart v f)) d
  else noOwn d

/-- A register without rules of its own: stored by the owner of block `b`, and refused to others by `no` (R536, R619). -/
def Dev.plain (d : Dev) (p : Port) (a v b : Nat) (no : Dev → Dev) : Dev :=
  let fs := narrowAt (masterCode p.master) a
  let own := d.owns p.master b
  (d.putRw p v (fs.filter fun f => f.acc == .rw) own true no no).putW1c v (fs.filter fun f => f.acc == .w1c) own no

/-- A register whose W1C flags any master clears (R445, R561). -/
def Dev.flagsAny (d : Dev) (p : Port) (a v : Nat) : Dev := d.putW1c v ((narrowAt (masterCode p.master) a).filter fun f => f.acc == .w1c) true id

/-- The low slot of a wide quantity is written (R19). -/
def Dev.lowSlot (d : Dev) (p : Port) (a v : Nat) : Dev := d.setLow (portKey p) a (BitVec.ofNat 32 v)

/-- The value that a write of the high slot of wide field `f` gives it (R19). -/
def Dev.highVal (d : Dev) (p : Port) (f : Fld) (v : Nat) : Nat := (v * 2 ^ 32 + d.lowFor (portKey p) f.addr (d.rd f)) % 2 ^ f.w

/-- The high slot of wide field `f` is written; `g` is what the field keeps of a value. -/
def Dev.highSlot (d : Dev) (p : Port) (f : Fld) (v : Nat) (g : Nat → Nat) (ok : Bool) (no : Dev → Dev) : Dev :=
  let w := g (d.highVal p f v)
  let d := d.useLow (portKey p) f.addr
  if w = d.rd f then d else if ok then d.wr f w else no d

/-! The first part of the global region (R384, R402, R403). -/

/-- A write of an RWC field that cfg_commit locks (R13, R388). -/
def Dev.putCfg (d : Dev) (m : Master) (f : Fld) (v : Nat) : Dev :=
  if d.rd f = slotPart v f then d
  else if !d.owns m 0 then d.ownerReject m 0
  else if d.on Reg.GLB_PCIE_CTRL.cfg_done then d.rejectWith Reg.GLB_STATUS.lock_reject false
  else d.wr f (slotPart v f)

def Dev.writeTop (d : Dev) (p : Port) (a v : Nat) : Dev :=
  let m := p.master
  if a = 0x20 then d.irqSw v
  else if a = 0x40 then
    let h := slotPart v Reg.GLB_SCRUB_CTRL.period_h
    let no := fun (own : Bool) (d : Dev) => d.rejectWith Reg.GLB_SCRUB_CTRL.cfg_reject own
    (d.putW1c v [Reg.GLB_SCRUB_CTRL.cfg_reject] (d.owns m 0) (·.ownerReject m 0)).putRw p v [Reg.GLB_SCRUB_CTRL.period_h] (d.owns m 0)
      (decide (1 ≤ h ∧ h ≤ 168)) (no true) (no false)
  else if a = 0x84 then (d.putCfg m Reg.GLB_PCIE_SUBSYS.subsys_vendor v).putCfg m Reg.GLB_PCIE_SUBSYS.subsys_id v
  else if a = 0x88 then
    let d := d.putCfg m Reg.GLB_PCIE_CTRL.max_speed v
    if bit v 0 then d.via (execCfgCommit m) else d
  else d.plain p a v 0 (·.ownerReject m 0)

/-! DMA engines (R411, R412). -/

def Dev.writeDma (d : Dev) (p : Port) (i a v : Nat) : Dev :=
  let m := p.master
  let may := d.owns m dmaBlock && d.unit (kDma i) == .off
  let no := fun (d : Dev) => d.rejectWith (Reg.DMA.CTRL_STAT.cfg_reject i) (!d.owns m dmaBlock)
  match a % 0x20 / 4 with
  | 0 => d.lowSlot p a v
  | 1 => d.highSlot p (Reg.DMA.RING.ring i) v (fun w => (if d.dmaLocal i then w % 2 ^ 33 else w) / 32 * 32) may no
  | 2 =>
    let s := slotPart v (Reg.DMA.RING_CFG.size_log2 i)
    (d.putRw p v [Reg.DMA.RING_CFG.size_log2 i] may (decide (4 ≤ s ∧ s ≤ 16)) no no).putRw p v [Reg.DMA.RING_CFG.loc i] may true no no
  | 3 => d.via fun s => if h : i < 8 then execDmaTailWrite m ⟨i, h⟩ (BitVec.ofNat 32 v) s else .next s
  | 6 =>
    let d := d.putW1c v [Reg.DMA.CTRL_STAT.done i, Reg.DMA.CTRL_STAT.error i, Reg.DMA.CTRL_STAT.tail_reject i, Reg.DMA.CTRL_STAT.cfg_reject i,
      Reg.DMA.CTRL_STAT.cmd_reject i] (d.owns m dmaBlock) (·.ownerReject m dmaBlock)
    let d := if bit v 1 then d.via fun s => if h : i < 8 then execDmaResetRing m ⟨i, h⟩ s else .next s else d
    if bit v 0 then d.via fun s => if h : i < 8 then execDmaSkip m ⟨i, h⟩ s else .next s else d
  | _ => d

/-! Calibration (R486). -/

/-- A value of a calibration register is refused (R486). -/
def Dev.calRange (d : Dev) : Dev := (d.wr Reg.CAL_STATUS.reject_code 1).rejectWith Reg.CAL_CTRL.cmd_reject false

/-- The commands of a write of `CAL_CTRL`. -/
def Dev.calCtrl (d : Dev) (p : Port) (v : Nat) : Dev :=
  let m := p.master
  let d := d.putW1c v [Reg.CAL_CTRL.cmd_reject] (d.owns m calBlock) (·.calReject 1)
  let d := if bit v 6 == d.on Reg.CAL_CTRL.roll_en then d else d.via (execCalRollEnable m (bit v 6))
  let d := if bit v 0 then d.via (execCalFull m (bit v 1)) else if bit v 1 then d.via (execCalStop m) else d
  let d := if bit v 2 then d.via (execCalCommit m) else d
  let d := if bit v 3 then d.via (execCalDiscard m) else d
  let d := if bit v 4 then d.via (execCalDump m) else d
  let d := if bit v 5 then d.via (execCalLoad m) else d
  if bit v 7 then d.via (execCalTimeArm m) else d

def Dev.writeCal (d : Dev) (p : Port) (a v : Nat) : Dev :=
  let m := p.master
  let k := masterCode m
  let own := d.owns m calBlock
  let no := fun (d : Dev) => d.calReject 1
  if a = 0x280 then d.calCtrl p v
  else if a = 0x288 then d.putRw p v [Reg.CAL_REF_V.v] own (decide (490000000 ≤ v ∧ v ≤ 510000000)) no (·.calRange)
  else if a = 0x28C then d.putRw p v [Reg.CAL_REF_R.r] own (decide (9900000 ≤ v ∧ v ≤ 10100000)) no (·.calRange)
  else if a = 0x298 then
    let d := d.wr (Reg.CAL_SEL.view k) (slotPart v (Reg.CAL_SEL.view k))
    let l := slotPart v (Reg.CAL_SEL.loom k)
    let d := if l < 24 then d.wr (Reg.CAL_SEL.loom k) l else d
    let g := slotPart v (Reg.CAL_SEL.core k)
    if g < 816 then d.wr (Reg.CAL_SEL.core k) g else d.rejectWith Reg.CAL_CTRL.cmd_reject false
  else if a = 0x2A8 then d.lowSlot p a v
  else if a = 0x2AC then d.highSlot p Reg.CAL_TIME_ARM.arm v id own no
  else d.plain p a v calBlock no

/-! Temperature, power and log (R491, R507, R510). -/

/-- The thresholds of R491 stand in order. -/
def limitsOk (warn throttle shutdown resume : Nat) : Bool :=
  decide (480 ≤ warn ∧ warn ≤ 840 ∧ 480 ≤ throttle ∧ throttle ≤ 880 ∧ 800 ≤ shutdown ∧ shutdown ≤ 1040 ∧ 320 ≤ resume ∧ resume < throttle
    ∧ warn ≤ throttle ∧ throttle < shutdown)

/-- A threshold or pause write is ignored (R510). -/
def Dev.thRange (d : Dev) : Dev := d.rejectWith Reg.TH_STATUS.cfg_reject false

/-- A write of `TH_LIMIT_B`: both values are judged together; a shutdown that the lock holds keeps its value (R13, R491). A master that
does not own the block is refused for any value that differs (R510, R617). -/
def Dev.limitB (d : Dev) (p : Port) (v : Nat) : Dev :=
  let fs := [Reg.TH_LIMIT_B.shutdown, Reg.TH_LIMIT_B.resume]
  let own := d.owns p.master thermBlock
  let lockHit := own && d.secLocked && slotPart v Reg.TH_LIMIT_B.shutdown != d.rd Reg.TH_LIMIT_B.shutdown
  let sh := if lockHit then d.rd Reg.TH_LIMIT_B.shutdown else slotPart v Reg.TH_LIMIT_B.shutdown
  let re := slotPart v Reg.TH_LIMIT_B.resume
  let d1 := if lockHit then d.rejectWith Reg.GLB_STATUS.lock_reject false else d
  d1.putRw p (sh + 65536 * re) fs own
    (limitsOk (d.rd Reg.TH_LIMIT_A.warn) (d.rd Reg.TH_LIMIT_A.throttle) sh re) (·.thReject true) (·.thRange)

def Dev.writeTherm (d : Dev) (p : Port) (a v : Nat) : Dev :=
  let m := p.master
  let k := masterCode m
  let own := d.owns m thermBlock
  let no := fun (d : Dev) => d.thReject true
  if a = 0x304 then d.wr (Reg.TEMP_SEL.sensor k) v
  else if a = 0x30C then
    d.putRw p v [Reg.TH_LIMIT_A.warn, Reg.TH_LIMIT_A.throttle] own
      (limitsOk (bits v 0 16) (bits v 16 16) (d.rd Reg.TH_LIMIT_B.shutdown) (d.rd Reg.TH_LIMIT_B.resume)) no (·.thRange)
  else if a = 0x310 then d.limitB p v
  else if a = 0x314 then
    (d.putRw p v [Reg.TH_PAUSE.len] own true no no).putRw p v [Reg.TH_PAUSE.interval] own (decide (100 ≤ bits v 16 16)) no (·.thRange)
  else if a = 0x318 then d.putW1c v ((narrowAt k a).filter fun f => f.acc == .w1c) true no
  else if a = 0x31C then
    let d := if bit v 1 && (!bit v 0 || !d.owns m thermBlock) then d.via (execClearSafe m) else d
    let d := if bit v 0 then d.via (execSafe m) else d
    if bit v 2 then d.via (execThermalAck m) else d
  else if a = 0x334 then
    let lim := slotPart v Reg.PWR_LIMIT.limit
    let d := d.putRw p v [Reg.PWR_LIMIT.limit] own (decide (2000 ≤ lim ∧ lim ≤ 16000)) no (·.thRange)
    let d := d.putRw p v [Reg.PWR_LIMIT.trip_ms] own true no no
    d.writeRwc own no Reg.PWR_LIMIT.trip_en (slotPart v Reg.PWR_LIMIT.trip_en)
  else if a = 0x348 then d.setLow (portKey p) 0x348 (BitVec.ofNat 32 (v % 2 ^ 24))
  else if a = 0x34C then d.logHost p v
  else if a = 0x350 then d.putW1c v [Reg.LOG_STATUS.write_reject] true no
  else if a = 0x354 then d.wr (Reg.LOG_PAGE.page k) v
  else d.plain p a v thermBlock no

/-! Microcode and security (R532, R534, R615), flash port and board port (R445, R457). -/

/-- The commands of a write of `UCODE_CTRL`: a swap beside swap_abort, and a sure_exit beside sure_enter, give way
(DEDUCED); a sure_exit that would be refused is refused all the same. -/
def Dev.ucodeCtrl (d : Dev) (p : Port) (v : Nat) : Dev :=
  let m := p.master
  let d := d.putW1c v [Reg.UCODE_CTRL.cmd_reject] (d.owns m secBlock) (·.ownerReject m secBlock)
  let d := if bit v 0 then d.via (execUcodeLoad m) else d
  let d := if bit v 1 then (if !bit v 2 then d.via (execUcodeSwap m) else if d.owns m secBlock then d else d.ucodeReject 1) else d
  let d := if bit v 2 then d.via (execSwapAbort m) else d
  let d := if bit v 4 then (if !bit v 3 then d.via (execSureExit m) else if d.owns m secBlock then d else d.ucodeReject 1) else d
  if bit v 3 then d.via (execSureEnter m) else d

def Dev.writeUcode (d : Dev) (p : Port) (a v : Nat) : Dev :=
  let m := p.master
  let k := masterCode m
  if a = 0x380 then d.ucodeCtrl p v
  else if a = 0x390 then (if v % 32 < 25 then d.wr (Reg.UCODE_SEL.shuttle k) v else d)
  else if a = 0x3B0 then d.writeRwc (d.owns m secBlock) (·.ucodeReject 1) Reg.UCODE_FLOOR.version (v % 2 ^ 24)
  else if a = 0x384 ∨ a = 0x388 ∨ a = 0x3A0 ∨ a = 0x3A8 then d.plain p a v secBlock (·.ucodeReject 1)
  else d.plain p a v secBlock (·.ownerReject m secBlock)

/-- A write of `SEC_CTRL` through the register bus: the read-backs of an attest are open (R609). -/
def Dev.writeSecCtrl (d : Dev) (m : Master) (v : Nat) : Dev :=
  if bit v 1 then d.tookFree.secCtrl m v (Config.freeReads d.freeCtr).val else d.secCtrl m v 0

/-- The port runs no transaction, and none waits (R445). -/
def Dev.flashIdle (d : Dev) : Bool := !d.on Reg.FL_STATUS.busy && d.flash.fills.isEmpty

/-- A write of half the nonce (R19, R441, R603). -/
def Dev.writeNonce (d : Dev) (p : Port) (v : Nat) : Dev :=
  let w := d.highVal p Reg.FL_NONCE.nonce v
  let d := d.useLow (portKey p) 0x3E8
  if w = d.rd Reg.FL_NONCE.nonce then d
  else if !d.owns p.master flashBlock then d.ownerReject p.master flashBlock
  else if d.xipLocked then d.rejectWith Reg.GLB_STATUS.lock_reject false
  else d.wr Reg.FL_NONCE.nonce w

def Dev.writePorts (d : Dev) (p : Port) (a v : Nat) : Dev :=
  let m := p.master
  let own := d.owns m flashBlock
  if a = 0x3C0 then d.writeSecCtrl m v
  else if a < 0x3D0 then d.plain p a v bootBlock (·.ownerReject m bootBlock)
  else if a = 0x3D0 then
    let no := fun (own : Bool) (d : Dev) => d.rejectWith Reg.FL_CFG.cfg_reject own
    let put := fun (fs : List Fld) (ok : Bool) (d : Dev) => d.putRw p v fs own (d.flashIdle && ok) (no true) (no false)
    put [Reg.FL_CFG.dummy, Reg.FL_CFG.addr4, Reg.FL_CFG.rd_op] true
      (put [Reg.FL_CFG.size1_log2] (flSizeOk v Reg.FL_CFG.size1_log2)
        (put [Reg.FL_CFG.size0_log2] (flSizeOk v Reg.FL_CFG.size0_log2)
          (put [Reg.FL_CFG.mode, Reg.FL_CFG.div] (flDivOk v) (d.putW1c v [Reg.FL_CFG.cfg_reject] true id))))
  else if a = 0x3DC then d.flashCommand m v
  else if a = 0x3E0 then d.flagsAny p a v
  else if a = 0x3E4 then d.flXip m v
  else if a = 0x3E8 then d.lowSlot p a v
  else if a = 0x3EC then d.writeNonce p v
  else if a < 0x3F0 then d.plain p a v flashBlock (·.ownerReject m flashBlock)
  else if a = 0x3F0 then d.writeRwc (d.owns m bootBlock) (·.ownerReject m bootBlock) Reg.BP_CTRL.en (bits v 0 1)
  else if a = 0x3F4 then d.plain p a v bootBlock (·.ownerReject m bootBlock)
  else if a = 0x3F8 then d.wr Reg.BP_ALERT_EN_LO.mask_lo v
  else d.wr Reg.BP_ALERT_EN_HI.mask_hi v

/-! Fabric, programs, contexts, timing sets, segments, Mill (R57 to R59, R118, R143, R246, R270, R356, R620). -/

/-- An enable bit is written with `v` (R51, R53, R617, R621). -/
def Dev.enableBit (d : Dev) (m : Master) (u : UnitId) (v : Bool) : Dev :=
  if v == d.enabled u then d else if v then d.unitOn m u else d.unitDrain u

/-- The units of `GLB_UNIT_ENABLE`, with their bits. -/
def topUnits : List (Nat × UnitId) :=
  [(0, .dma 0), (1, .dma 1), (2, .dma 2), (3, .dma 3), (4, .dma 4), (5, .dma 5), (6, .dma 6), (7, .dma 7), (8, .tap 0), (9, .tap 1), (10, .scrub)]

/-- A selection register whose loom field takes 0 to 23 (R246, R356): bad values are ignored, and set the copy's flag. -/
def Dev.putSel (d : Dev) (v : Nat) (flag : Fld) (fs : List (Fld × Nat)) : Dev :=
  let d := d.clear1 flag (slotPart v flag)
  let d := fs.foldl (fun d f => if slotPart v f.1 < f.2 then d.wr f.1 (slotPart v f.1) else d) d
  if fs.any fun f => decide (f.2 ≤ slotPart v f.1) then d.rejectWith flag false else d

def Dev.writeFabric (d : Dev) (p : Port) (a v : Nat) : Dev :=
  let m := p.master
  let k := masterCode m
  let own := d.owns m ctxBlock
  if a = 0x400 then topUnits.foldl (fun d u => d.enableBit m u.2 (bit v u.1)) d
  else if a = 0x440 then
    let b := slotPart v Reg.GLB_PROG_BASE.base
    let no := fun (own : Bool) (d : Dev) => d.rejectWith Reg.GLB_PROG_BASE.base_reject own
    (d.putW1c v [Reg.GLB_PROG_BASE.base_reject] own (·.ownerReject m ctxBlock)).putRw p v [Reg.GLB_PROG_BASE.base] own
      (decide (b < 510) && (List.range 24).all fun n => d.unit (kShuttle n) == .off) (no true) (no false)
  else if a = 0x444 then
    if v % 2 ^ 25 = 0 then d
    else if own then iter (fun s d => if bit v s then { d with icacheBusy := Tab.set false d.icacheBusy s true } else d) 25 d
    else d.ownerReject m ctxBlock
  else if a = 0x480 then
    if v % 2 ^ 14 < nCtx then d.wr (Reg.CTX_SEL.context k) v else d.rejectWith Reg.CTX_STATUS.write_reject false
  else if a = 0x484 then (if 1 ≤ v % 8 ∧ v % 8 ≤ 5 then d.cmdArrive m (v % 8) false else d)
  else if 0x488 ≤ a ∧ a < 0x498 then d.plain p a v ctxBlock (·.ownerReject m ctxBlock)
  else if a = 0x498 then d.wr (Reg.SITE_SEL.site k) v
  else if a = 0x4C0 then
    d.putSel v (Reg.TSET_SEL.write_reject k) [(Reg.TSET_SEL.loom k, 24), (Reg.TSET_SEL.set k, 32), (Reg.TSET_SEL.view k, 2)]
  else if a = 0x500 then d.segBaseWrite m v
  else if a = 0x504 then (d.wr (Reg.GLB_SEGT_SEL.segment k) v).segUnstage m
  else if a = 0x540 then d.putSel v (Reg.GLB_MILL_SEL.write_reject k) [(Reg.GLB_MILL_SEL.loom k, 24), (Reg.GLB_MILL_SEL.page k, 5)]
  else d.plain p a v 0 (·.ownerReject m 0)

/-! The Reed region (R431, R433). -/

def Dev.writeReed (d : Dev) (p : Port) (a v : Nat) : Dev :=
  let m := p.master
  let own := d.owns m reedBlock
  let offOk := d.reedState == 0
  let no := fun (own : Bool) (d : Dev) => d.reedReject own
  if a = 0x800 then
    let d := d.putW1c v [Reg.REED_CTRL.cfg_reject] own (no true)
    let d := d.putRw p v [Reg.REED_CTRL.role] own (offOk && decide (v % 4 ≠ 3)) (no true) (no false)
    let d := [Reg.REED_CTRL.branch, Reg.REED_CTRL.position, Reg.REED_CTRL.echo_term, Reg.REED_CTRL.lane_loop].foldl
      (fun d f => d.putRw p v [f] own offOk (no true) (no false)) d
    let stop := !bit v 2 && d.on Reg.REED_CTRL.en
    let d := if bit v 14 then d.echoNow m else d
    let d := if bit v 13 then (if stop then (if own then d else d.reedReject true) else d.reedResync m) else d
    if bit v 2 then d.reedEnable m else d.reedDisable
  else if a = 0x808 then
    (d.putRw p v [Reg.REED_LAT.ticks] own (offOk && decide (64 ≤ v % 65536)) (no true) (no false)).putRw p v [Reg.REED_LAT.upslots_log2] own
      (offOk && decide (slotPart v Reg.REED_LAT.upslots_log2 ≤ 8)) (no true) (no false)
  else if a = 0x814 then d.delayTrim m v
  else d.plain p a v reedBlock (no true)

/-! The event counter region (R556, R558, R563). -/

def Dev.writeEvc (d : Dev) (p : Port) (a v : Nat) : Dev :=
  let m := p.master
  if a < 0x980 then d
  else if a < 0x9C0 then d.evcSource m ((a - 0x980) / 4) v
  else if a = 0x9C0 then
    let d := d.evcRunWrite m v
    if bit v 17 then d.via (execClearAll m) else d
  else d.plain p a v evcBlock (·.ownerReject m evcBlock)

/-- A write of an implemented slot of the global, Reed or event counter region. -/
def Dev.writeLow (d : Dev) (p : Port) (a v : Nat) : Dev :=
  let m := p.master
  if a < 0x100 then d.writeTop p a v
  else if a < 0x200 then d.writeDma p ((a - 0x100) / 0x20) a v
  else if a < 0x20C then d.ownerWrite m ((a - 0x200) / 4) v
  else if a = 0x220 then
    let e := d.plain p a v 0 (·.ownerReject m 0)
    if !d.on Reg.GLB_ERR_CFG.auto_spare && e.on Reg.GLB_ERR_CFG.auto_spare then e.spareAll else e
  else if a = 0x20C ∨ a = 0x214 then d.flagsAny p a v
  else if a = 0x210 then d.takeover m v
  else if a < 0x280 then d.plain p a v 0 (·.ownerReject m 0)
  else if a < 0x300 then d.writeCal p a v
  else if a < 0x380 then d.writeTherm p a v
  else if a < 0x3C0 then d.writeUcode p a v
  else if a < 0x400 then d.writePorts p a v
  else if a < 0x600 then d.writeFabric p a v
  else if a < 0x900 then d.writeReed p a v
  else d.writeEvc p a v

end Sys2Proof.Machine
end

