-- ==== Sys2Proof/Machine/RegWin.lean ====
section
/-! DEFINITION. Writes to the slots of the loom and channel blocks and of the table windows (R190, R394, R617). -/
namespace Sys2Proof.Machine
open Sys2Proof

/-! Loom blocks. -/

/-- The units of `LOOM[n].ENABLE`, with their bits (R57). -/
def loomUnits (n : Fin 24) : List (Nat × UnitId) := [(0, .shuttle n), (1, .pattern n), (2, .mill n), (3, .capture n), (4, .tme n)]

/-- R248: the ring start is written while the pattern path is OFF. -/
def Dev.flogBase (d : Dev) (p : Port) (n v : Nat) : Dev :=
  d.putRw p v [Reg.LOOM.FLOG_BASE.line n] (d.owns p.master (loomBlock n)) (d.unit (kPattern n) == .off)
    (·.ownerReject p.master (loomBlock n)) (·.rejectWith (Reg.LOOM.SEL_STATUS.cfg_reject n) false)

/-- R337: a value outside its range leaves the slot as it is. -/
def Dev.spareMeas (d : Dev) (p : Port) (n v : Nat) : Dev :=
  if bits v 0 16 < 16 ∨ 6 ≤ bits v 16 3 then d
  else d.putRw p v [Reg.LOOM.SPARE_MEAS.rate n, Reg.LOOM.SPARE_MEAS.tap n] (d.owns p.master (loomBlock n)) true
    (·.ownerReject p.master (loomBlock n)) id

/-- R554: the operations of `SPARE_CMD`; any other value does nothing. -/
def Dev.spareCmd (d : Dev) (m : Master) (n : Fin 24) (v : Nat) : Dev :=
  let k := bits v 0 6
  match bits v 6 2 with
  | 1 => if k < 32 then d.spareOut m n.val k else d
  | 2 => if k < 32 then d.spareReturn m n.val k else d
  | 3 => if h : k < 34 then d.via (execMarkFailed m n ⟨k, h⟩) else d
  | _ => d

/-- A write of slot offset `o` of the block of loom `n`. -/
def Dev.writeLoom (d : Dev) (p : Port) (n : Fin 24) (a o v : Nat) : Dev :=
  let m := p.master
  let b := loomBlock n.val
  let own := d.owns m b
  let no := fun (d : Dev) => d.ownerReject m b
  let i := n.val
  if o = 0x00 then (loomUnits n).foldl (fun d u => d.enableBit m u.2 (bit v u.1)) d
  else if o = 0x2C then
    (d.putW1c v [Reg.LOOM.TSET_COMMIT.commit_reject i] own no).via fun s => if bit v 0 then execTsetCommit m n s else .next s
  else if o = 0x30 then d.flogBase p i v
  else if o = 0x34 then d.flogCtrl m i v
  else if o = 0x64 then d.pinCmd m i v
  else if o = 0x80 then d.capArmWrite m i v
  else if o = 0x84 then
    let d := if bit v 0 && bit v 1 && !own then d.rejectWith (Reg.LOOM.CAP_STATUS.cmd_reject i) true else d
    if bit v 1 then d.via (execCapCmdDisarm m n) else if bit v 0 then d.via (execCapCmdTrig m n) else d
  else if o = 0x9C then d.spareMeas p i v
  else if o = 0xA0 then
    if bit v 11 then d.via (execMillCmdStart m n (BitVec.ofNat 11 v) (bit v 12)) else if bit v 12 then d.via (execMillCmdStop m n) else d
  else if o = 0xC8 then
    let d := d.putW1c v [Reg.LOOM.QUAR.release_reject i] own no
    let d := if bit v 4 then d.askQuar i 4 else d
    if bit v 5 then d.quarRelease m i else d
  else if o = 0xD0 then d.spareCmd m n v
  else if o = 0xDC then iter (fun k d => d.evcLoomSource m i k v) 4 d
  else d.plain p a v b no

/-! Channel blocks (R189 to R191). -/

/-- Fields of a channel's slot, judged by the rules of its block (R190, R536, R545). -/
def Dev.putChan (d : Dev) (p : Port) (c v : Nat) (fs : List Fld) (ok : Bool) : Dev :=
  d.putRw p v fs (d.blockReject p.master c).isNone ok (fun d => d.chanReject c ((d.blockReject p.master c).getD rjOwner)) (·.chanReject c rjRange)

/-- KI or KV, in the odd channel of a pair: 24 bits over the two level fields of the slot (R191). -/
def Dev.putGain (d : Dev) (p : Port) (c v : Nat) (lo hi : Fld) (ok : Bool) : Dev :=
  if d.rd lo = bits v 0 16 ∧ d.rd hi % 256 = bits v 16 8 then d
  else
    match d.blockReject p.master c with
    | some r => d.chanReject c r
    | none => if ok then (d.wr lo (bits v 0 16)).wr hi (bits v 16 8) else d.chanReject c rjRange

/-- A write of the level slots of channel `c` (R148, R160, R191). -/
def Dev.chanLevels (d : Dev) (p : Port) (c slot v : Nat) : Dev :=
  let pair := d.evenOfPair c || d.oddOfPair c
  match slot with
  | 4 =>
    if d.oddOfPair c then d.putGain p c v (Reg.CHAN.LVL_DRV.vil c) (Reg.CHAN.LVL_DRV.vih c) true
    else d.putChan p c v (if pair then [Reg.CHAN.LVL_DRV.vil c] else [Reg.CHAN.LVL_DRV.vil c, Reg.CHAN.LVL_DRV.vih c]) true
  | 5 =>
    if d.oddOfPair c then d.putGain p c v (Reg.CHAN.LVL_CMP.vol c) (Reg.CHAN.LVL_CMP.voh c) (!bit v 23)
    else if pair then d
    else d.putChan p c v [Reg.CHAN.LVL_CMP.vol c, Reg.CHAN.LVL_CMP.voh c] true
  | _ =>
    (if pair then d else d.putChan p c v [Reg.CHAN.RATE.vt c] true).putChan p c v [Reg.CHAN.RATE.rate c] (decide (16 ≤ bits v 16 16))

def Dev.writeChan (d : Dev) (p : Port) (c slot v : Nat) : Dev :=
  let m := p.master
  match slot with
  | 0 => d.chanCtrl m c v
  | 1 => d.forceCode m c v
  | 2 => d.clampSlot m c false v
  | 3 => d.clampSlot m c true v
  | 7 => d.huskClear m c v 0
  | _ => d.chanLevels p c slot v

/-! Windows. -/

/-- A write of monitor `id` (R212, R213). -/
def Dev.writeMon (d : Dev) (p : Port) (id : MonId) (slot v : Nat) : Dev :=
  let m := p.master
  let b := monIdBase id
  match slot with
  | 0 => d.monCtrl m id v
  | 1 => d.monWin m id v
  | 2 => d.putW1c v [Reg.MON.STATE.enter b, Reg.MON.STATE.rise_out b, Reg.MON.STATE.fall_out b, Reg.MON.STATE.guard_trip b, Reg.MON.STATE.set_reject b]
      (d.owns m (loomBlock (monLoom id))) (·.monReject b 2)
  | _ => d

/-- A write of a window that shows storage of a unit. -/
def Dev.writeWin (d : Dev) (p : Port) (v : Nat) : Win → Dev
  | .ctx i => d.ctxWindow p.master i v
  | .site i => d.siteWindow p i v
  | .map c => d.siteMap p.master c v
  | .cal area slot => d.calWindow p.master (area * 0x100 + 4 * slot) (BitVec.ofNat 32 v)
  | .pend _ _ => d
  | .tset i => d.tsetWrite p.master i (BitVec.ofNat 32 v)
  | .seg i => if i < 3 then d.segStage p.master i (BitVec.ofNat 32 v) else d.segWin3 p.master (BitVec.ofNat 32 v)
  | .log i => if v = d.winVal p (.log i) then d else d.rejectWith Reg.LOG_STATUS.write_reject false
  | .mill i => if h : i < 8192 then d.via (execMillWindowWrite p.master ⟨i, h⟩ (BitVec.ofNat 32 v)) else d
  | .millReg _ => d

/-- Reserved bits of timing and layer slots: a set with one of them written 1 is refused when it is committed (R363, R368). -/
def Dev.tapRsv (d : Dev) (k o v : Nat) (fs : List Fld) : Dev :=
  let used := fs.foldl (fun u f => u + slotPart v f * 2 ^ f.lo) 0
  d.modRast k fun r => { r with rsv := Tab.set false r.rsv o (used != v % 2 ^ 32) }

/-- The address of a layer, written under R19: the high slot takes bit 32, and its other bits are reserved. -/
def Dev.tapAddr (d : Dev) (p : Port) (k l o v : Nat) (own : Bool) : Dev :=
  let f := Reg.TAP.L_ADDR.addr k l
  let w := d.highVal p f v
  let d := d.useLow (portKey p) f.addr
  if own then (d.wr f w).modRast k fun r => { r with rsv := Tab.set false r.rsv o (2 ≤ v % 2 ^ 32) }
  else if w = d.rd f then d
  else d.tapReject k true

/-- A write of slot offset `o` of Tapestry output `k` (R357, R373); bit [7] of each byte of a pin map is reserved (R16). -/
def Dev.writeTap (d : Dev) (p : Port) (k : Fin 2) (a o v : Nat) : Dev :=
  let m := p.master
  let i := k.val
  let own := d.owns m tapBlock
  let no := fun (own : Bool) (d : Dev) => d.tapReject i own
  let fs := (narrowAt (masterCode m) a).filter fun f => f.acc == .rw
  let off := d.unit (kTap i) == .off
  if o = 0x00 then d.putRw p v fs own (off && decide (v % 32 < 24)) (no true) (no false)
  else if o < 0x0C then d.putRw p v fs own true (no true) (no false)
  else if o = 0x0C then
    let d := if bit v 0 then d.via (execTimCommit m k) else d
    if bit v 1 then d.via (execLayerCommit m k) else d
  else if o = 0x10 then d.putW1c v ((narrowAt (masterCode m) a).filter fun f => f.acc == .w1c) own (no true)
  else if o < 0x20 then d
  else if o < 0x40 then d.putRw p (v &&& 0x7F7F7F7F) fs own off (no true) (no false)
  else if 0x80 ≤ o ∧ o % 0x20 = 0 then d.lowSlot p a v
  else if 0x80 ≤ o ∧ o % 0x20 = 4 then d.tapAddr p i ((o - 0x80) / 0x20) o v own
  else if fs.isEmpty then d
  else
    let d1 := d.putRw p v fs own true (no true) (no false)
    if own then d1.tapRsv i o v fs else d1

/-- Refused fields of a waveform source's block. -/
def Dev.wfmRefuse (d : Dev) (c code : Nat) (own : Bool) : Dev :=
  (d.wr (Reg.WFM.STATUS.reject_code c) code).rejectWith (Reg.WFM.STATUS.set_reject c) own

/-- The configuration bits of a source's CTRL. -/
def wfmConfig (c : Nat) : List Fld :=
  [Reg.WFM.CTRL.filter c, Reg.WFM.CTRL.uflow_strict c, Reg.WFM.CTRL.start_at c, Reg.WFM.CTRL.end_hold c, Reg.WFM.CTRL.end_evt c, Reg.WFM.CTRL.end_code c]

/-- A write of slot offset `o` of waveform source `c` (R274, R283, R290). -/
def Dev.writeWfm (d : Dev) (p : Port) (c a o v : Nat) : Dev :=
  let m := p.master
  let own := d.owns m (loomBlock (c / 32))
  let off := d.wfmState c == 0
  let no := fun (d : Dev) => d.wfmRefuse c 2 true
  let on := fun (d : Dev) => d.wfmRefuse c 2 false
  let bad := fun (d : Dev) => d.wfmRefuse c 1 false
  match o / 4 with
  | 0 =>
    let d := d.putRw p v (wfmConfig c) own off no on
    let d := if bit v 14 then d.wfmRate m c else d
    if bit v 0 == d.on (Reg.WFM.CTRL.en c) then d else if bit v 0 then d.wfmEnable m c else d.wfmDrain c
  | 1 => d.putRw p v [Reg.WFM.DESC.addr c] own off no on
  | 2 =>
    let w := slotPart v (Reg.WFM.OUT_DIV.div c)
    d.putRw p v [Reg.WFM.OUT_DIV.div c] own (decide (16 ≤ w ∧ w ≤ 32000000)) no bad
  | 3 => d.putRw p v [Reg.WFM.STEP.step c] own (decide (1 ≤ v % 2 ^ 32 ∧ v % 2 ^ 32 ≤ 0x10000000)) no bad
  | 4 => d.lowSlot p a v
  | 5 => d.highSlot p (Reg.WFM.START.time c) v id (own && off) (fun d => d.wfmRefuse c 2 (!own))
  | 7 => d.putW1c v ((narrowAt (masterCode m) a).filter fun f => f.acc == .w1c) own no
  | _ => d

/-- Refused fields of a time measurement engine's block. -/
def Dev.tmeRefuse (d : Dev) (e : Nat) (own : Bool) : Dev :=
  (d.wr (Reg.TME.STATUS.reject_code e) 2).rejectWith (Reg.TME.STATUS.set_reject e) own

/-- A write of slot offset `o` of time measurement engine `e` (R321, R326, R329). -/
def Dev.writeTme (d : Dev) (p : Port) (e : Fin 192) (a o v : Nat) : Dev :=
  let m := p.master
  let i := e.val
  let own := d.owns m (loomBlock (i / 8))
  let free := !d.tmeBusy i
  let fs := narrowAt (masterCode m) a
  if o = 0x1C then d.lowSlot p a v
  else if o = 0x20 then d.highSlot p (Reg.TME.START.time i) v id (own && free) (·.tmeRefuse i (!own))
  else if o = 0x24 then
    if bit v 0 then d.via (execTmeCmdArm m e (bit v 1)) else if bit v 1 then d.tmeStop i else d
  else
    (d.putRw p v (fs.filter fun f => f.acc == .rw) own free (·.tmeRefuse i true) (·.tmeRefuse i false)).putW1c v (fs.filter fun f => f.acc == .w1c)
      own (·.tmeRefuse i true)

/-- A write of an implemented slot of the table windows (R394). -/
def Dev.writeWindows (d : Dev) (p : Port) (a v : Nat) : Dev :=
  match winAt a with
  | some w => d.writeWin p v w
  | none =>
    if 0x90000 ≤ a ∧ a < 0x96000 then
      let c := (a - 0x90000) / 0x20
      if h : c < 768 then d.writeMon p (.chan ⟨c, h⟩ (decide (0x10 ≤ a % 0x20))) (a % 0x10 / 4) v else d
    else if 0x98000 ≤ a ∧ a < 0x98C00 then
      let n := (a - 0x98000) / 0x80
      if h : n < 24 then d.writeMon p (.loom ⟨n, h⟩ ⟨a % 0x80 / 0x10, by omega⟩) (a % 0x10 / 4) v else d
    else if 0xB0000 ≤ a ∧ a < 0xB6000 then d.twWrite p.master ((a - 0xB0000) / 0x400) (a % 0x400 / 4) v
    else if 0xC8000 ≤ a ∧ a < 0xC8200 then
      let k := (a - 0xC8000) / 0x100
      if h : k < 2 then d.writeTap p ⟨k, h⟩ a (a % 0x100) v else d
    else if 0xD0000 ≤ a ∧ a < 0xD6000 then d.writeWfm p ((a - 0xD0000) / 0x20) a (a % 0x20) v
    else if 0xE0000 ≤ a ∧ a < 0xE6000 then
      let e := (a - 0xE0000) / 0x80
      if h : e < 192 then d.writeTme p ⟨e, h⟩ a (a % 0x80) v else d
    else d

/-- A write of an implemented slot, with all its bytes. -/
def Dev.writeAt (d : Dev) (p : Port) (a v : Nat) : Dev :=
  if a < 0xA00 then d.writeLow p a v
  else if 0x10000 ≤ a ∧ a < 0x11800 then
    let n := (a - 0x10000) / 0x100
    if h : n < 24 then d.writeLoom p ⟨n, h⟩ a (a % 0x100) v else d
  else if 0x20000 ≤ a ∧ a < 0x26000 then d.writeChan p ((a - 0x20000) / 0x20) (a % 0x20 / 4) v
  else d.writeWindows p a v

end Sys2Proof.Machine
end

