-- ==== Sys2Proof/Machine/RegBus.lean ====
section
/-! DEFINITION. The register bus: slot accesses of every port (R12 to R19, R393 to R398), and REG (R97 to R99). -/
namespace Sys2Proof.Machine
open Sys2Proof

/-- The MSI-X table and pending bit array: reachable from the host and from the core shuttle (R389, R453). -/
def msixTable (p : Port) (a : Nat) : Bool := p.master != .board && decide (0xC000 ≤ a) && decide (a < 0xC400)
def msixPba (p : Port) (a : Nat) : Bool := p.master != .board && decide (0xD000 ≤ a) && decide (a < 0xD008)

/-- An access past the last slot of its block (R398, R453). -/
def Dev.overrun (d : Dev) (p : Port) : Dev :=
  match p.master with
  | .board => d.flag Reg.BP_STATUS.overrun
  | _ => d.flag Reg.GLB_STATUS.pcie_overrun

/-- Slot `a` is there for port `p`. -/
def slotThere (p : Port) (a : Nat) : Bool := msixTable p a || msixPba p a || implemented (masterCode p.master) a

/-- The refusal of the slot write that has just been made was for ownership. -/
def Dev.ownRefused (d : Dev) : Bool := decide (d.judging = some (some true))

/-- A write of slot `a` with all its bytes; also whether it was refused for ownership. -/
def Dev.writeSlot (d : Dev) (p : Port) (a v : Nat) : Dev × Bool :=
  if msixTable p a then
    let k := (a - 0xC000) / 4
    let w : BitVec 32 := BitVec.ofNat 32 (if k % 4 = 3 then v % 2 else v)
    (Dev.sendPending { d with pcie := { d.pcie with table := Tab.set (msixDefault k) d.pcie.table k w } }, false)
  else if msixPba p a then (d, false)
  else if !implemented (masterCode p.master) a then (d.voidAccess, false)
  else
    let d1 := { d with judging := some none }.writeAt p a v
    (Dev.irqEdge d { d1 with judging := d.judging } a, d1.ownRefused)

/-- What an RC field holds once it has been read: 0, but a peak starts again from the value that stands in the step of the
read (R15, R59, R60). -/
def Dev.rcLeft (d : Dev) (f : Fld) : Nat :=
  let n := (f.addr - 0x10000) / 0x100
  if f = Reg.GLB_POOL_PEAK.peak then d.poolInUse
  else if f = Reg.REED_UPQ.peak then d.reed.upq.length
  else if f = Reg.PWR_PEAK.peak then d.rd Reg.PWR_NOW.power
  else if f = Reg.LOOM.CREDIT_PEAK.refill_peak n then d.inUseOf n
  else if f = Reg.LOOM.CREDIT_PEAK.shared_peak n then d.inUseOf (32 + n)
  else if f = Reg.LOOM.MILL_PEAK.peak n then (d.mill n).avail.foldl (fun v e => max v e.2) 0
  else 0

/-- Clears the RC fields of slot `a` (R15). -/
def Dev.clearRc (d : Dev) (p : Port) (a : Nat) : Dev :=
  ((narrowAt (masterCode p.master) a).filter fun f => f.acc == .rc).foldl (fun d f => d.upd f fun _ => d.rcLeft f) d

/-- The snapshots that a read of slot `a` takes: of a wide quantity (R18), and of the results of an engine (R324); and
an error that the read corrects in a Mill's memory (R333). -/
def Dev.snapshots (d : Dev) (p : Port) (a : Nat) : Dev :=
  let d : Dev := match winAt a with | some (.mill i) => d.millWinRead (masterCode p.master) i | _ => d
  let d := if 0xE0000 ≤ a ∧ a < 0xE6000 ∧ a % 0x80 = 0x2C then d.tmeSnap p ((a - 0xE0000) / 0x80) else d
  match d.wideAt p a with
  | some v => { d with ports := Tab.set {} d.ports (portKey p) { Tab.get {} d.ports (portKey p) with snap := some (a, v) } }
  | none => d

/-- The bytes of the MSI-X structures, or of a slot. -/
def Dev.value (d : Dev) (p : Port) (a : Nat) : Nat :=
  if msixTable p a then (Tab.get (msixDefault ((a - 0xC000) / 4)) d.pcie.table ((a - 0xC000) / 4)).toNat
  else if msixPba p a then maskTo (fun i => Tab.get false d.pcie.pba (8 * (a - 0xD000) + i)) 32
  else d.slotVal p a

/-- A read of slot `a` by port `p`, with its side effects. -/
def Dev.readSlot (d : Dev) (p : Port) (a : Nat) : Dev × Nat :=
  if !slotThere p a then (d.voidAccess, 0)
  else
    let v := d.value p a
    let d1 := d.snapshots p a
    (Dev.irqEdge d1 (d1.clearRc p a) a, v)

/-- Word `k` of a request whose first word lies at `addr`: its slot, or none past the end of the block (R396, R398). -/
def wordSlot (addr k : Nat) : Option Nat :=
  let a := addr / 4 * 4
  if k = 0 ∨ a + 4 * k < blockEnd a then some (a + 4 * k) else none

/-- The partition through which a write of slot `a` accesses the Granary, for the writes that do so in their own step (R37): of
SEGT_WIN3, of PIN_CMD with its load bit, and of CAP_ARM. -/
def Dev.slotReads (d : Dev) (p : Port) (a v : Nat) : Option Partition :=
  let n := (a - 0x10000) / 0x100
  if !slotThere p a then none
  else if winAt a = some (.seg 3) then some .coreShuttle
  else if 0x10000 ≤ a ∧ a < 0x11800 then
    if a % 0x100 = 0x64 then (if d.pinReads p.master n v then some (refillPart n) else none)
    else if a % 0x100 = 0x80 then d.capArmReads p.master n
    else none
  else none

/-- R396 to R398, R617: a write. -/
def Dev.busWrite (d : Dev) (p : Port) (addr k v be : Nat) : Dev :=
  match wordSlot addr k with
  | none => d.overrun p
  | some a =>
    if be ≠ 15 then (if slotThere p a then d.flag Reg.GLB_STATUS.size_reject else (d.flag Reg.GLB_STATUS.size_reject).voidAccess)
    else (d.writeSlot p a v).1

/-- R396 to R398: a read; its answer is left with the port. -/
def Dev.busRead (d : Dev) (p : Port) (addr k : Nat) : Dev :=
  match wordSlot addr k with
  | none => (d.overrun p).answer p 0
  | some a => (d.readSlot p a).1.answer p (d.readSlot p a).2

def execRegisterWrite (p : Port) (addr : BitVec 20) (k : Nat) (v : BitVec 32) (be : BitVec 4) (s : State) : Out :=
  lift s fun d =>
    d.writing p.master (if be = 15 then (wordSlot addr.toNat k).bind fun a => d.slotReads p a v.toNat else none) (.registerWrite p addr k v be)
      (·.busWrite p addr.toNat k v.toNat be.toNat)

def execRcRegisterRead (p : Port) (addr : BitVec 20) (k : Nat) (s : State) : Out :=
  lift s fun d => d.inTurn p.master (.rcRegisterRead p addr k) (·.busRead p addr.toNat k)

def execWideLowSlotRead (p : Port) (addr : BitVec 20) (s : State) : Out :=
  lift s fun d => d.inTurn p.master (.wideLowSlotRead p addr) (·.busRead p addr.toNat 0)

/-! REG (R97 to R99). -/

/-- The conditions on a REG instruction, in the order of R117. -/
def regChecks (x : Ctx) (i : RRX) (same : Bool) : List (Bool × BitVec 24) :=
  [badForm (!i.x), badIndex (same && i.d == i.s), (!x.regGrant, fPermission),
   (bits i.ext.toNat 20 4 != 0 || bits i.ext.toNat 0 2 != 0, fAddress 2)]

/-- The slot that a REG instruction names. -/
def regSlot (i : RRX) : Nat := i.ext.toNat % 2 ^ 20

/-- The port of context `c` (R99). -/
def ctxPort (c : CtxId) : Port := .ctx c

/-- A REG instruction that no condition stops waits behind an earlier access of the core shuttle's master (R626), or, where it
accesses the Granary through the partition named, for a credit (R33); otherwise it is carried out. -/
def Dev.regTurn (d : Dev) (c : Nat) (i : RRX) (same : Bool) (ins : Instr) (q : Option Partition) (f : Dev → Dev) : Dev :=
  if d.issues c i.x (fun x => regChecks x i same) then
    if d.busBlocked .core then (d.onBus .core ins (some c)).modCtx c fun x => { x with wait := .held }
    else match q with
      | some q => if d.mayAccess q then f d else d.holdCtx c ins q (some .core)
      | none => f d
  else f d

def execRdreg (c : CtxId) (i : RRX) (s : State) : Out :=
  lift s fun d => d.regTurn c.val i true (.rdreg c i) none fun d => d.issue c.val i.x fun d x =>
    guarded (regChecks x i true)
      (let r := d.readSlot (ctxPort c) (regSlot i)
       .ok (r.1.modCtx c.val fun x => (x.setW i.d.toNat (BitVec.ofNat 24 r.2)).setW i.s.toNat (BitVec.ofNat 24 (bits r.2 24 8))))

/-- The value that WRREG writes. -/
def wrregVal (x : Ctx) (i : RRX) : Nat := bits (x.rw i.s.toNat).toNat 0 8 * 2 ^ 24 + (x.rw i.d.toNat).toNat

/-- WRREG: where the write resets the device, the context is gone with it. -/
def execWrreg (c : CtxId) (i : RRX) (s : State) : Out :=
  lift s fun d => d.regTurn c.val i false (.wrreg c i) (d.slotReads (ctxPort c) (regSlot i) (wrregVal (d.ctx c.val) i)) fun d => d.issue c.val i.x fun d x =>
    guarded (regChecks x i false)
      (let r := d.writeSlot (ctxPort c) (regSlot i) (wrregVal x i)
       if (r.1.ctx c.val).state = .free then .stays r.1 else .ok (r.1.modCtx c.val (·.setC r.2)))

end Sys2Proof.Machine
end

