-- ==== Sys2Proof/Machine/BoardPort.lean ====
section
/-! DEFINITION. The board port (R446 to R455): frames, reads made during a frame, and writes applied after it. -/
namespace Sys2Proof.Machine
open Sys2Proof

/-! The command word (R448). -/

def bpOp (w : BitVec 24) : Nat := bits w.toNat 22 2
def bpFull (w : BitVec 24) : Bool := bit w.toNat 21
def bpInc (w : BitVec 24) : Bool := bit w.toNat 20
def bpLead (w : BitVec 24) : Nat := bits w.toNat 18 2
/-- The byte address of the first slot. -/
def bpAddr (w : BitVec 24) : Nat := 4 * bits w.toNat 0 18
/-- Words that carry one slot. -/
def bpWords (w : BitVec 24) : Nat := if bpFull w then 2 else 1

/-- The slot of transfer `k` of a frame, or none past the end of its block (R453). -/
def bpSlot (w : BitVec 24) (k : Nat) : Option Nat := wordSlot (bpAddr w) (if bpInc w then k else 0)

/-- The port takes frames: enabled, out of reset, and 2 ms after it (R454, R596). -/
def Dev.bpOpen (d : Dev) : Bool :=
  d.on Reg.BP_CTRL.en && !d.boot.pinLow && !d.boot.held && (d.gran.trained || Config.portUp d.freeCtr)

/-- The status word (R449). -/
def Dev.bpStatus (d : Dev) : BitVec 24 := BitVec.ofNat 24 (d.slotVal .board Reg.BP_STATUS.frames.addr)

/-- BP_SEL_N falls. -/
def execBoardPortFrameStart (sckHigh : Bool) (s : State) : Out :=
  lift s fun d =>
    if d.bpOpen then
      { d with bp := { d.bp with active := true, startHigh := sckHigh, dout := [d.bpStatus], reads := [], under := false } }
    else { d with bp := { d.bp with active := false } }

/-- Word `j` of the frame on BP_DOUT, which is at high impedance outside a frame that the port takes (R434, R449, R454). -/
def Dev.bpWord (d : Dev) (j : Nat) : Option (BitVec 24) := if d.bp.active then some (d.bp.dout.getD j 0) else none

/-- The data words of one slot of a READ with command word `w` go out behind those before; the first come behind the turnaround
words (R448, R449). -/
def Bp.sends (b : Bp) (w : BitVec 24) (words : List (BitVec 24)) : List (BitVec 24) :=
  b.dout.take 1 ++ (if b.reads.isEmpty then List.replicate (1 + bpLead w) 0 else b.dout.drop 1) ++ words

/-- The data words of slot value `v`. -/
def bpData (w : BitVec 24) (v : Nat) : List (BitVec 24) :=
  if bpFull w then [BitVec.ofNat 24 v, BitVec.ofNat 24 (bits v 24 8)] else [BitVec.ofNat 24 v]

/-- The word before, sent again in place of the data words of a slot whose value has not arrived (R450). -/
def Bp.again (b : Bp) (w : BitVec 24) : List (BitVec 24) :=
  List.replicate (bpWords w) (if b.reads.isEmpty then 0 else b.dout.getLast?.getD 0)

/-- The oldest write that remains is applied, in its own arbitration step (R452). -/
def Dev.bpApply (d : Dev) : Dev :=
  match (if d.busBlocked .board then [] else d.bp.writes) with
  | [] => d
  | (a, v) :: rest =>
    { d with bp := { d.bp with writes := rest } }.writing .board (d.slotReads .board a v.toNat) (.registerWrite .board (BitVec.ofNat 20 a) 0 v 15)
      fun d => (d.writeSlot .board a v.toNat).1

def execBoardPortWriteApply (s : State) : Out := lift s (·.bpApply)

/-- Every write of the frames before is applied (R452). -/
def Dev.bpDrain (d : Dev) : Dev := iter (fun _ d => d.bpApply) d.bp.writes.length d

/-- Transfer `k` of the frame with command word `w` did not arrive in time (R450). -/
def Dev.bpUnder (d : Dev) (w : BitVec 24) (k : Nat) : Dev :=
  let d1 := d.flag Reg.BP_STATUS.underrun
  if d.bp.under then d1
  else { d1 with bp := { d1.bp with under := true } }.wr Reg.BP_STATUS.underrun_word (min (2 + bpLead w + bpWords w * k) 255)

/-- The read of the frame's next slot is made: its snapshots are taken now, and its side effects when the frame is accepted (R450,
R451). -/
def Dev.bpRead (d : Dev) (w : BitVec 24) (arrived : Bool) : Dev :=
  let k := d.bp.reads.length
  let a := bpSlot w k
  let v := match a with | some a => (if slotThere .board a then d.value .board a else 0) | none => 0
  let d1 := match a with | some a => (if slotThere .board a then d.snapshots .board a else d) | none => d
  let dout := d.bp.sends w (if arrived then bpData w v else d.bp.again w)
  let since := match a with
    | some a => ((narrowAt (masterCode .board) a).filter fun f => f.acc == .rc).foldl (fun t f => Tab.set 0 t f.key (d.rcLeft f)) []
    | none => []
  let r : BpRead := { addr := a, val := BitVec.ofNat 32 v, sent := arrived, since := since }
  let d2 := { d1 with bp := { d1.bp with reads := d1.bp.reads ++ [r], dout := dout } }
  if arrived then d2.answer .board v else d2.bpUnder w k

/-- A read that waits behind earlier writes of the port cannot be made yet: its value does not arrive (R36, R450, R452). -/
def Dev.bpLate (d : Dev) (w : BitVec 24) : Dev :=
  let k := d.bp.reads.length
  let r : BpRead := { addr := bpSlot w k, val := 0, sent := false }
  { d with bp := { d.bp with reads := d.bp.reads ++ [r], dout := d.bp.sends w (d.bp.again w) } }.bpUnder w k

/-- A read of a READ frame: the writes of the frames before are applied first, and where one of them has to wait, so has the read. -/
def Dev.bpWordRead (d0 : Dev) (w : BitVec 24) (arrived : Bool) : Dev :=
  let d := d0.bpDrain
  if d.bp.writes.isEmpty && !d.busBlocked .board then d.bpRead w arrived
  else if arrived then d
  else d.bpLate w

def execBoardPortWordRead (word0 : BitVec 24) (arrived : Bool) (s : State) : Out :=
  lift s fun d => if !d.bp.active || bpOp word0 != 1 then d else d.bpWordRead word0 arrived

/-- The side effects of a read whose value was sent (R451, R453): its RC fields become what they have been since. -/
def Dev.bpEffects (d : Dev) (r : BpRead) : Dev :=
  if !r.sent then d
  else
    match r.addr with
    | none => d.overrun .board
    | some a =>
      if !slotThere .board a then d.voidAccess
      else
        Dev.irqEdge d (((narrowAt (masterCode .board) a).filter fun f => f.acc == .rc).foldl (fun d f => d.wr f (Tab.get 0 r.since f.key)) d) a

/-- The writes of a WRITE frame (R448): its data words, one or two for each slot, from transfer `k` on. -/
def bpWrites (w : BitVec 24) : Nat → List (BitVec 24) → List (Option Nat × BitVec 32)
  | _, [] => []
  | k, lo :: rest =>
    if bpFull w then
      match rest with
      | [] => []
      | hi :: rest => (bpSlot w k, BitVec.ofNat 32 (lo.toNat + 2 ^ 24 * (hi.toNat % 256))) :: bpWrites w (k + 1) rest
    else (bpSlot w k, BitVec.ofNat 32 lo.toNat) :: bpWrites w (k + 1) rest

/-- The reason for which a frame is rejected (R447). -/
def bpReason (w : BitVec 24) (data rising falling : Nat) (high : Bool) : Option Nat :=
  if rising % 24 ≠ 0 then some 1
  else if high ∨ rising ≠ falling then some 2
  else if bpOp w = 2 ∧ bpFull w ∧ data % 2 = 1 then some 3
  else if bpOp w = 2 ∧ 256 < data then some 4
  else if bpOp w = 3 then some 5
  else none

/-- The reads of a READ frame with `n` words after the command word whose data words have all been sent (R449, R451). The read that
the port makes ahead at the last words of a frame is not among them; nor is a full slot of which only the first word went out, which
is DEDUCED. -/
def Dev.bpSent (d : Dev) (w : BitVec 24) (n : Nat) : List BpRead := d.bp.reads.take ((n - (1 + bpLead w)) / bpWords w)

/-- An accepted frame takes effect. -/
def Dev.bpAccept (d : Dev) (w : BitVec 24) (data : List (BitVec 24)) : Dev :=
  let d := (d.wr Reg.BP_STATUS.frames (d.rd Reg.BP_STATUS.frames + 1)).evc 0x9C 24
  if bpOp w = 1 then (d.bpSent w data.length).foldl (fun d r => d.bpEffects r) d
  else if bpOp w = 2 then
    let ws := bpWrites w 0 data
    let d := if ws.any fun x => x.1.isNone then d.overrun .board else d
    { d with bp := { d.bp with writes := d.bp.writes ++ ws.filterMap fun x => x.1.map fun a => (a, x.2) } }
  else d

/-- A rejected frame. -/
def Dev.bpRejected (d : Dev) (r : Nat) : Dev := ((d.wr Reg.BP_STATUS.reason r).flag Reg.BP_STATUS.frame_reject).evc 0x9D 24

/-- BP_SEL_N rises after the words `din` and the edge counts given (R447); a frame that ends while the
port is closed is discarded (DEDUCED from R454). -/
def Dev.bpEnd (d : Dev) (din : List (BitVec 24)) (rising falling : Nat) (high : Bool) : Dev :=
  let w := din.headD 0
  let d1 :=
    if rising = 0 || !d.bpOpen then d
    else match bpReason w (din.length - 1) rising falling (d.bp.startHigh || high) with
      | some r => d.bpRejected r
      | none => d.bpAccept w din.tail
  { d1 with bp := { d1.bp with active := false, reads := [] } }

/-- R447: the words that BP_DIN carried number a 24th of the rising edges. -/
def execBoardPortFrameEnd (din : List (BitVec 24)) (rising falling : Nat) (sckHigh : Bool) (s : State) : Out :=
  if din.length = rising / 24 then lift s fun d => if d.bp.active then d.bpEnd din rising falling sckHigh else d
  else .fault (.illFormed "BOARD_PORT_FRAME_END")

end Sys2Proof.Machine
end

