-- ==== Sys2Proof/Machine/Flow.lean ====
section
/-! DEFINITION. Flow of control and the hardware loops (R88 to R91). -/
namespace Sys2Proof.Machine
open Sys2Proof

/-- The target of BR and LEND: the next instruction plus the immediate, in words (R88). -/
def brTarget (x : Ctx) (i : RI) : BitVec 24 := x.pc + 1 + imm24 i

def execBr (c : CtxId) (i : RI) (s : State) : Out :=
  lift s fun d => d.issue c false fun d x =>
    if x.cond i.d.toNat then .jump d (brTarget x i) else .ok d

def execJmp (c : CtxId) (i : RRX) (s : State) : Out :=
  lift s fun d => d.issue c i.x fun d x =>
    guarded [badReserved (nz i.d || (i.x && nz i.s))] (.jump d (opB x i))

def execCall (c : CtxId) (i : RRX) (s : State) : Out :=
  lift s fun d => d.issue c i.x fun d x =>
    guarded [badReserved (i.x && nz i.s)]
      (.jump (d.setCtx c (x.setW i.d.toNat (x.pc + BitVec.ofNat 24 (wordsOf i)))) (opB x i))

def execLseti (c : CtxId) (i : RI) (s : State) : Out :=
  lift s fun d => d.issue c false fun d x =>
    guarded [badIndex (above3 i.d), (i.imm.msb, fOperand 0x0106)]
      (.ok (d.setCtx c (x.setL i.d.toNat (i.imm.setWidth 24))))

def execLset (c : CtxId) (i : RRX) (s : State) : Out :=
  lift s fun d => d.issue c i.x fun d x =>
    guarded [badIndex (above3 i.d), badReserved (i.x && nz i.s)]
      (.ok (d.setCtx c (x.setL i.d.toNat (opB x i))))

def execLget (c : CtxId) (i : RRX) (s : State) : Out :=
  lift s fun d => d.issue c i.x fun d x =>
    guarded [badForm i.x, badIndex (above3 i.s)]
      (.ok (d.setCtx c (x.setW i.d.toNat (x.rl i.s.toNat))))

def execLend (c : CtxId) (i : RI) (s : State) : Out :=
  lift s fun d => d.issue c false fun d x =>
    guarded [badIndex (above3 i.d)]
      (if 1 < (x.rl i.d.toNat).toNat then .jump (d.setCtx c (x.setL i.d.toNat (x.rl i.d.toNat - 1))) (brTarget x i)
       else .ok (d.setCtx c (x.setL i.d.toNat 0)))

end Sys2Proof.Machine
end

