-- ==== Sys2Proof/Machine/Mem.lean ====
section
/-! DEFINITION. LD, ST and XADD (R82 to R87). -/
namespace Sys2Proof.Machine
open Sys2Proof

/-- Bytes of a width code (R82). -/
def widthBytes : Nat → Nat
  | 0 => 1 | 1 => 1 | 2 => 2 | 3 => 2 | 4 => 3 | 5 => 4 | _ => 5

/-- The effective address: a_s + displacement (R82). -/
def effAddr (x : Ctx) (i : RRX) : Nat := (x.ra i.s.toNat + (if i.x then ext36 i.ext else 0)).toNat

/-- An access that leaves the Granary: ADDRESS 0x0001 (R86). -/
def badAddress (a n : Nat) : Bool × BitVec 24 := (decide (granSize < a + n), fAddress 1)

/-- The register result of an LD (R82). -/
def loadTo (x : Ctx) (d w v : Nat) : Ctx :=
  match w with
  | 0 => x.setW d (BitVec.ofNat 24 v)
  | 1 => x.setW d (BitVec.ofInt 24 (sext 8 v))
  | 2 => x.setW d (BitVec.ofNat 24 v)
  | 3 => x.setW d (BitVec.ofInt 24 (sext 16 v))
  | 6 => x.setA d (BitVec.ofNat 36 v)
  | _ => x.setW d (BitVec.ofNat 24 v)

/-- Post-increment of a_s by the width (R83). -/
def postInc (x : Ctx) (i : RRX) (post : Bool) (n : Nat) : Ctx :=
  if post then x.setA i.s.toNat (x.ra i.s.toNat + BitVec.ofNat 36 n) else x

/-- The checks of the word of LD and ST. -/
def memChecks (i : RRX) (width : BitVec 3) (rsv : BitVec 6) : List (Bool × BitVec 24) :=
  [badFunction (width == 7), badIndex (above3 i.s || (width == 6 && above3 i.d)), badReserved (rsv != 0)]

/-- The checks of LD and ST, in the order of R117. -/
def accessChecks (i : RRX) (width : BitVec 3) (rsv : BitVec 6) (x : Ctx) : List (Bool × BitVec 24) :=
  memChecks i width rsv ++ [badAddress (effAddr x i) (widthBytes width.toNat)]

/-- A load of context `c` reads the Granary: some byte of it lies outside the XIP window (R440). -/
def Dev.loadsGran (d : Dev) (c : Nat) (i : RRX) (n : Nat) : Bool :=
  let x := d.ctx c
  (List.range n).any fun j => (d.xipOff x.home.toNat (effAddr x i + j)).isNone

/-- LD. A core shuttle load of a window page that the XIP cache lacks asks for its fill, and issues again after it (R442); one that
reads the Granary waits for a credit (R75, R377). -/
def Dev.ld (d : Dev) (c : Nat) (i : RRX) (width : BitVec 3) (post : Bool) (rsv : BitVec 6) : Dev :=
  let n := widthBytes width.toNat
  let miss := d.xipMissing (d.ctx c).home.toNat (effAddr (d.ctx c) i) n
  let outside := d.loadsGran c i n
  if d.issues c i.x (accessChecks i width rsv) && !miss.isEmpty then miss.foldl (fun d p => d.askFill p c false) d
  else
    d.issue c i.x fun d x =>
      guarded (accessChecks i width rsv x)
        (let r := (if outside then d.passing (shuttlePart x.home.toNat) (linesOf (effAddr x i) n) else d).loadBytes x.home.toNat (effAddr x i) n
         match r.2 with
         | none => .faultIn r.1 (fData 1)
         | some bs => .ok (r.1.setCtx c (loadTo (postInc x i post n) i.d.toNat width.toNat (leVal bs))))

def execLd (c : CtxId) (i : RRX) (width : BitVec 3) (post : Bool) (rsv : BitVec 6) (s : State) : Out :=
  lift s fun d =>
    let n := widthBytes width.toNat
    if d.loadsGran c i n && (d.xipMissing (d.ctx c).home.toNat (effAddr (d.ctx c) i) n).isEmpty then
      d.withCredit c i.x (.ld c i width post rsv) (accessChecks i width rsv) (·.ld c i width post rsv)
    else d.ld c i width post rsv

/-- The bytes that ST writes (R82). -/
def storeBytes (x : Ctx) (d w : Nat) : List Byte :=
  match w with
  | 0 => leBytes 1 (x.rw d).toNat
  | 1 => leBytes 1 (x.rw d).toNat
  | 2 => leBytes 2 (x.rw d).toNat
  | 3 => leBytes 2 (x.rw d).toNat
  | 4 => leBytes 3 (x.rw d).toNat
  | 5 => leBytes 4 ((x.rw d).signExtend 32).toNat
  | _ => leBytes 5 (x.ra d).toNat

/-- ST: every half that is merged can be read before any byte is written (R84). -/
def Dev.st (d : Dev) (c : Nat) (i : RRX) (width : BitVec 3) (post : Bool) (rsv : BitVec 6) : Dev :=
  d.issue c i.x fun d x =>
    let n := widthBytes width.toNat
    let d := d.passing (shuttlePart x.home.toNat) (linesOf (effAddr x i) n)
    let bs := (storeBytes x i.d.toNat width.toNat).map some
    let g := GSrc.shuttle x.home.toNat
    guarded (accessChecks i width rsv x)
      (if d.mergeOk (effAddr x i) bs then
        .ok ((d.writeBytes g (effAddr x i) bs).1.setCtx c (postInc x i post n))
       else .faultIn (d.touchAll g (effAddr x i / 32) (fun _ => .good) (halves (effAddr x i) n)).1 (fData 3))

def execSt (c : CtxId) (i : RRX) (width : BitVec 3) (post : Bool) (rsv : BitVec 6) (s : State) : Out :=
  lift s fun d => d.withCredit c i.x (.st c i width post rsv) (accessChecks i width rsv) (·.st c i width post rsv)

/-- The checks of XADD, in the order of R117. -/
def xaddChecks (i : RRX) (width : BitVec 3) (rsv : BitVec 6) (x : Ctx) : List (Bool × BitVec 24) :=
  [badFunction (width != 4 && width != 5), badIndex (above3 i.s), badReserved (rsv != 0), badAddress (effAddr x i) (widthBytes width.toNat)]

/-- XADD: one indivisible read, add and write at the controller (R85). A 4-byte sum adds w_d sign-extended. -/
def Dev.xadd (d : Dev) (c : Nat) (i : RRX) (width : BitVec 3) (post : Bool) (rsv : BitVec 6) : Dev :=
  d.issue c i.x fun d x =>
    let n := widthBytes width.toNat
    let a := effAddr x i
    let g := GSrc.shuttle x.home.toNat
    guarded (xaddChecks i width rsv x)
      (let r := (d.passing (shuttlePart x.home.toNat) (linesOf a n)).readBytes g a n
       match r.2 with
       | none => .faultIn r.1 (fData 2)
       | some bs =>
         let old := leVal bs
         let sum := toCode (8 * n) (Int.ofNat old + (x.rw i.d.toNat).toInt)
         let d := r.1.putBytes a (leBytes n sum)
         let v : W24 := BitVec.ofNat 24 old
         .ok (d.setCtx c (((postInc x i post n).setW i.d.toNat v).setZN v)))

def execXadd (c : CtxId) (i : RRX) (width : BitVec 3) (post : Bool) (rsv : BitVec 6) (s : State) : Out :=
  lift s fun d => d.withCredit c i.x (.xadd c i width post rsv) (xaddChecks i width rsv) (·.xadd c i width post rsv)

end Sys2Proof.Machine
end

