-- ==== Sys2Proof/Machine/MillOps.lean ====
section
/-! DEFINITION. The operations of the Mill (R331 to R334, R340 to R345). A command of this file is the operation that
the Mill fetched at its PC: `w` holds bits [18:0]. -/
namespace Sys2Proof.Machine
open Sys2Proof

/-- What an operation gives: `d` holds the Mill with the operation's own effects, before the PC moves. -/
inductive MRes where
  | ok (d : Dev) (steps : Nat)
  | jump (d : Dev) (target : Nat)
  | wait (d : Dev) (k : MWaitK) (steps : Nat)
  /-- the kernel ends at the operation (R340, R344). -/
  | ends (d : Dev) (cause steps : Nat)

/-- Bits of an operation word. -/
def wf (w : BitVec 19) (lo n : Nat) : Nat := bits w.toNat lo n

/-- Counts steps (R355), and leaves the Mill at its next operation, waiting, or ended. -/
def Dev.millRan (d : Dev) (n steps : Nat) (f : Mill → Mill) : Dev :=
  (d.modMill n fun x => f { x with steps := (x.steps + steps) % 2 ^ 48 }).evcBy 0x1F n steps

/-- A jump to `t` ends every active loop whose body it leaves (R342). -/
def Mill.jumpTo (x : Mill) (t : Nat) : Mill :=
  let leave (l : Option MLoop) : Option MLoop :=
    l.filter fun b => !(decide (b.first ≤ x.pc) && decide (x.pc ≤ b.last) && !(decide (b.first ≤ t) && decide (t ≤ b.last)))
  { x with loop0 := leave x.loop0, loop1 := leave x.loop1, pc := t }

/-- The Mill of loom `n` runs the operation at its PC. A Mill that does not run is left as it stands; `bad`: cause 2 (R340). -/
def Dev.millRun (d : Dev) (n : Nat) (bad : Bool) (run : Dev → Mill → MRes) : Dev :=
  let x := d.mill n
  if x.state ≠ mRunning ∨ x.ended ∨ x.ask.isSome then d
  else if Tab.get false x.pmErr x.pc then d.setMill n (x.stop 5)
  else if bad then d.setMill n (x.stop 2)
  else match run d x with
    | .ok d' k => d'.millRan n k (·.advance)
    | .jump d' t => d'.millRan n 1 (·.jumpTo t)
    | .wait d' w k => d'.millRan n k fun x => { x with state := mWaiting, wait := w }.poll
    | .ends d' c k => d'.millRan n k (·.stop c)

/-! Address generators (R333, R334). -/

def Mill.ag (x : Mill) (g : Nat) : Ag := Tab.get {} x.ags g
def Mill.setAg (x : Mill) (g : Nat) (v : Ag) : Mill := { x with ags := Tab.set {} x.ags g v }

/-- `i` modulo the length of a generator. -/
def Ag.wrap (v : Ag) (i : Int) : Nat := (i % Int.ofNat (max v.length 1)).toNat

/-- The address of an access through generator `g`, `k` words on. -/
def Mill.agAddr (x : Mill) (g k : Nat) : Nat :=
  let v := x.ag g
  (v.base + (if k = 0 then v.index else v.wrap (Int.ofNat (v.index + k)))) % 32768

/-- The update of generator `g` after an access. -/
def Mill.update (x : Mill) (g upd : Nat) : Mill :=
  let v := x.ag g
  if upd = 1 then x.setAg g { v with index := v.wrap (Int.ofNat v.index + v.step) }
  else if upd = 2 then x.setAg g { v with index := v.wrap (Int.ofNat v.index + v.mod) }
  else x

/-- Reads a data word: a corrected error sets ecc_corr; `none` where it is uncorrectable. -/
def Dev.millRead (d : Dev) (n a : Nat) : Dev × Option Int :=
  let x := d.mill n
  let v := (x.word a).toInt
  match Tab.get .good x.dmErr a with
  | .good => (d, some v)
  | .corr => ((d.setMill n { x with dmErr := Tab.set .good x.dmErr a .good }).wr (Reg.LOOM.MILL_STATE.ecc_corr n) 1, some v)
  | .uncorr => (d, none)

/-- Reads a word and goes on with it, or ends the kernel with cause 5 (R333). -/
def Dev.withWord (d : Dev) (n a : Nat) (k : Dev → Int → MRes) : MRes :=
  let r := d.millRead n a
  match r.2 with
  | some v => k r.1 v
  | none => .ends r.1 5 1

/-! Arithmetic (R331, R332). -/

def accMax : Int := 2 ^ 55 - 1
def accMin : Int := -(2 ^ 55)

/-- A result in A, held within its limits. -/
def Mill.setA (x : Mill) (v : Int) : Mill := { x with a := clampI accMin accMax v, accSat := x.accSat || decide (v < accMin) || decide (accMax < v) }

def Mill.vr (x : Mill) (i : Nat) : BitVec 24 := Tab.get 0 x.v i
def Mill.setV (x : Mill) (i : Nat) (v : BitVec 24) : Mill := { x with v := Tab.set 0 x.v i v }
def Mill.flags (x : Mill) (v : BitVec 24) : Mill := { x with z := v == 0, neg := v.getLsbD 23 }

/-- `y` of ARD before its limits (R332). -/
def ardValue (a : Int) (sh : Nat) (rnd : Bool) : Int := if rnd then roundDiv a (2 ^ sh) else a / Int.ofNat (2 ^ sh)

/-- MAC, MSU and MPY: their operand words (R341). -/
def Dev.millProduct (d : Dev) (n : Nat) (w : BitVec 19) (f : Int → Int → Int) : Dev :=
  let ga := wf w 17 2
  let ua := wf w 15 2
  let byV := wf w 14 1 == 1
  let ub := wf w 9 2
  let bad := ua == 3 || wf w 0 9 != 0 || (if byV then ub != 0 else ub == 3 || wf w 13 1 != 0)
  d.millRun n bad fun d x =>
    let gb := wf w 11 2
    d.withWord n (x.agAddr ga 0) fun d p =>
      let fin (d : Dev) (q : Int) : MRes :=
        .ok (d.modMill n fun x =>
          let x := (x.setA (f x.a (p * q))).update ga ua
          if byV then x else x.update gb ub) 1
      if byV then fin d (x.vr (wf w 11 3)).toInt else d.withWord n (x.agAddr gb 0) fin

def execMillMac (n : LoomId) (w : BitVec 19) (s : State) : Out := lift s fun d => d.millProduct n.val w fun a p => a + p
def execMillMsu (n : LoomId) (w : BitVec 19) (s : State) : Out := lift s fun d => d.millProduct n.val w fun a p => a - p
def execMillMpy (n : LoomId) (w : BitVec 19) (s : State) : Out := lift s fun d => d.millProduct n.val w fun _ p => p

/-- An operation that only changes the Mill. -/
def Dev.millPlain (d : Dev) (n : Nat) (bad : Bool) (f : Mill → Mill) : Dev := d.millRun n bad fun d x => .ok (d.setMill n (f x)) 1

def execMillNop (n : LoomId) (w : BitVec 19) (s : State) : Out := lift s fun d => d.millPlain n.val (w != 0) id

def execMillAadd (n : LoomId) (w : BitVec 19) (s : State) : Out :=
  lift s fun d => d.millPlain n.val (wf w 0 11 != 0) fun x => x.setA (x.a + (x.vr (wf w 16 3)).toInt * 2 ^ wf w 11 5)

def execMillAld (n : LoomId) (w : BitVec 19) (s : State) : Out :=
  lift s fun d => d.millPlain n.val (wf w 0 11 != 0) fun x => x.setA ((x.vr (wf w 16 3)).toInt * 2 ^ wf w 11 5)

/-- ARD (R332, R345). -/
def Dev.millArd (d : Dev) (n : Nat) (w : BitVec 19) : Dev :=
  let dst := wf w 11 2
  let upd := wf w 6 2
  let bad := dst == 3 || wf w 0 5 != 0 || (if dst == 1 then upd == 3 || wf w 10 1 != 0 else upd != 0) || (dst == 2 && wf w 8 3 != 0)
  d.millRun n bad fun d x =>
    let y := ardValue x.a (wf w 14 5) (wf w 13 1 == 1)
    let c := clampI (-8388608) 8388607 y
    let v := BitVec.ofInt 24 c
    let x := { x with sat := x.sat || c != y, a := if wf w 5 1 = 1 then 0 else x.a }
    match dst with
    | 0 => .ok (d.setMill n (x.setV (wf w 8 3) v)) 1
    | 1 => .ok (d.setMill n ((x.setWord (x.agAddr (wf w 8 2) 0) v).update (wf w 8 2) upd)) 1
    | _ =>
      let r := (d.setMill n x).capMillWord n c
      .ok (if r.2 then r.1 else (((r.1.modMill n fun x => { x with outDisc := true }).bump (Reg.LOOM.MILL_DISC.count n)).evc 0x22 n)) 1

def execMillArd (n : LoomId) (w : BitVec 19) (s : State) : Out := lift s fun d => d.millArd n.val w

/-- ALDM: A from three words. -/
def execMillAldm (n : LoomId) (w : BitVec 19) (s : State) : Out :=
  lift s fun d =>
    let n := n.val
    let g := wf w 17 2
    let u := wf w 15 2
    d.millRun n (u == 3 || wf w 0 15 != 0) fun d x =>
      d.withWord n (x.agAddr g 0) fun d p => d.withWord n (x.agAddr g 1) fun d q => d.withWord n (x.agAddr g 2) fun d r =>
        let v := toCode 24 p + 2 ^ 24 * toCode 24 q + 2 ^ 48 * toCode 8 r
        .ok (d.modMill n fun x => { x with a := sext 56 v }.update g u) 2

/-- ASAV: A into three words. -/
def execMillAsav (n : LoomId) (w : BitVec 19) (s : State) : Out :=
  lift s fun d =>
    let n := n.val
    let g := wf w 17 2
    let u := wf w 15 2
    d.millRun n (u == 3 || wf w 0 15 != 0) fun d x =>
      let v := toCode 56 x.a
      let x := x.setWord (x.agAddr g 0) (BitVec.ofNat 24 v)
      let x := x.setWord (x.agAddr g 1) (BitVec.ofNat 24 (v / 2 ^ 24))
      let x := x.setWord (x.agAddr g 2) (BitVec.ofInt 24 (x.a / 2 ^ 48))
      .ok (d.setMill n (x.update g u)) 3

/-! Value registers. -/

def execMillVld (n : LoomId) (w : BitVec 19) (s : State) : Out :=
  lift s fun d =>
    let n := n.val
    let g := wf w 14 2
    let u := wf w 12 2
    d.millRun n (u == 3 || wf w 0 12 != 0) fun d x =>
      d.withWord n (x.agAddr g 0) fun d v =>
        .ok (d.modMill n fun x => ((x.setV (wf w 16 3) (BitVec.ofInt 24 v)).flags (BitVec.ofInt 24 v)).update g u) 1

def execMillVst (n : LoomId) (w : BitVec 19) (s : State) : Out :=
  lift s fun d => d.millPlain n.val (wf w 12 2 == 3 || wf w 0 12 != 0) fun x =>
    (x.setWord (x.agAddr (wf w 14 2) 0) (x.vr (wf w 16 3))).update (wf w 14 2) (wf w 12 2)

/-- The sign-extended 16-bit immediate. -/
def imm16 (w : BitVec 19) : BitVec 24 := (w.extractLsb' 0 16).signExtend 24

def execMillVset (n : LoomId) (w : BitVec 19) (s : State) : Out :=
  lift s fun d => d.millPlain n.val false fun x => (x.setV (wf w 16 3) (imm16 w)).flags (imm16 w)

def execMillVseth (n : LoomId) (w : BitVec 19) (s : State) : Out :=
  lift s fun d => d.millPlain n.val (wf w 8 8 != 0) fun x =>
    x.setV (wf w 16 3) (w.extractLsb' 0 8 ++ (x.vr (wf w 16 3)).extractLsb' 0 16)

/-- The result of VALU, and whether v_d takes it. -/
def valu (func : Nat) (a b : BitVec 24) : BitVec 24 :=
  let k := b.toNat % 32
  match func with
  | 0 => a + b
  | 1 => a - b
  | 2 => a &&& b
  | 3 => a ||| b
  | 4 => a ^^^ b
  | 5 => b
  | 6 => if a.slt b then a else b
  | 7 => if a.slt b then b else a
  | 8 => a - b
  | 9 => a <<< k
  | _ => a.sshiftRight k

def execMillValu (n : LoomId) (w : BitVec 19) (s : State) : Out :=
  lift s fun d => d.millPlain n.val (wf w 0 9 != 0 || decide (10 < wf w 9 4)) fun x =>
    let r := valu (wf w 9 4) (x.vr (wf w 16 3)) (x.vr (wf w 13 3))
    (if wf w 9 4 = 8 then x else x.setV (wf w 16 3) r).flags r

def execMillVaddi (n : LoomId) (w : BitVec 19) (s : State) : Out :=
  lift s fun d => d.millPlain n.val false fun x =>
    let r := x.vr (wf w 16 3) + imm16 w
    (x.setV (wf w 16 3) r).flags r

/-! Generators, jumps and loops. -/

/-- A field of a generator set from 15 bits (R341); `i`: what the index is taken from. -/
def Ag.put (v : Ag) (field imm i : Nat) : Ag :=
  match field with
  | 0 => { v with base := imm }
  | 1 => { v with length := imm + 1 }
  | 2 => { v with index := v.wrap (Int.ofNat i) }
  | _ => { v with step := sext 15 imm }

def execMillAgset (n : LoomId) (w : BitVec 19) (s : State) : Out :=
  lift s fun d => d.millPlain n.val false fun x => x.setAg (wf w 17 2) ((x.ag (wf w 17 2)).put (wf w 15 2) (wf w 0 15) (wf w 0 15))

def execMillAgmod (n : LoomId) (w : BitVec 19) (s : State) : Out :=
  lift s fun d => d.millPlain n.val (wf w 15 2 != 0) fun x => x.setAg (wf w 17 2) { x.ag (wf w 17 2) with mod := sext 15 (wf w 0 15) }

def execMillAgmov (n : LoomId) (w : BitVec 19) (s : State) : Out :=
  lift s fun d => d.millPlain n.val (wf w 0 11 != 0 || decide (4 < wf w 14 3)) fun x =>
    let v := (x.vr (wf w 11 3)).toNat
    let g := x.ag (wf w 17 2)
    x.setAg (wf w 17 2) (if wf w 14 3 = 4 then { g with mod := sext 16 (v % 2 ^ 16) } else g.put (wf w 14 3) (v % 2 ^ 15) v)

def execMillAgstep (n : LoomId) (w : BitVec 19) (s : State) : Out :=
  lift s fun d => d.millPlain n.val (wf w 0 15 != 0 || wf w 15 2 == 3 || wf w 15 2 == 0) fun x => x.update (wf w 17 2) (wf w 15 2)

/-- The condition of a JMP. -/
def Mill.cond (x : Mill) : Nat → Bool
  | 0 => true
  | 1 => x.z
  | 2 => !x.z
  | 3 => x.neg
  | 4 => !x.neg
  | 5 => decide (x.a < 0)
  | 6 => decide (0 < x.a)
  | _ => decide (x.a = 0)

def execMillJmp (n : LoomId) (w : BitVec 19) (s : State) : Out :=
  lift s fun d => d.millRun n.val (wf w 11 5 != 0) fun d x => if x.cond (wf w 16 3) then .jump d (wf w 0 11) else .ok d 1

/-- LOOP (R342). -/
def Dev.millLoop (d : Dev) (n : Nat) (w : BitVec 19) : Dev :=
  let lvl := wf w 18 1
  let byV := wf w 17 1 == 1
  d.millRun n (byV && wf w 3 7 != 0) fun d x =>
    let l : MLoop := { count := max 1 (if byV then (x.vr (wf w 0 3)).toNat else wf w 0 10), first := x.pc + 1, last := x.pc + wf w 10 7 + 1 }
    let mine := if lvl = 0 then x.loop0 else x.loop1
    let other := if lvl = 0 then x.loop1 else x.loop0
    if mine.isSome || other.any (fun o => decide (o.first ≤ x.pc) && decide (x.pc ≤ o.last) && decide (o.last < l.last)) then .ends d 2 0
    else .ok (d.setMill n (if lvl = 0 then { x with loop0 := some l } else { x with loop1 := some l })) 1

def execMillLoop (n : LoomId) (w : BitVec 19) (s : State) : Out := lift s fun d => d.millLoop n.val w

/-! Inputs, the Granary port, the trigger and the end (R343 to R345). -/

def execMillWaitin (n : LoomId) (w : BitVec 19) (s : State) : Out :=
  lift s fun d =>
    let x := d.mill n.val
    let k := max 1 (wf w 0 12)
    let all := wf w 18 1 == 1
    let q := wf w 12 6
    let nl := lanesOf x.mask
    d.millRun n.val (nl == 0 || decide (2 ^ x.lg < k + x.hist) || (!all && decide (nl ≤ q))) fun d _ => .wait d (.waitin all q k) 1

def execMillGadr (n : LoomId) (w : BitVec 19) (s : State) : Out :=
  lift s fun d => d.millPlain n.val (wf w 0 13 != 0) fun x =>
    { x with gaddr := (x.vr (wf w 16 3)).toNat % 512 * 2 ^ 24 + (x.vr (wf w 13 3)).toNat }

/-- The words that GWR reads, in order, up to one that is uncorrectable. -/
def Dev.millWords (d : Dev) (n g u : Nat) : Nat → Dev × List (BitVec 24)
  | 0 => (d, [])
  | k + 1 =>
    let r := d.millRead n ((d.mill n).agAddr g 0)
    match r.2 with
    | none => (r.1, [])
    | some v =>
      let q := Dev.millWords (r.1.modMill n (·.update g u)) n g u k
      (q.1, BitVec.ofInt 24 v :: q.2)

/-- A GWR waits at its operation until the loom's shared credits hold its lines (R39, R344; log entry 95): it posts them
together. -/
def Dev.gwrWaits (d : Dev) (n k : Nat) (bad : Bool) : Bool :=
  let x := d.mill n
  x.state == mRunning && !x.ended && !bad && !Tab.get false x.pmErr x.pc && decide (x.gaddr + 3 * k ≤ granSize)
    && !(d.mayAccess (millPart n) && decide (linesOf x.gaddr (3 * k) ≤ d.freeCredits (millPart n)))

/-- GWR: the words are posted at gaddr (R344). -/
def Dev.millGwr (d : Dev) (n : Nat) (w : BitVec 19) : Dev :=
  let g := wf w 17 2
  let u := wf w 15 2
  let k := wf w 7 8 + 1
  let bad := u == 3 || wf w 0 7 != 0
  d.millRun n bad fun d x =>
    if granSize < x.gaddr + 3 * k then .ends d 3 0
    else
      let r := d.millWords n g u k
      let m := r.2.length
      let d := (r.1.writeBytes (.loom n) x.gaddr ((r.2.flatMap fun v => leBytes 3 v.toNat).map some)).1
      let d := (d.modMill n fun y => { y with posted := y.posted + linesOf x.gaddr (3 * m) }).notePeaks (millPart n) 0
      if m < k then .ends d 5 ((m + 2) / 2) else .ok (d.modMill n fun y => { y with gaddr := (x.gaddr + 3 * k) % 2 ^ 33 }) ((k + 1) / 2)

/-- A GWR that waits is served with its own word; another that comes meanwhile does nothing. -/
def Dev.gwrTurn (d : Dev) (n : LoomId) (w : BitVec 19) : Dev :=
  let x := d.mill n.val
  if x.ask.isSome ∧ (x.ask ≠ some w ∨ !d.serves (millPart n.val)) then d
  else
    let d := d.setMill n.val { x with ask := none }
    if d.gwrWaits n.val (wf w 7 8 + 1) (wf w 15 2 == 3 || wf w 0 7 != 0) then
      (d.asksOne (millPart n.val) (.millGwr n w)).modMill n.val fun x => { x with ask := some w }
    else d.millGwr n.val w

def execMillGwr (n : LoomId) (w : BitVec 19) (s : State) : Out := lift s fun d => d.gwrTurn n w

/-- The Mill waits for the words of a GRD. -/
def Mill.reads (x : Mill) : Bool := x.live && (match x.wait with | .grd _ _ _ => true | _ => false)

/-- The read of a GRD is asked for, where it finds no credit (R39). -/
def Dev.grdAsks (d : Dev) (n : LoomId) (e : Ecc) : Dev :=
  if (d.mill n.val).reads && !d.mayAccess (millPart n.val) then d.asksOne (millPart n.val) (.millGrdComplete n e) else d

/-- GRD: the read is under way (R344). -/
def execMillGrd (n : LoomId) (w : BitVec 19) (s : State) : Out :=
  lift s fun d =>
    (d.millRun n.val (wf w 15 2 == 3 || wf w 0 7 != 0) fun d x =>
      let k := wf w 7 8 + 1
      if granSize < x.gaddr + 3 * k then .ends d 3 0 else .wait d (.grd (wf w 17 2) (wf w 15 2) k) k).grdAsks n .good

/-- The words of a GRD have arrived; `e` is what the correction finds in its first half. -/
def Dev.grdArrives (d : Dev) (n : Nat) (e : Ecc) : Dev :=
    let x := d.mill n
    match x.wait with
    | .grd g u k =>
      if !x.live then d
      else
        let r := (d.passing (millPart n) (linesOf x.gaddr (3 * k))).touchAll (.loom n) (x.gaddr / 32) (fun h => if h = x.gaddr / 32 then e else .good) (halves x.gaddr (3 * k))
        if !r.2 then r.1.modMill n (·.stop 5)
        else
          let ws := words3 k (r.1.bytesAt x.gaddr (3 * k))
          r.1.modMill n fun y =>
            let y := ws.foldl (fun (y : Mill) v => (y.setWord (y.agAddr g 0) v).update g u) y
            { y with gaddr := (x.gaddr + 3 * k) % 2 ^ 33 }.advance
    | _ => d

def execMillGrdComplete (n : LoomId) (e : Ecc) (s : State) : Out :=
  lift s fun d => if d.mayAccess (millPart n.val) then d.grdArrives n.val e else d.grdAsks n e

def execMillGsync (n : LoomId) (w : BitVec 19) (s : State) : Out := lift s fun d => d.millRun n.val (w != 0) fun d _ => .wait d .gsync 1

def execMillTrig (n : LoomId) (w : BitVec 19) (s : State) : Out :=
  lift s fun d => d.millRun n.val (w != 0) fun d _ => .ok (d.capEvent n.val .mill 0) 1

/-- HALT ends the kernel with cause 0; the PC stays at it (DEDUCED). -/
def execMillHalt (n : LoomId) (w : BitVec 19) (s : State) : Out :=
  lift s fun d => d.millRun n.val (wf w 8 11 != 0) fun d x => .ends (d.setMill n { x with code := wf w 0 8 }) 0 1

/-- An operation with an undefined opcode (R340); a word that names a defined one is judged by its own command. -/
def execMillUndefinedOperation (n : LoomId) (w : BitVec 24) (s : State) : Out :=
  lift s fun d =>
    let op := w.toNat / 2 ^ 19
    if op = 0 ∨ 0x1D ≤ op then d.millRun n.val true fun d _ => .ok d 0 else d

end Sys2Proof.Machine
end

