-- ==== Sys2Proof/Machine/PatIns.lean ====
section
/-! DEFINITION. The PAT instructions and the starts that wait (R105 to R108, R260, R261, R625). -/
namespace Sys2Proof.Machine
open Sys2Proof

/-- The loom of a PAT: w_d[4:0] (R105). -/
def patLoom (x : Ctx) (i : RRX) : Nat := loomOf x ((x.rw i.d.toNat).toNat % 32)

/-- The conditions of R108 and R546 for loom `n` and segment `b`, after those on the operands; `seg`: a descriptor is judged. -/
def Dev.patState (d : Dev) (n : Nat) : List (Bool × BitVec 24) :=
  [(d.quar n, fQuarantine n), (d.unit (kPattern n) != .on, fUnitDisabled 1 n)]

/-- The operand conditions of a PAT (R108). -/
def Dev.patOperand (d : Dev) (x : Ctx) (n : Nat) : List (Bool × BitVec 24) :=
  [(decide (23 < n), fOperand 0x0108), (!d.loomInSite n x.site.toNat, fOperand 0x0103)]

/-- Who reads a descriptor for an instruction of context `x`. -/
def Ctx.src (x : Ctx) : GSrc := GSrc.shuttle x.home.toNat

/-- Runs `k` where the descriptor of segment `s` is valid (R108). -/
def Dev.withDesc (d : Dev) (x : Ctx) (s : Nat) (k : Dev → Desc → IRes) : IRes :=
  let r := (d.passing (shuttlePart x.home.toNat) 1).descNow x.src s .good
  match r.2 with
  | none => .faultIn r.1 (fData 1)
  | some e => if e.valid then k r.1 e else .fault (fPattern 0x0303)

/-- A burst at segment `s` is accepted: it runs from now on (R219, R252, R264, R625). -/
def Dev.startBurst (d : Dev) (n c s : Nat) (blocking loop : Bool) : Dev :=
  let p := d.pat n
  let strict := d.on (Reg.LOOM.BOB_CTRL.starve n)
  let b : Burst := { serial := p.serial + 1, ctx := c, site := (d.ctx c).site.toNat, blocking := blocking, mloop := loop, strict := strict }
  let b := if p.window.any (·.seg == s) then { b with ents := [p.entryFor s {}] } else { b with await := some s }
  let d := d.setPat n { p with serial := p.serial + 1, burst := some b, lastClose := [] }
  ((d.wr (Reg.LOOM.VIDX.index n) 0).evc 0x04 n).fetchOn n

/-- A start that reaches the loom's arbiter in the Reed tick of a STOP falls in the STOP's step or in a later one: which of
the two is free (R618; log entry 106). -/
def Dev.metByStop (d : Dev) (n : Nat) : Bool := decide ((d.pat n).stopAt = some d.reed.time) && Config.sameStep d.freeCtr

/-- A burst start, or a match-loop, meets the state of its loom: a STOP of the same step wins over it, and it is not made, a
blocking one completing with V = 1; it waits behind the running burst, the starts that wait already, or an exchange;
otherwise it is made (R106, R479). -/
def Dev.patStart (d : Dev) (c : Nat) (i : RRX) (n s : Nat) (blocking loop : Bool) : IRes :=
  if d.metByStop n then
    if blocking || loop then
      .stays ((d.tookFree.waitOn c (.burst n) i.x 5 n 0 false).release c (.burst false false true (if loop then some false else none)))
    else .ok d.tookFree
  else if d.patRunning n || !(d.pat n).startQ.isEmpty || (d.box n).moving.isSome then
    .stays ((d.waitOn c (.startBurst n s blocking loop) i.x 5 n 0 false).modPat n fun p => { p with startQ := p.startQ ++ [c] })
  else if blocking || loop then
    .stays ((d.startBurst n c s blocking loop).waitOn c (.burst n) i.x 5 n 0 false)
  else .ok (d.startBurst n c s blocking loop)

/-- The conditions of R108 on a start or a jump that come before its descriptor is read. R117 orders classes of faults: of two
conditions of one class the first of the rule's own table is reported (DESIGN CHOICE, log entry 121). -/
def Dev.startChecks (d : Dev) (i : RRX) (bad : Bool) (x : Ctx) : List (Bool × BitVec 24) :=
  [badReserved bad] ++ d.patOperand x (patLoom x i) ++ [(decide (32767 < (opB x i).toNat), fOperand 0x0104)] ++ d.patState (patLoom x i)

/-- The conditions of R108 on a jump of context `c`. -/
def Dev.jumpChecks (d : Dev) (c : Nat) (i : RRX) (bad : Bool) (x : Ctx) : List (Bool × BitVec 24) :=
  d.startChecks i bad x ++ [(!d.patRunning (patLoom x i), fPattern 0x0301), ((d.pat (patLoom x i)).burst.any (·.ctx != c), fPattern 0x0302)]

/-- BURST and MLOOP. One that would wait is held while a swap waits on its shuttle (R526). -/
def Dev.patBegin (d : Dev) (c : Nat) (i : RRX) (blocking loop bad : Bool) : Dev :=
  let n0 := patLoom (d.ctx c) i
  if d.heldBySwap c (blocking || loop || d.patRunning n0 || !(d.pat n0).startQ.isEmpty || (d.box n0).moving.isSome) (d.startChecks i bad) then d
  else d.issue c i.x fun d x =>
    let n := patLoom x i
    let s := (opB x i).toNat
    guarded (d.startChecks i bad x)
      (d.withDesc x s fun d _ => d.patStart c i n s blocking loop)

/-- What is reserved in every PAT word: function bits [9:5], and s in X form. -/
def patRsv (i : RRX) (rsv : BitVec 5) : Bool := rsv != 0 || (i.x && nz i.s)

def execBurst (c : CtxId) (i : RRX) (blk : Bool) (rsv : BitVec 5) (s : State) : Out :=
  lift s fun d => d.withCredit c i.x (.burst c i blk rsv) (d.startChecks i (patRsv i rsv)) (·.patBegin c i blk false (patRsv i rsv))

def execMloop (c : CtxId) (i : RRX) (blk : Bool) (rsv : BitVec 5) (s : State) : Out :=
  lift s fun d => d.withCredit c i.x (.mloop c i blk rsv) (d.startChecks i (blk || patRsv i rsv)) (·.patBegin c i false true (blk || patRsv i rsv))

/-- The run of loom `n` changes: lines asked for that it no longer wants are discarded when they arrive (R257). -/
def Dev.cutRun (d : Dev) (n : Nat) (f : Burst → Burst) : Dev := d.modPat n fun p => Pat.settleReqs { p with burst := p.burst.map f }

/-- An SJMP is latched: it replaces one that has not taken effect, and meets the pass that plays, or, while the selvedge
waits for a jump target, the target's first pass (R260, R261). -/
def Dev.sjmpLatch (d : Dev) (n t : Nat) : Dev :=
  match (d.pat n).burst with
  | none => d
  | some b =>
    if b.stopReq.isSome || b.ended.isSome then d
    else
      let d := if d.on (Reg.LOOM.SJMP_STATE.pending n) then d.wr (Reg.LOOM.BOB_STATUS.sjmp_replaced n) 1 else d
      let d := (d.wr (Reg.LOOM.SJMP_STATE.target n) t).wr (Reg.LOOM.SJMP_STATE.pending n) 1
      if b.gap then
        (d.cutRun n fun b =>
          match b.ents with
          | e :: x :: _ =>
            let x' := { x with desc := { x.desc with loops := 1, next := t, last := false }, lines := x.lines.take (x.desc.passLines - x.base) }
            { b with ents := [e, x'], await := none, closed := false, descLost := false }
          | _ => b).fetchOn n
      else (d.cutRun n fun b => b.jumpTo t).fetchOn n

/-- The target's descriptor is judged when the SJMP is issued, as that of a BURST is (DESIGN CHOICE: R108 gives SJMP the
condition and does not say when it is read; log entry 107). -/
def execSjmp (c : CtxId) (i : RRX) (blk : Bool) (rsv : BitVec 5) (s : State) : Out :=
  lift s fun d => d.withCredit c i.x (.sjmp c i blk rsv) (d.jumpChecks c.val i (blk || patRsv i rsv)) fun d => d.issue c i.x fun d x =>
    let n := patLoom x i
    let t := (opB x i).toNat
    guarded (d.jumpChecks c.val i (blk || patRsv i rsv) x)
      (d.withDesc x t fun d _ => .ok (d.sjmpLatch n t))

/-- A STOP: the burst ends at the next vector boundary, or at once where it has no period yet (R105, R625). -/
def Dev.stopBurst (d : Dev) (n : Nat) : Dev :=
  let d := d.modPat n fun p => { p with stopAt := some d.reed.time }
  match (d.pat n).burst with
  | none => d
  | some b =>
    if b.ended.isSome then d
    else if b.started then d.modBurst n fun b => { b with stopReq := some (b.stopReq.getD 1) }
    else d.endPlay n 1

def execStop (c : CtxId) (i : RRX) (blk : Bool) (rsv : BitVec 5) (s : State) : Out :=
  lift s fun d => d.issue c i.x fun d x =>
    let n := patLoom x i
    guarded ([badReserved (blk || rsv != 0 || nz i.s || (i.x && i.ext != 0))] ++ d.patOperand x n ++ d.patState n) (.ok (d.stopBurst n))

/-- The oldest start that waits is made, or ends its wait with the fault that R108 gives it now (R106, R546). A pause of its context
that runs when the unit falls free does not put it off: the waiting instruction has issued before the pause (DESIGN CHOICE, log
entry 121). -/
def Dev.queuedStart (d : Dev) (n : Nat) : Dev :=
  let p := d.pat n
  match p.startQ with
  | [] => d
  | c :: rest =>
    if d.patRunning n || (d.box n).moving.isSome then d
    else
      let x := d.ctx c
      match x.wait with
      | .startBurst _ s blocking loop =>
        let d := d.setPat n { p with startQ := rest }
        match firstFault (d.patOperand x n ++ d.patState n) with
        | some w => d.release c (.fault w)
        | none =>
          let r := (d.passing (shuttlePart x.home.toNat) 1).descNow x.src s .good
          match r.2 with
          | none => r.1.release c (.fault (fData 1))
          | some e =>
            if !e.valid then r.1.release c (.fault (fPattern 0x0303))
            else
              let d := r.1.startBurst n c s blocking loop
              if blocking || loop then d.modCtx c fun y => { y with wait := .burst n } else d.release c .done
      | _ => d.setPat n { p with startQ := rest }

/-- The start that waits at loom `n` may be made, and its descriptor read for its context's shuttle. -/
def Dev.startDue (d : Dev) (n : Nat) : Option Partition :=
  match (d.pat n).startQ with
  | c :: _ =>
    let x := d.ctx c
    match x.wait with
    | .startBurst _ _ _ _ =>
      if d.patRunning n || (d.box n).moving.isSome || (firstFault (d.patOperand x n ++ d.patState n)).isSome then none
      else some (shuttlePart x.home.toNat)
    | _ => none
  | [] => none

def execQueuedBurstStart (n : Fin 24) (s : State) : Out :=
  lift s fun d => d.accessing (d.startDue n.val) (.queuedBurstStart n) (·.queuedStart n.val)

end Sys2Proof.Machine
end

