-- ==== Sys2Proof/Machine/Reissue.lean ====
section
/-! DEFINITION. What waits is served: requests for a Granary credit in the order in which they were made (R33, R39, R377, R378),
and accesses to the register bus behind those before them (R626), when a credit returns, the controller opens, or a command of
CTX_CMD ends. -/
namespace Sys2Proof.Machine
open Sys2Proof

/-- A command that waited is carried out. Only commands that a credit or the register bus can hold come here. -/
def reissue (i : Instr) (s : State) : Out :=
  match i with
  | .registerWrite p a k v be => execRegisterWrite p a k v be s
  | .rcRegisterRead p a k => execRcRegisterRead p a k s
  | .wideLowSlotRead p a => execWideLowSlotRead p a s
  | .rdreg c i => execRdreg c i s
  | .wrreg c i => execWrreg c i s
  | .claim m l => execClaim m l s
  | .start m l => execStart m l s
  | .resume m l => execResume m l s
  | .park m => execPark m s
  | .kill m => execKill m s
  | .contextWindowWrite p k v => execContextWindowWrite p k v s
  | .siteWindowWrite p k v => execSiteWindowWrite p k v s
  | .siteMapWrite p c v => execSiteMapWrite p c v s
  | .segtWinStageWrite m k v => execSegtWinStageWrite m k v s
  | .segtWin3Write m v => execSegtWin3Write m v s
  | .pinLoad m n v => execPinLoad m n v s
  | .pinFlush m n => execPinFlush m n s
  | .capArmWrite m n v => execCapArmWrite m n v s
  | .ld c i w post r => execLd c i w post r s
  | .st c i w post r => execSt c i w post r s
  | .xadd c i w post r => execXadd c i w post r s
  | .burst c i b r => execBurst c i b r s
  | .mloop c i b r => execMloop c i b r s
  | .sjmp c i b r => execSjmp c i b r s
  | .arm c i => execArm c i s
  | .granaryLineAccess q l op e0 e1 => execGranaryLineAccess q l op e0 e1 s
  | .bar2Read a n => execBar2Read a n s
  | .bar2Write a bs be => execBar2Write a bs be s
  | .scrubGroup r => execScrubGroup r s
  | .scrubRevisit => execScrubRevisit s
  | .icacheLineFill sh c e => execIcacheLineFill sh c e s
  | .queuedBurstStart n => execQueuedBurstStart n s
  | .segmentDescriptorWrite src g v be => execSegmentDescriptorWrite src g v be s
  | .pinLoadComplete n e => execPinLoadComplete n e s
  | .dmaHostCompletion i r => execDmaHostCompletion i r s
  | .dmaDescriptorFetched i ok v => execDmaDescriptorFetched i ok v s
  | .dmaDescriptorComplete i => execDmaDescriptorComplete i s
  | .dmaSkip m i => execDmaSkip m i s
  | .failLogLineWrite n => execFailLogLineWrite n s
  | .failLogFlushTimeout n => execFailLogFlushTimeout n s
  | .wfmSampleLineArrives c e => execWfmSampleLineArrives c e s
  | .captureRecordClose n => execCaptureRecordClose n s
  | .millGwr n w => execMillGwr n w s
  | .millGrdComplete n e => execMillGrdComplete n e s
  | .millImageLoaded n r => execMillImageLoaded n r s
  | .pixelLineArrives o l e => execPixelLineArrives o l e s
  | .flashTransactionComplete bs => execFlashTransactionComplete bs s
  | .flashDqsTimeout bs => execFlashDqsTimeout bs s
  | .ucodeLoadComplete => execUcodeLoadComplete s
  | .attest m b => execAttest m b s
  | .attestComplete => execAttestComplete s
  | .pubkeyComplete => execPubkeyComplete s
  | .calDumpComplete => execCalDumpComplete s
  | .calLoadComplete => execCalLoadComplete s
  | _ => .next s

/-- The instruction of a context no longer waits. -/
def Ctx.unheld (x : Ctx) : Ctx := if x.wait = .held then { x with wait := .none } else x

/-- The state that a meaning answers; one that stops leaves the state as it was. -/
def Out.orElse (o : Out) (s : State) : State := match o with | .next t => t | _ => s

/-- A request that waited is carried out with a credit of its own; the pause point that follows its instruction takes a pause that
is pending (R493). -/
def State.serve (s : State) (h : Held) : State :=
  let d : Dev := { s.dev with serving := some h }
  let s1 : State := { s with dev := match h.ctx with | some c => d.modCtx c (·.unheld) | none => d }
  let t := match h.ask with
    | .cmd i => Out.orElse (reissue i s1) s1
    | .site i u => { s1 with dev := s1.dev.sitePut h.q i u }
  let d := { t.dev with serving := none }
  { t with dev := match h.ctx with | some c => d.takePause c | none => d }

/-- The oldest request that waits in the partition with key `k` is served, where a credit of it is free. -/
def State.serveOne (s : State) (k : Nat) : State :=
  match Tab.get [] s.dev.waitGran k with
  | h :: rest =>
    if s.dev.granOpen && decide (0 < s.dev.freeCredits h.q) then
      { s with dev := { s.dev with waitGran := Tab.set [] s.dev.waitGran k rest } }.serve h
    else s
  | [] => s

/-- The oldest access that waits on the register bus for master `m` is carried out, where nothing bars it. -/
def State.serveBusOne (s : State) (m : Master) : State :=
  match Tab.get [] s.dev.waitBus (masterCode m) with
  | h :: rest =>
    if s.dev.behindCmd m || s.dev.busWaits m then s
    else { s with dev := { s.dev with waitBus := Tab.set [] s.dev.waitBus (masterCode m) rest } }.serve h
  | [] => s

/-- The accesses that wait on the register bus go on: the host's, the core shuttle's, the board port's (R36). -/
def State.serveBus (s : State) : State :=
  ([.host, .core, .board] : List Master).foldl
    (fun s m => iter (fun _ s => s.serveBusOne m) (Tab.get [] s.dev.waitBus (masterCode m)).length s) s

/-- The requests that wait in the partition with key `k` are served in their order, as far as its credits go. -/
def State.serveAll (s : State) (k : Nat) : State := iter (fun _ s => s.serveOne k) (Tab.get [] s.dev.waitGran k).length s

/-- A credit of the partition with key `k` has returned: what waits for it is served; a refill goes on with its lines. -/
def State.freed (s : State) (k : Nat) : State :=
  if (Tab.get [] s.dev.waitGran k).isEmpty then s
  else
    let t := (s.serveAll k).serveBus
    if k < 24 then { t with dev := t.dev.fetchOn k } else t

/-- A transaction of a waveform source was the last thing that its drain waited for (R51). -/
def Dev.waveSettle (d : Dev) (q : Partition) : Dev :=
  match q with
  | .shared n (.wave k) => if (d.chan (32 * n.val + k.val)).ramp = .none then d.wfmRamped (32 * n.val + k.val) else d
  | _ => d

/-- A transaction completes, and its credit returns (R33, R39, R40). -/
def execGranaryTransactionComplete (q : Partition) (s : State) : Out :=
  .next (State.freed { s with dev := (s.dev.returnCredit q).waveSettle q } (partKey q))

/-- The oldest line of the refill arrives, and its credit returns. -/
def execRefillLineArrives (n : LoomId) (e0 e1 : Ecc) (s : State) : Out :=
  .next (State.freed { s with dev := s.dev.refillArrives n.val e0 e1 } n.val)

/-- The oldest descriptor of the refill arrives, and its credit returns. -/
def execDescriptorFetchComplete (n : LoomId) (e : Ecc) (s : State) : Out :=
  .next (State.freed { s with dev := s.dev.descArrives n.val e } n.val)

/-- The keys of the partitions in the order of R378: the scrub and the security block, the core shuttle, the looms, the DMA
engines, BAR2, and Tapestry. -/
def servedOrder : List Nat := [76, 77, 75] ++ (List.range 24).flatMap (fun n => [n, 32 + n]) ++ (List.range 8).map (64 + ·) ++ [72, 73, 74]

/-- The controller opens, and the requests that waited for it reach it in one step (R377, R378). -/
def execGranaryInitComplete (s : State) : Out :=
  .next (let t : State := { s with dev := s.dev.granInit }
         if s.dev.granOpen || !t.dev.granOpen then t else (servedOrder.foldl State.serveAll t).serveBus)

/-- A command of CTX_CMD ends, and what waited behind it goes on (R626). -/
def execCtxCommandEnd (s : State) : Out := .next (State.serveBus { s with dev := s.dev.cmdEnd })

end Sys2Proof.Machine
end

