-- ==== Sys2Proof/Machine/Sys.lean ====
section
/-! DEFINITION. The SYS group (R95). -/
namespace Sys2Proof.Machine
open Sys2Proof

/-- The checks of a form that uses neither d nor s and no extension word. -/
def bareChecks (i : RRX) : List (Bool × BitVec 24) := [badForm i.x, badReserved (nz i.d || nz i.s)]

def execNop (c : CtxId) (i : RRX) (s : State) : Out :=
  lift s fun d => d.issue c i.x fun d _ => guarded (bareChecks i) (.ok d)

/-- HALT: the PC moves past it, and stays where that would leave the program region. -/
def execHalt (c : CtxId) (i : RRX) (s : State) : Out :=
  lift s fun d => d.issue c i.x fun d x =>
    guarded (bareChecks i)
      (.stays ((d.setCtx c { x with pc := if x.pc = 0xFFFFFF then x.pc else x.pc + 1 }).halt c))

/-- YIELD is a pause point: pauses wait at every instruction boundary already. -/
def execYield (c : CtxId) (i : RRX) (s : State) : Out :=
  lift s fun d => d.issue c i.x fun d _ => guarded (bareChecks i) (.ok d)

/-- FENCE: every earlier access of the context has completed in its own step (R50, R87). -/
def execFence (c : CtxId) (i : RRX) (s : State) : Out :=
  lift s fun d => d.issue c i.x fun d _ => guarded (bareChecks i) (.ok d)

/-- PAUSE: a pause pending has been taken at the boundary before it. -/
def execPause (c : CtxId) (i : RRX) (s : State) : Out :=
  lift s fun d => d.issue c i.x fun d _ => guarded (bareChecks i) (.ok d)

def execFclr (c : CtxId) (i : RRX) (s : State) : Out :=
  lift s fun d => d.issue c i.x fun d x => guarded (bareChecks i) (.ok (d.setCtx c (x.setF false)))

def execTclr (c : CtxId) (i : RRX) (s : State) : Out :=
  lift s fun d => d.issue c i.x fun d x => guarded (bareChecks i) (.ok (d.setCtx c (x.setT false)))

def execRdtime (c : CtxId) (i : RRX) (s : State) : Out :=
  lift s fun d => d.issue c i.x fun d x =>
    guarded [badForm i.x, badIndex (i.d == i.s)]
      (.ok (d.setCtx c ((x.setW i.d.toNat (BitVec.ofNat 24 (d.now / 2 ^ 24))).setW i.s.toNat (BitVec.ofNat 24 d.now))))

def execBrk (c : CtxId) (i : RRX) (s : State) : Out :=
  lift s fun d => d.issue c i.x fun _ _ =>
    guarded [badForm (!i.x), badReserved (nz i.d || nz i.s || decide (2 ^ 16 ≤ i.ext.toNat))]
      (.fault (fBreak i.ext.toNat))

def execRdflg (c : CtxId) (i : RRX) (s : State) : Out :=
  lift s fun d => d.issue c i.x fun d x =>
    guarded [badForm i.x, badReserved (nz i.s)] (.ok (d.setCtx c (x.setW i.d.toNat (x.flags.setWidth 24))))

def execWrflg (c : CtxId) (i : RRX) (s : State) : Out :=
  lift s fun d => d.issue c i.x fun d x =>
    guarded [badForm i.x, badReserved (nz i.d)]
      (.ok (d.setCtx c { x with flags := (x.rw i.s.toNat).setWidth 6 }))

/-- A reserved opcode, or a function value that its group does not define: ILLEGAL, with no extension word for a
reserved opcode (R77). -/
def Dev.undefinedInsn (d : Dev) (c : Nat) (w : BitVec 24) : Dev :=
  let op := w.toNat / 2 ^ 19
  let x := decide (op < 0x18) && w.getLsbD 10 && !(op ∈ [0x01, 0x02, 0x03, 0x04, 0x05, 0x0A, 0x0C, 0x0E])
  d.issue c x fun _ _ => .fault (if 0x18 ≤ op then fIllegal 1 else fIllegal 2)

def execUndefinedInstruction (c : CtxId) (w : BitVec 24) (s : State) : Out :=
  lift s fun d => d.undefinedInsn c w

end Sys2Proof.Machine
end

