-- ==== Sys2Proof/Machine/Dispatch.lean ====
section
/-! DEFINITION. One arm for each command: a direct call of its meaning. -/
namespace Sys2Proof.Machine
open Sys2Proof

/-- The effect of a command on everything but the queue. -/
def exec (i : Instr) (s : State) : Host.Outcome State Fault Refusal :=
  match i with
  | .registerWrite p addr k v be => Sys2Proof.Machine.execRegisterWrite p addr k v be s
  | .rcRegisterRead p addr k => Sys2Proof.Machine.execRcRegisterRead p addr k s
  | .wideLowSlotRead p addr => Sys2Proof.Machine.execWideLowSlotRead p addr s
  | .unitEnable p u => Sys2Proof.Machine.execUnitEnable p u s
  | .drainRequest p u => Sys2Proof.Machine.execDrainRequest p u s
  | .drainComplete u => Sys2Proof.Machine.execDrainComplete u s
  | .granaryLineAccess q line op e0 e1 => Sys2Proof.Machine.execGranaryLineAccess q line op e0 e1 s
  | .granaryTransactionComplete q => Sys2Proof.Machine.execGranaryTransactionComplete q s
  | .dramTrainingComplete => Sys2Proof.Machine.execDramTrainingComplete s
  | .granaryInitComplete => Sys2Proof.Machine.execGranaryInitComplete s
  | .scrubGroup found => Sys2Proof.Machine.execScrubGroup found s
  | .scrubRevisit => Sys2Proof.Machine.execScrubRevisit s
  | .icacheLineFill sh c evict => Sys2Proof.Machine.execIcacheLineFill sh c evict s
  | .add c w => Sys2Proof.Machine.execAdd c w s
  | .sub c w => Sys2Proof.Machine.execSub c w s
  | .andI c w => Sys2Proof.Machine.execAnd c w s
  | .orI c w => Sys2Proof.Machine.execOr c w s
  | .xorI c w => Sys2Proof.Machine.execXor c w s
  | .mov c w => Sys2Proof.Machine.execMov c w s
  | .cmp c w => Sys2Proof.Machine.execCmp c w s
  | .tst c w => Sys2Proof.Machine.execTst c w s
  | .shl c w => Sys2Proof.Machine.execShl c w s
  | .shr c w => Sys2Proof.Machine.execShr c w s
  | .sar c w => Sys2Proof.Machine.execSar c w s
  | .mul c w => Sys2Proof.Machine.execMul c w s
  | .mulh c w => Sys2Proof.Machine.execMulh c w s
  | .mulhu c w => Sys2Proof.Machine.execMulhu c w s
  | .notI c w => Sys2Proof.Machine.execNot c w s
  | .neg c w => Sys2Proof.Machine.execNeg c w s
  | .minI c w => Sys2Proof.Machine.execMin c w s
  | .maxI c w => Sys2Proof.Machine.execMax c w s
  | .abs c w => Sys2Proof.Machine.execAbs c w s
  | .addi c w => Sys2Proof.Machine.execAddi c w s
  | .movi c w => Sys2Proof.Machine.execMovi c w s
  | .cmpi c w => Sys2Proof.Machine.execCmpi c w s
  | .andi c w => Sys2Proof.Machine.execAndi c w s
  | .ori c w => Sys2Proof.Machine.execOri c w s
  | .alea c w => Sys2Proof.Machine.execAlea c w s
  | .aadd c w => Sys2Proof.Machine.execAadd c w s
  | .ahi c w => Sys2Proof.Machine.execAhi c w s
  | .asite c w => Sys2Proof.Machine.execAsite c w s
  | .ardl c w => Sys2Proof.Machine.execArdl c w s
  | .ardh c w => Sys2Proof.Machine.execArdh c w s
  | .awl c w => Sys2Proof.Machine.execAwl c w s
  | .awh c w => Sys2Proof.Machine.execAwh c w s
  | .acmp c w => Sys2Proof.Machine.execAcmp c w s
  | .ld c w width post rsv => Sys2Proof.Machine.execLd c w width post rsv s
  | .st c w width post rsv => Sys2Proof.Machine.execSt c w width post rsv s
  | .xadd c w width post rsv => Sys2Proof.Machine.execXadd c w width post rsv s
  | .br c w => Sys2Proof.Machine.execBr c w s
  | .jmp c w => Sys2Proof.Machine.execJmp c w s
  | .call c w => Sys2Proof.Machine.execCall c w s
  | .lseti c w => Sys2Proof.Machine.execLseti c w s
  | .lset c w => Sys2Proof.Machine.execLset c w s
  | .lget c w => Sys2Proof.Machine.execLget c w s
  | .lend c w => Sys2Proof.Machine.execLend c w s
  | .waitd c w tmo rsv => Sys2Proof.Machine.execWaitd c w tmo rsv s
  | .waitu c w tmo rsv => Sys2Proof.Machine.execWaitu c w tmo rsv s
  | .waite c w tmo rsv => Sys2Proof.Machine.execWaite c w tmo rsv s
  | .spawn c w => Sys2Proof.Machine.execSpawn c w s
  | .spawnl c w => Sys2Proof.Machine.execSpawnl c w s
  | .join c w => Sys2Proof.Machine.execJoin c w s
  | .self c w => Sys2Proof.Machine.execSelf c w s
  | .nop c w => Sys2Proof.Machine.execNop c w s
  | .halt c w => Sys2Proof.Machine.execHalt c w s
  | .yield c w => Sys2Proof.Machine.execYield c w s
  | .fence c w => Sys2Proof.Machine.execFence c w s
  | .pause c w => Sys2Proof.Machine.execPause c w s
  | .fclr c w => Sys2Proof.Machine.execFclr c w s
  | .tclr c w => Sys2Proof.Machine.execTclr c w s
  | .rdtime c w => Sys2Proof.Machine.execRdtime c w s
  | .brk c w => Sys2Proof.Machine.execBrk c w s
  | .rdflg c w => Sys2Proof.Machine.execRdflg c w s
  | .wrflg c w => Sys2Proof.Machine.execWrflg c w s
  | .rdreg c w => Sys2Proof.Machine.execRdreg c w s
  | .wrreg c w => Sys2Proof.Machine.execWrreg c w s
  | .chanMode c w sub rsv => Sys2Proof.Machine.execChanMode c w sub rsv s
  | .chanRange c w sub rsv => Sys2Proof.Machine.execChanRange c w sub rsv s
  | .chanForce c w sub rsv => Sys2Proof.Machine.execChanForce c w sub rsv s
  | .chanClamp c w sub rsv => Sys2Proof.Machine.execChanClamp c w sub rsv s
  | .chanLevel c w sub rsv => Sys2Proof.Machine.execChanLevel c w sub rsv s
  | .chanConn c w sub rsv => Sys2Proof.Machine.execChanConn c w sub rsv s
  | .meas c w sub rsv => Sys2Proof.Machine.execMeas c w sub rsv s
  | .burst c w blk rsv => Sys2Proof.Machine.execBurst c w blk rsv s
  | .sjmp c w blk rsv => Sys2Proof.Machine.execSjmp c w blk rsv s
  | .mloop c w blk rsv => Sys2Proof.Machine.execMloop c w blk rsv s
  | .stop c w blk rsv => Sys2Proof.Machine.execStop c w blk rsv s
  | .arm c w => Sys2Proof.Machine.execArm c w s
  | .disarm c w => Sys2Proof.Machine.execDisarm c w s
  | .trig c w => Sys2Proof.Machine.execTrig c w s
  | .mload c w => Sys2Proof.Machine.execMload c w s
  | .mstart c w => Sys2Proof.Machine.execMstart c w s
  | .mwait c w => Sys2Proof.Machine.execMwait c w s
  | .send c w tmo lane rsv => Sys2Proof.Machine.execSend c w tmo lane rsv s
  | .recv c w tmo lane rsv => Sys2Proof.Machine.execRecv c w tmo lane rsv s
  | .undefinedInstruction c w => Sys2Proof.Machine.execUndefinedInstruction c w s
  | .queuedBurstStart n => Sys2Proof.Machine.execQueuedBurstStart n s
  | .contextRelease => Sys2Proof.Machine.execContextRelease s
  | .wakeTimeReached c => Sys2Proof.Machine.execWakeTimeReached c s
  | .deadlineMiss c => Sys2Proof.Machine.execDeadlineMiss c s
  | .pauseIntervalStart => Sys2Proof.Machine.execPauseIntervalStart s
  | .pauseIntervalEnd => Sys2Proof.Machine.execPauseIntervalEnd s
  | .claim m lost => Sys2Proof.Machine.execClaim m lost s
  | .start m lost => Sys2Proof.Machine.execStart m lost s
  | .resume m lost => Sys2Proof.Machine.execResume m lost s
  | .park m => Sys2Proof.Machine.execPark m s
  | .kill m => Sys2Proof.Machine.execKill m s
  | .ctxCommandEnd => Sys2Proof.Machine.execCtxCommandEnd s
  | .parkTakesEffect c => Sys2Proof.Machine.execParkTakesEffect c s
  | .contextWindowWrite p slot v => Sys2Proof.Machine.execContextWindowWrite p slot v s
  | .siteWindowWrite p slot v => Sys2Proof.Machine.execSiteWindowWrite p slot v s
  | .siteMapWrite p c v => Sys2Proof.Machine.execSiteMapWrite p c v s
  | .residenceMove sh slot => Sys2Proof.Machine.execResidenceMove sh slot s
  | .quantumExpiry sh => Sys2Proof.Machine.execQuantumExpiry sh s
  | .chanCtrlWrite m c v => Sys2Proof.Machine.execChanCtrlWrite m c v s
  | .forceCodeWrite m c v => Sys2Proof.Machine.execForceCodeWrite m c v s
  | .clampSlotWrite m c current v => Sys2Proof.Machine.execClampSlotWrite m c current v s
  | .huskFlagClear m c v holds => Sys2Proof.Machine.execHuskFlagClear m c v holds s
  | .conversionInstant c v w => Sys2Proof.Machine.execConversionInstant c v w s
  | .rampComplete c => Sys2Proof.Machine.execRampComplete c s
  | .settleTimeEnd c => Sys2Proof.Machine.execSettleTimeEnd c s
  | .huskOverstress c => Sys2Proof.Machine.execHuskOverstress c s
  | .huskShort c => Sys2Proof.Machine.execHuskShort c s
  | .huskOpen c => Sys2Proof.Machine.execHuskOpen c s
  | .huskReversal c => Sys2Proof.Machine.execHuskReversal c s
  | .boosterLoopSample w v sh => Sys2Proof.Machine.execBoosterLoopSample w v sh s
  | .boosterUpdateApply w => Sys2Proof.Machine.execBoosterUpdateApply w s
  | .boosterRampPhaseEnd w => Sys2Proof.Machine.execBoosterRampPhaseEnd w s
  | .cmpEdge c hi lo => Sys2Proof.Machine.execCmpEdge c hi lo s
  | .monitorTick id v => Sys2Proof.Machine.execMonitorTick id v s
  | .monCtrlWrite m id v => Sys2Proof.Machine.execMonCtrlWrite m id v s
  | .monWinWrite m id v => Sys2Proof.Machine.execMonWinWrite m id v s
  | .selvedgePeriodBoundary n late => Sys2Proof.Machine.execSelvedgePeriodBoundary n late s
  | .burstPrefillComplete n => Sys2Proof.Machine.execBurstPrefillComplete n s
  | .compareStrobe n hi lo mid => Sys2Proof.Machine.execCompareStrobe n hi lo mid s
  | .burstEnd n => Sys2Proof.Machine.execBurstEnd n s
  | .failCountUpdate n => Sys2Proof.Machine.execFailCountUpdate n s
  | .failLogLineWrite n => Sys2Proof.Machine.execFailLogLineWrite n s
  | .failLogFlushTimeout n => Sys2Proof.Machine.execFailLogFlushTimeout n s
  | .serviceWindowEnd n due => Sys2Proof.Machine.execServiceWindowEnd n due s
  | .refillLineArrives n e0 e1 => Sys2Proof.Machine.execRefillLineArrives n e0 e1 s
  | .pllLockLoss n => Sys2Proof.Machine.execPllLockLoss n s
  | .dllLockLoss n => Sys2Proof.Machine.execDllLockLoss n s
  | .lockAcquired n dll ctrl => Sys2Proof.Machine.execLockAcquired n dll ctrl s
  | .tsetCommit m n => Sys2Proof.Machine.execTsetCommit m n s
  | .tsetWindowWrite m slot v => Sys2Proof.Machine.execTsetWindowWrite m slot v s
  | .flogCtrlWrite m n v => Sys2Proof.Machine.execFlogCtrlWrite m n v s
  | .segmentDescriptorWrite src seg bytes be => Sys2Proof.Machine.execSegmentDescriptorWrite src seg bytes be s
  | .segtWinStageWrite m slot v => Sys2Proof.Machine.execSegtWinStageWrite m slot v s
  | .segtWin3Write m v => Sys2Proof.Machine.execSegtWin3Write m v s
  | .segtBaseWrite m v => Sys2Proof.Machine.execSegtBaseWrite m v s
  | .descriptorFetchComplete n e => Sys2Proof.Machine.execDescriptorFetchComplete n e s
  | .pinLoad m n v => Sys2Proof.Machine.execPinLoad m n v s
  | .pinFlush m n => Sys2Proof.Machine.execPinFlush m n s
  | .pinLoadComplete n e => Sys2Proof.Machine.execPinLoadComplete n e s
  | .mloopVerdict n => Sys2Proof.Machine.execMloopVerdict n s
  | .twillWindowWrite m n slot v => Sys2Proof.Machine.execTwillWindowWrite m n slot v s
  | .wfmEnable m c => Sys2Proof.Machine.execWfmEnable m c s
  | .wfmRateCommit m c => Sys2Proof.Machine.execWfmRateCommit m c s
  | .wfmPrefillComplete c => Sys2Proof.Machine.execWfmPrefillComplete c s
  | .wfmOutputInstant c => Sys2Proof.Machine.execWfmOutputInstant c s
  | .wfmSampleLineArrives c e => Sys2Proof.Machine.execWfmSampleLineArrives c e s
  | .capArmWrite m n v => Sys2Proof.Machine.execCapArmWrite m n v s
  | .capCmdTrig m n => Sys2Proof.Machine.execCapCmdTrig m n s
  | .capCmdDisarm m n => Sys2Proof.Machine.execCapCmdDisarm m n s
  | .armingComplete n => Sys2Proof.Machine.execArmingComplete n s
  | .captureSampleInstant n codes => Sys2Proof.Machine.execCaptureSampleInstant n codes s
  | .triggerDecision n ev place => Sys2Proof.Machine.execTriggerDecision n ev place s
  | .captureFrameRelease n full => Sys2Proof.Machine.execCaptureFrameRelease n full s
  | .rearmComplete n => Sys2Proof.Machine.execRearmComplete n s
  | .captureRecordClose n => Sys2Proof.Machine.execCaptureRecordClose n s
  | .tmeCmdArm m d stop => Sys2Proof.Machine.execTmeCmdArm m d stop s
  | .tmeCmdStop m d => Sys2Proof.Machine.execTmeCmdStop m d s
  | .tmeArmComplete d => Sys2Proof.Machine.execTmeArmComplete d s
  | .tmeStartTime d => Sys2Proof.Machine.execTmeStartTime d s
  | .tmeTimestamp d b rising t => Sys2Proof.Machine.execTmeTimestamp d b rising t s
  | .tmeGateClose d => Sys2Proof.Machine.execTmeGateClose d s
  | .tmeSampleTimeout d => Sys2Proof.Machine.execTmeSampleTimeout d s
  | .millCmdStart m n entry stop => Sys2Proof.Machine.execMillCmdStart m n entry stop s
  | .millCmdStop m n => Sys2Proof.Machine.execMillCmdStop m n s
  | .queuedMillStart n => Sys2Proof.Machine.execQueuedMillStart n s
  | .millImageLoaded n e => Sys2Proof.Machine.execMillImageLoaded n e s
  | .millLaneSample n src code => Sys2Proof.Machine.execMillLaneSample n src code s
  | .spareConversion n s33 code => Sys2Proof.Machine.execSpareConversion n s33 code s
  | .millNop n w => Sys2Proof.Machine.execMillNop n w s
  | .millMac n w => Sys2Proof.Machine.execMillMac n w s
  | .millMsu n w => Sys2Proof.Machine.execMillMsu n w s
  | .millMpy n w => Sys2Proof.Machine.execMillMpy n w s
  | .millAadd n w => Sys2Proof.Machine.execMillAadd n w s
  | .millAld n w => Sys2Proof.Machine.execMillAld n w s
  | .millArd n w => Sys2Proof.Machine.execMillArd n w s
  | .millAldm n w => Sys2Proof.Machine.execMillAldm n w s
  | .millAsav n w => Sys2Proof.Machine.execMillAsav n w s
  | .millVld n w => Sys2Proof.Machine.execMillVld n w s
  | .millVst n w => Sys2Proof.Machine.execMillVst n w s
  | .millVset n w => Sys2Proof.Machine.execMillVset n w s
  | .millVseth n w => Sys2Proof.Machine.execMillVseth n w s
  | .millValu n w => Sys2Proof.Machine.execMillValu n w s
  | .millVaddi n w => Sys2Proof.Machine.execMillVaddi n w s
  | .millAgset n w => Sys2Proof.Machine.execMillAgset n w s
  | .millAgmod n w => Sys2Proof.Machine.execMillAgmod n w s
  | .millAgmov n w => Sys2Proof.Machine.execMillAgmov n w s
  | .millAgstep n w => Sys2Proof.Machine.execMillAgstep n w s
  | .millJmp n w => Sys2Proof.Machine.execMillJmp n w s
  | .millLoop n w => Sys2Proof.Machine.execMillLoop n w s
  | .millWaitin n w => Sys2Proof.Machine.execMillWaitin n w s
  | .millGadr n w => Sys2Proof.Machine.execMillGadr n w s
  | .millGwr n w => Sys2Proof.Machine.execMillGwr n w s
  | .millGrd n w => Sys2Proof.Machine.execMillGrd n w s
  | .millGrdComplete n e => Sys2Proof.Machine.execMillGrdComplete n e s
  | .millGsync n w => Sys2Proof.Machine.execMillGsync n w s
  | .millTrig n w => Sys2Proof.Machine.execMillTrig n w s
  | .millHalt n w => Sys2Proof.Machine.execMillHalt n w s
  | .millUndefinedOperation n w => Sys2Proof.Machine.execMillUndefinedOperation n w s
  | .millIdle n => Sys2Proof.Machine.execMillIdle n s
  | .millWindowWrite m w v => Sys2Proof.Machine.execMillWindowWrite m w v s
  | .timCommit m o => Sys2Proof.Machine.execTimCommit m o s
  | .layerCommit m o => Sys2Proof.Machine.execLayerCommit m o s
  | .rasterSlot o => Sys2Proof.Machine.execRasterSlot o s
  | .pixelLineArrives o l e => Sys2Proof.Machine.execPixelLineArrives o l e s
  | .bar2Read addr len => Sys2Proof.Machine.execBar2Read addr len s
  | .bar2Write addr bytes be => Sys2Proof.Machine.execBar2Write addr bytes be s
  | .pcieConfigRequest write reg v => Sys2Proof.Machine.execPcieConfigRequest write reg v s
  | .cfgCommit m => Sys2Proof.Machine.execCfgCommit m s
  | .pcieConventionalReset => Sys2Proof.Machine.execPcieConventionalReset s
  | .hotReset => Sys2Proof.Machine.execHotReset s
  | .linkDown => Sys2Proof.Machine.execLinkDown s
  | .functionLevelReset => Sys2Proof.Machine.execFunctionLevelReset s
  | .busMasterEnableChange bme d3 => Sys2Proof.Machine.execBusMasterEnableChange bme d3 s
  | .msixUnmask v => Sys2Proof.Machine.execMsixUnmask v s
  | .irqSwSet m v => Sys2Proof.Machine.execIrqSwSet m v s
  | .dmaTailWrite m w v => Sys2Proof.Machine.execDmaTailWrite m w v s
  | .dmaDescriptorFetched w ok bytes => Sys2Proof.Machine.execDmaDescriptorFetched w ok bytes s
  | .dmaHostCompletion w r => Sys2Proof.Machine.execDmaHostCompletion w r s
  | .dmaDescriptorComplete w => Sys2Proof.Machine.execDmaDescriptorComplete w s
  | .dmaSkip m w => Sys2Proof.Machine.execDmaSkip m w s
  | .dmaResetRing m w => Sys2Proof.Machine.execDmaResetRing m w s
  | .reedEnable m => Sys2Proof.Machine.execReedEnable m s
  | .reedDisable m => Sys2Proof.Machine.execReedDisable m s
  | .reedResync m => Sys2Proof.Machine.execReedResync m s
  | .echoNow m => Sys2Proof.Machine.execEchoNow m s
  | .delayTrimWrite m v => Sys2Proof.Machine.execDelayTrimWrite m v s
  | .clockCleanerLock => Sys2Proof.Machine.execClockCleanerLock s
  | .reedClockLoss => Sys2Proof.Machine.execReedClockLoss s
  | .eventFrame f lane => Sys2Proof.Machine.execEventFrame f lane s
  | .syncFrame f taps => Sys2Proof.Machine.execSyncFrame f taps s
  | .pollFrame f => Sys2Proof.Machine.execPollFrame f s
  | .delayFrame f => Sys2Proof.Machine.execDelayFrame f s
  | .upEvent f => Sys2Proof.Machine.execUpEvent f s
  | .reply f rtt => Sys2Proof.Machine.execReply f rtt s
  | .reedFrameEmit lane => Sys2Proof.Machine.execReedFrameEmit lane s
  | .syncEmission => Sys2Proof.Machine.execSyncEmission s
  | .echoPollTimer => Sys2Proof.Machine.execEchoPollTimer s
  | .backgroundEchoRound => Sys2Proof.Machine.execBackgroundEchoRound s
  | .uplinkSlot => Sys2Proof.Machine.execUplinkSlot s
  | .reedEventAct t => Sys2Proof.Machine.execReedEventAct t s
  | .delaySlewStep => Sys2Proof.Machine.execDelaySlewStep s
  | .flashDirectCommand m v => Sys2Proof.Machine.execFlashDirectCommand m v s
  | .flashTransactionComplete bytes => Sys2Proof.Machine.execFlashTransactionComplete bytes s
  | .flashDqsTimeout bytes => Sys2Proof.Machine.execFlashDqsTimeout bytes s
  | .xipCacheFillComplete raw dqs => Sys2Proof.Machine.execXipCacheFillComplete raw dqs s
  | .flXipWrite m v => Sys2Proof.Machine.execFlXipWrite m v s
  | .boardPortFrameStart sckHigh => Sys2Proof.Machine.execBoardPortFrameStart sckHigh s
  | .boardPortWordRead word0 arrived => Sys2Proof.Machine.execBoardPortWordRead word0 arrived s
  | .boardPortFrameEnd din rising falling sckHigh => Sys2Proof.Machine.execBoardPortFrameEnd din rising falling sckHigh s
  | .boardPortWriteApply => Sys2Proof.Machine.execBoardPortWriteApply s
  | .calFull m stop => Sys2Proof.Machine.execCalFull m stop s
  | .calStop m => Sys2Proof.Machine.execCalStop m s
  | .calCommit m => Sys2Proof.Machine.execCalCommit m s
  | .calDiscard m => Sys2Proof.Machine.execCalDiscard m s
  | .calDump m => Sys2Proof.Machine.execCalDump m s
  | .calLoad m => Sys2Proof.Machine.execCalLoad m s
  | .calRollEnable m v => Sys2Proof.Machine.execCalRollEnable m v s
  | .calTimeArm m => Sys2Proof.Machine.execCalTimeArm m s
  | .calTimeEdge t => Sys2Proof.Machine.execCalTimeEdge t s
  | .calWindowWrite m off v => Sys2Proof.Machine.execCalWindowWrite m off v s
  | .calPhaseComplete r => Sys2Proof.Machine.execCalPhaseComplete r s
  | .coreCalibrationComplete n ok rec => Sys2Proof.Machine.execCoreCalibrationComplete n ok rec s
  | .rollingCycleStart n => Sys2Proof.Machine.execRollingCycleStart n s
  | .coreExchange n => Sys2Proof.Machine.execCoreExchange n s
  | .exchangeComplete n => Sys2Proof.Machine.execExchangeComplete n s
  | .calHashReady => Sys2Proof.Machine.execCalHashReady s
  | .calDumpComplete => Sys2Proof.Machine.execCalDumpComplete s
  | .calLoadComplete => Sys2Proof.Machine.execCalLoadComplete s
  | .sensorUpdate readings => Sys2Proof.Machine.execSensorUpdate readings s
  | .powerUpdate avg => Sys2Proof.Machine.execPowerUpdate avg s
  | .safeStateRampsEnd => Sys2Proof.Machine.execSafeStateRampsEnd s
  | .safe m => Sys2Proof.Machine.execSafe m s
  | .clearSafe m => Sys2Proof.Machine.execClearSafe m s
  | .thermalAck m => Sys2Proof.Machine.execThermalAck m s
  | .resumeTimer => Sys2Proof.Machine.execResumeTimer s
  | .logHostRecord p v => Sys2Proof.Machine.execLogHostRecord p v s
  | .logRecordWrite => Sys2Proof.Machine.execLogRecordWrite s
  | .lifetimeHourUpdate => Sys2Proof.Machine.execLifetimeHourUpdate s
  | .machineCheck sh c => Sys2Proof.Machine.execMachineCheck sh c s
  | .controlStoreRefillComplete sh sourceBad => Sys2Proof.Machine.execControlStoreRefillComplete sh sourceBad s
  | .sureModeMismatch sh c => Sys2Proof.Machine.execSureModeMismatch sh c s
  | .ucodeLoad m => Sys2Proof.Machine.execUcodeLoad m s
  | .ucodeLoadComplete => Sys2Proof.Machine.execUcodeLoadComplete s
  | .ucodeSwap m => Sys2Proof.Machine.execUcodeSwap m s
  | .swapAbort m => Sys2Proof.Machine.execSwapAbort m s
  | .sureEnter m => Sys2Proof.Machine.execSureEnter m s
  | .sureExit m => Sys2Proof.Machine.execSureExit m s
  | .shuttleSwap sh mismatches => Sys2Proof.Machine.execShuttleSwap sh mismatches s
  | .swapTimeout sh => Sys2Proof.Machine.execSwapTimeout sh s
  | .ownerWrite m slot v => Sys2Proof.Machine.execOwnerWrite m slot v s
  | .seize m v => Sys2Proof.Machine.execSeize m v s
  | .quarantineCommand m n => Sys2Proof.Machine.execQuarantineCommand m n s
  | .dieHubLinkFailure d => Sys2Proof.Machine.execDieHubLinkFailure d s
  | .quarantineBegin n => Sys2Proof.Machine.execQuarantineBegin n s
  | .quarantineRelease m n => Sys2Proof.Machine.execQuarantineRelease m n s
  | .contextStoreError h => Sys2Proof.Machine.execContextStoreError h s
  | .spareOut m n k => Sys2Proof.Machine.execSpareOut m n k s
  | .spareReturn m n k => Sys2Proof.Machine.execSpareReturn m n k s
  | .markFailed m n j => Sys2Proof.Machine.execMarkFailed m n j s
  | .evcSourceWrite m loom w v => Sys2Proof.Machine.execEvcSourceWrite m loom w v s
  | .evcRunWrite m v => Sys2Proof.Machine.execEvcRunWrite m v s
  | .evcSyncStart => Sys2Proof.Machine.execEvcSyncStart s
  | .clearAll m => Sys2Proof.Machine.execClearAll m s
  | .powerGood => Sys2Proof.Machine.execPowerGood s
  | .brownOut torn => Sys2Proof.Machine.execBrownOut torn s
  | .vhiVloBrownOut => Sys2Proof.Machine.execVhiVloBrownOut s
  | .avsVcoreStep target answered => Sys2Proof.Machine.execAvsVcoreStep target answered s
  | .tapReset => Sys2Proof.Machine.execTapReset s
  | .extest balls shifted => Sys2Proof.Machine.execExtest balls shifted s
  | .idcode => Sys2Proof.Machine.execIdcode s
  | .samplePreload balls shifted => Sys2Proof.Machine.execSamplePreload balls shifted s
  | .clamp => Sys2Proof.Machine.execClamp s
  | .highz => Sys2Proof.Machine.execHighz s
  | .bypass => Sys2Proof.Machine.execBypass s
  | .pinReset torn => Sys2Proof.Machine.execPinReset torn s
  | .resetRelease => Sys2Proof.Machine.execResetRelease s
  | .internalResetRelease => Sys2Proof.Machine.execInternalResetRelease s
  | .bootVerifyComplete flash => Sys2Proof.Machine.execBootVerifyComplete flash s
  | .bootWatchdogExpiry => Sys2Proof.Machine.execBootWatchdogExpiry s
  | .lock m => Sys2Proof.Machine.execLock m s
  | .attest m badReads => Sys2Proof.Machine.execAttest m badReads s
  | .pubkey m => Sys2Proof.Machine.execPubkey m s
  | .devReset m v => Sys2Proof.Machine.execDevReset m v s
  | .ready m => Sys2Proof.Machine.execReady m s
  | .attestComplete => Sys2Proof.Machine.execAttestComplete s
  | .pubkeyComplete => Sys2Proof.Machine.execPubkeyComplete s
  | .icacheInvalidateComplete sh => Sys2Proof.Machine.execIcacheInvalidateComplete sh s
  | .reedBadFrame f lane => Sys2Proof.Machine.execReedBadFrame f lane s
  | .pcieLinkUp speed width => Sys2Proof.Machine.execPcieLinkUp speed width s
  | .dieHubLinkRestored d => Sys2Proof.Machine.execDieHubLinkRestored d s
  | .trimStoreError n j => Sys2Proof.Machine.execTrimStoreError n j s
  | .tmeCountSnapshotRead p d => Sys2Proof.Machine.execTmeCountSnapshotRead p d s

end Sys2Proof.Machine
end

