-- ==== Sys2Proof/Safety.lean ====
section
/-! DEFINITION. What counts as a safe state, and the terms in which the statements speak of a step: when a context may
issue, and what a command leaves as it was. -/
namespace Sys2Proof.Machine
open Sys2Proof

/-- Every waiting command is well formed. -/
def State.queueWf (s : State) : Bool := s.pending.all Instr.wf

/-- The Granary lists its bytes in the canonical form. -/
def State.memWf (s : State) : Bool := Memory.wf s.dev.gran.cells

/-- A safe state: no step from it ends in a fault, and its memory is canonical. -/
def State.safe (s : State) : Bool := s.queueWf && s.memWf

/-- An event counter or one of the two overflow fields: what any occurrence may move (R556, R559). -/
def Fld.counts (f : Fld) : Bool :=
  (decide (8 * 0x900 ≤ f.key) && decide (f.key < 8 * 0x980)) || f.key == Reg.EVC_STATUS.ovf.key || f.key == Reg.EVC_STATUS.lovf.key
    || (decide (8 * 0x10000 ≤ f.key) && decide (f.key < 8 * 0x11800) && decide (8 * 0xE0 ≤ f.key % (8 * 0x100)))

/-- Every register field but the event counters and those of `fs` reads as before. -/
def regsKept (d e : Dev) (fs : List Fld) : Prop :=
  ∀ f : Fld, f.counts = false → (∀ g ∈ fs, f.key ≠ g.key) → e.rd f = d.rd f

/-- Every byte of the Granary reads as before. -/
def bytesKept (d e : Dev) : Prop := ∀ a, e.byte a = d.byte a

/-- Every byte of the Granary but the `n` from address `a` reads as before. -/
def bytesKeptBut (d e : Dev) (a n : Nat) : Prop := ∀ k, ¬(a ≤ k ∧ k < a + n) → e.byte k = d.byte k

/-- The queue and every context but `c` stay, and so does every register but the event counters; the rest of the device
stays too, but for the bookkeeping of an instruction that its shuttle retries (R518). -/
def CtxOnly (s t : State) (c : Nat) : Prop :=
  t.pending = s.pending ∧ (∀ k, k ≠ c → t.dev.ctx k = s.dev.ctx k) ∧ regsKept s.dev t.dev [] ∧
  t.dev = { s.dev with ctxs := t.dev.ctxs, regs := t.dev.regs, ucode := t.dev.ucode }

/-- The peaks that an access of partition `q` may raise (R59, R60). -/
def accessPeaks : Partition → List Fld
  | .refill n => [Reg.GLB_POOL_PEAK.peak, Reg.LOOM.CREDIT_PEAK.refill_peak n]
  | .shared n _ => [Reg.GLB_POOL_PEAK.peak, Reg.LOOM.CREDIT_PEAK.shared_peak n]
  | _ => [Reg.GLB_POOL_PEAK.peak]

/-- The partition that the loads and stores of context `c` draw on (R37). -/
def Dev.partOf (d : Dev) (c : Nat) : Partition := shuttlePart (d.ctx c).home.toNat

/-- Context `c` may access the Granary now (R39, R377). -/
def Dev.reachesGran (d : Dev) (c : Nat) : Bool := d.mayAccess (d.partOf c)

/-- `CtxOnly` for an instruction that reads the Granary: the peaks of its credits may rise as well, with what the board port
is still to read of them (R59, R60, R451). -/
def Accessed (s t : State) (c : Nat) : Prop :=
  t.pending = s.pending ∧ (∀ k, k ≠ c → t.dev.ctx k = s.dev.ctx k) ∧ regsKept s.dev t.dev (accessPeaks (s.dev.partOf c)) ∧
  t.dev = { s.dev with ctxs := t.dev.ctxs, regs := t.dev.regs, ucode := t.dev.ucode, bp := { s.dev.bp with reads := t.dev.bp.reads } }

/-- Reed time is `t`, or runs and will come to it (R426). -/
def Dev.comesTo (d : Dev) (t : BitVec 48) : Bool := d.reed.time == t || (d.reed.counting && !reached d.now t.toNat)

/-- Requester `q` may make `k` line accesses at once: no request of its partition waits, and their credits are free (R33, R39). -/
def Dev.mayAccessAll (d : Dev) (q : Partition) (k : Nat) : Bool := d.mayAccess q && decide (k ≤ d.freeCredits q)

/-- Context `c` may issue an instruction of `len` words, and the one after it lies in the program region (R68, R111). -/
def Dev.runs (d : Dev) (c len : Nat) : Bool := d.canIssue c && decide ((d.ctx c).pc.toNat + len < 2 ^ 24)

/-- The context with its PC moved on by `len` words. -/
def Ctx.onward (x : Ctx) (len : Nat) : Ctx := { x with pc := x.pc + BitVec.ofNat 24 len }

/-- The instruction `i` completes from `s`: the record of its context `c` becomes `y`, and nothing else changes. -/
def Completes (s : State) (i : Instr) (c : Nat) (y : Ctx) : Prop := ∃ t, exec i s = .next t ∧ t.dev.ctx c = y ∧ CtxOnly s t c

/-- The device `e` as an instruction of `d` finds it: the issue is counted, and a retry is over (R518, R559). -/
def Issued (d e : Dev) : Prop := e = { d with regs := e.regs, ucode := e.ucode } ∧ regsKept d e []

/-- The instruction `i` of context `c` parks it with fault word `w` (R114, R115): its PC, registers and flags stay, and the
last-fault registers of its shuttle name it. No byte of memory changes where the context's site is not valid. -/
def Faults (s : State) (i : Instr) (c : CtxId) (w : BitVec 24) : Prop :=
  ∃ t, exec i s = .next t ∧ t.pending = s.pending ∧ (t.dev.ctx c).state = .parked ∧ (t.dev.ctx c).fault = w ∧
    (t.dev.ctx c).pc = (s.dev.ctx c).pc ∧ (t.dev.ctx c).w = (s.dev.ctx c).w ∧ (t.dev.ctx c).a = (s.dev.ctx c).a ∧
    (t.dev.ctx c).lc = (s.dev.ctx c).lc ∧ (t.dev.ctx c).flags = (s.dev.ctx c).flags ∧
    (∀ n : LoomId, (s.dev.ctx c).home.toNat = n.val →
      t.dev.rd (Reg.LOOM.SHU_LASTFAULT.fault n) = w.toNat ∧ t.dev.rd (Reg.LOOM.SHU_LASTCTX.context n) = c.val) ∧
    ((s.dev.ctx c).home = 24 → t.dev.rd Reg.GLB_CSHU_LASTFAULT.fault = w.toNat ∧ t.dev.rd Reg.GLB_CSHU_LASTCTX.context = c.val) ∧
    ((s.dev.site (s.dev.ctx c).site.toNat).valid = false → bytesKept s.dev t.dev)

/-- The command `i` answers a next state from `s`, with its queue as it is and a device of which `P` holds. -/
def Leads (s : State) (i : Instr) (P : Dev → Prop) : Prop := ∃ t, exec i s = .next t ∧ t.pending = s.pending ∧ P t.dev

/-- Every context keeps its record. -/
def ctxsKept (d e : Dev) : Prop := ∀ k, e.ctx k = d.ctx k

/-- No register but the event counters and the fields `fs`, no context record and no byte of the Granary changes. -/
def Keeps (d e : Dev) (fs : List Fld) : Prop := regsKept d e fs ∧ ctxsKept d e ∧ bytesKept d e

/-- From `d` to `e`, the bits below 24 that `v` sets are set in GLB_IRQ_SW, and each that rises is signalled on its vector
(R400, R402). -/
def softSignals (d e : Dev) (v : Nat) : Prop :=
  ∀ b < 24, bit (e.rd Reg.GLB_IRQ_SW.cause) b = (bit (d.rd Reg.GLB_IRQ_SW.cause) b || bit v b) ∧
    (let rises := bit v b && !bit (d.rd Reg.GLB_IRQ_SW.cause) b
     Tab.get 0 e.pcie.sent (40 + b) = Tab.get 0 d.pcie.sent (40 + b) + (if rises && d.pcie.mayPost (40 + b) then 1 else 0) ∧
     Tab.get false e.pcie.pba (40 + b) = (Tab.get false d.pcie.pba (40 + b) || (rises && !d.pcie.mayPost (40 + b))))

/-- A CHAN or MEAS of context `c` finds its channel `k` free: of the context's valid site, in a loom outside quarantine,
neither exchanging nor measuring (R103, R104, R155). -/
def Dev.commands (d : Dev) (c : CtxId) (i : RRX) (k : ChanId) : Bool :=
  d.runs c (wordsOf i) && (d.ctx c).rw i.d.toNat == BitVec.ofNat 24 k && d.inSite k (d.ctx c).site.toNat
    && (d.site (d.ctx c).site.toNat).valid && !d.quar (k / 32) && !d.on (Reg.CHAN.STATUS.exchanging k) && (d.chan k).meas.isNone

/-- What a CHAN that its channel accepts does: it completes, its context moves on, every byte, every other context and every
register but those of `fs` stay, and `P` holds of the device before and after, the channel and b. -/
def ChanDoes (con : CtxId → RRX → Instr) (ok : Dev → Nat → W24 → Bool) (fs : Nat → List Fld) (P : Dev → Dev → Nat → W24 → Prop) : Prop :=
  ∀ (s : State) (c : CtxId) (i : RRX) (k : ChanId), s.dev.commands c i k = true → (i.x = true → i.s = 0) →
    ok s.dev k (opB (s.dev.ctx c) i) = true →
    Leads s (con c i) fun e => e.ctx c = (s.dev.ctx c).onward (wordsOf i) ∧ (∀ j, j ≠ c.val → e.ctx j = s.dev.ctx j) ∧
      regsKept s.dev e (fs k) ∧ bytesKept s.dev e ∧ P s.dev e k (opB (s.dev.ctx c) i)

/-- A unit instruction of context `c` may act on loom `n`: the loom carries a channel of its site, and is not quarantined
(R108, R110, R546). -/
def Dev.reaches (d : Dev) (c : CtxId) (n : LoomId) : Bool := d.loomInSite n (d.ctx c).site.toNat && !d.quar n

/-- The descriptor of segment `g` can be read, and is valid (R249, R250). -/
def Dev.segGood (d : Dev) (g : Nat) : Bool :=
  decide (g < 32768) && d.ecc ((d.segBase + 16 * g) / 32) == .good && bit (leVal (d.bytesAt (d.segBase + 16 * g) 16)) 104

/-- The pattern instruction `i` of context `c` may act on the segment that b names, on loom `n`: it is well formed, its site and
loom admit it, the segment's descriptor can be read and is valid, no swap holds its shuttle, and no STOP of the loom falls
in the same step (R105, R106, R108, R526). -/
def Dev.starts (d : Dev) (c : CtxId) (i : RRX) (n : LoomId) : Bool :=
  let x := d.ctx c
  d.runs c (wordsOf i) && (!i.x || i.s == 0) && d.reachesGran c && !d.swapWaits x.home.toNat && loomOf x ((x.rw i.d.toNat).toNat % 32) == n.val
    && d.reaches c n && d.unit (kPattern n) == .on && d.segGood (opB x i).toNat && decide ((d.pat n).stopAt ≠ some d.reed.time)

/-- Context `x` waits in kind 5 for loom `n`. -/
def Ctx.waitsUnit (x : Ctx) (w : Wait) (xf : Bool) (n : Nat) : Ctx :=
  { x with state := .waiting, wait := w, waitX := xf, rel := .none, waitKind := 5, waitSel := BitVec.ofNat 24 n, wakeTime := 0 }

/-- The Mill of loom `n` runs, and the operation at its PC holds no error. -/
def Dev.millRuns (d : Dev) (n : Nat) : Bool := (d.mill n).state == mRunning && !(d.mill n).ended && !Tab.get false (d.mill n).pmErr (d.mill n).pc

/-- What an operation of `k` steps of a running Mill does: `f` takes the Mill and the word, and the PC then moves on by the
loops (R340, R342). No other Mill, register, context or byte changes. -/
def MillDoes (con : LoomId → BitVec 19 → Instr) (ok : Mill → BitVec 19 → Bool) (k : Nat) (f : Mill → BitVec 19 → Mill) : Prop :=
  ∀ (s : State) (n : LoomId) (w : BitVec 19), s.dev.millRuns n = true → ok (s.dev.mill n) w = true →
    Leads s (con n w) fun e => e.mill n = Mill.advance { f (s.dev.mill n) w with steps := ((s.dev.mill n).steps + k) % 2 ^ 48 } ∧
      (∀ m, m ≠ n.val → e.mill m = s.dev.mill m) ∧ Keeps s.dev e [] ∧ e = { s.dev with mills := e.mills, regs := e.regs }

/-- The bits [lo + n − 1 : lo] of an operation word, 24 bits of an operation read from bit 0 (R340). -/
def opBits (w : BitVec 19) (lo n : Nat) : Nat := w.toNat / 2 ^ lo % 2 ^ n

/-- An accumulator result: held within 56 bits, with acc_sat where it was not (R331). -/
def accTo (x : Mill) (v : Int) : Mill :=
  { x with a := max (-(2 ^ 55)) (min (2 ^ 55 - 1) v), accSat := x.accSat || decide (v < -(2 ^ 55)) || decide (2 ^ 55 ≤ v) }

/-- The data word at `a` of a Mill holds no error (R333). -/
def Mill.good (x : Mill) (a : Nat) : Bool := Tab.get .good x.dmErr a == .good

/-- What an ALU instruction does: `f` takes the record, the number of w_d, its value and b. The X form holds 0 in s. -/
def AluDoes (con : CtxId → RRX → Instr) (f : Ctx → Nat → W24 → W24 → Ctx) : Prop :=
  ∀ (s : State) (c : CtxId) (i : RRX), s.dev.runs c (wordsOf i) = true → (i.x = true → i.s = 0) →
    Completes s (con c i) c
      ((f (s.dev.ctx c) i.d.toNat ((s.dev.ctx c).rw i.d.toNat) (opB (s.dev.ctx c) i)).onward (wordsOf i))

/-- What an immediate instruction does: `f` takes the record, the number of the register and its value, and the
sign-extended immediate. -/
def ImmDoes (con : CtxId → RI → Instr) (f : Ctx → Nat → W24 → W24 → Ctx) : Prop :=
  ∀ (s : State) (c : CtxId) (i : RI), s.dev.runs c 1 = true →
    Completes s (con c i) c
      ((f (s.dev.ctx c) i.d.toNat ((s.dev.ctx c).rw i.d.toNat) (i.imm.signExtend 24)).onward 1)

/-- What an instruction with one condition on its word and its context does: `f` takes the device and the record. -/
def WordDoes (con : CtxId → RRX → Instr) (ok : RRX → Bool) (f : Dev → Ctx → RRX → Ctx) : Prop :=
  ∀ (s : State) (c : CtxId) (i : RRX), s.dev.runs c (wordsOf i) = true → ok i = true →
    Completes s (con c i) c ((f s.dev (s.dev.ctx c) i).onward (wordsOf i))

/-- Every 32-byte half that `n` bytes from `a` lie in holds good data (R380). -/
def Dev.clean (d : Dev) (a n : Nat) : Bool := (List.range (halves a n)).all fun k => d.ecc (a / 32 + k) == .good

/-- The `n` bytes from `a` lie outside the segment table (R249). -/
def Dev.offTable (d : Dev) (a n : Nat) : Bool := decide (a + n ≤ d.segBase) || decide (d.segBase + 2 ^ 19 ≤ a)

/-- The signed sum or difference `z` does not fit a 24-bit word (R64). -/
def overflows (z : Int) : Bool := decide (z < -2 ^ 23) || decide (2 ^ 23 ≤ z)

/-- A capture with frames to take that `cause` ends now (R309): its end cause stands where it has one already, and its sequence is
then over. -/
def Cap.endedBy (x : Cap) (d : Dev) (cause : Nat) : Cap :=
  { x with endAt := some d.nowTaps, quit := x.quit || x.closing.isSome, closing := some (x.closing.getD cause) }

/-- Loom `n` plays burst `b`. -/
abbrev Dev.plays (d : Dev) (n : Nat) (b : Burst) : Prop := (d.pat n).burst = some b ∧ b.started = true ∧ b.ended = none

/-- The flags of a channel's clamps and of its loop (R163, R180). -/
def clampFlags (c : Nat) : List Fld := [Reg.CHAN.STATUS.iclamp_act c, Reg.CHAN.STATUS.vclamp_act c, Reg.CHAN.STATUS.cv_active c]

/-- Channel `c` acts on its own: in no gang or pair, in a loom outside quarantine, with no ramp, MEAS or waveform source. -/
def Dev.alone (d : Dev) (c : Nat) : Bool :=
  d.chRole c == 0 && !d.quar (c / 32) && !d.wfmActive c && (d.chan c).ramp == .none && (d.chan c).meas.isNone

end Sys2Proof.Machine
end

