-- ==== Sys2Proof/Certificates/Slice0/Obligations.lean ====
section
/-! DEFINITION. The statements about the IF768: each docstring names the rules of the spec that its statement draws on. -/
open Sys2Proof Sys2Proof.Machine

/-- A step runs the command at the front of the queue, with the rest of the queue; on an empty queue the block idles for one
tick of Reed time, which passes only while the count runs (the model's choice, log entry 1). With it a Mill that is HELD in
a loom that has been released goes OFF, and ACQUIRE is left where the clock cleaner is locked (log entries 113 and 120). -/
def Obligations.StepRunsFront : Prop :=
  (∀ (d : Dev) (c : Instr) (rest : List Instr), step ⟨d, c :: rest⟩ = exec c ⟨d, rest⟩) ∧
  (∀ d : Dev, d.reed.counting = false → (d.rd Reg.REED_STATE.state ≠ 1 ∨ d.on Reg.REED_STATE.clk_lock = false) →
    (∀ n : LoomId, d.unit (kMill n) = .held → d.quar n = true) → step ⟨d, []⟩ = .next ⟨d, []⟩) ∧
  (∀ d : Dev, d.reed.counting = true → (d.rd Reg.REED_STATE.state ≠ 1 ∨ d.on Reg.REED_STATE.clk_lock = false) →
    ∃ e, step ⟨d, []⟩ = .next ⟨e, []⟩ ∧ e.reed = { d.reed with time := d.reed.time + 1 } ∧ Keeps d e [Reg.TH_PAUSED.ticks] ∧
      (∀ n : LoomId, e.unit (kMill n) = if d.unit (kMill n) = .held ∧ d.quar n = false then .off else d.unit (kMill n))) ∧
  (∀ d : Dev, d.rd Reg.REED_STATE.state = 1 → d.on Reg.REED_STATE.clk_lock = true →
    ∃ e, step ⟨d, []⟩ = .next ⟨e, []⟩ ∧ e.rd Reg.REED_STATE.state = (if d.rd Reg.REED_CTRL.role = 2 then 2 else 3) ∧
      Keeps d e [Reg.REED_STATE.state, Reg.TH_PAUSED.ticks])

/-- R127, R139, R377, R597: what reset leaves: every unit OFF, every context FREE with an empty record, no site and no
mapped channel, the Granary empty and not yet open, the stage RESET, Reed time 0, every loom outside quarantine, an empty
queue. Memory is canonical and every waiting command is well formed. -/
def Obligations.ResetLeaves : Prop :=
  (∀ k, State.reset.dev.unit k = .off) ∧ (∀ k, (State.reset.dev.ctx k).state = .free ∧ (State.reset.dev.ctx k).pc = 0) ∧
  (∀ k i, (State.reset.dev.ctx k).rw i = 0 ∧ (State.reset.dev.ctx k).ra i = 0 ∧ (State.reset.dev.ctx k).rl i = 0) ∧
  (∀ i, (State.reset.dev.site i).valid = false) ∧ (∀ c i, State.reset.dev.inSite c i = false) ∧
  (∀ a, State.reset.dev.byte a = 0) ∧ State.reset.dev.granOpen = false ∧ State.reset.dev.rd Reg.SEC_STATUS.stage = 0 ∧
  State.reset.dev.now = 0 ∧ (∀ n, State.reset.dev.quar n = false) ∧ State.reset.pending = [] ∧ State.reset.safe = true

/-- The first words of shuttle instructions, written out from R69 and R72, and operations of a Mill, written out from R340. -/
def Obligations.WordsDecode : Prop :=
  (∀ c, decodeShuttle c 0x018401 0x0003E8 = .add c ⟨3, 0, true, 0x0003E8⟩) ∧
  (∀ c e, decodeShuttle c 0x98A406 e = .meas c ⟨1, 4, true, e⟩ 0 0) ∧
  (∀ c e, decodeShuttle c 0x538006 e = .br c ⟨7, 6⟩) ∧ (∀ c e, decodeShuttle c 0xC00000 e = .undefinedInstruction c 0xC00000) ∧
  (∀ n, decodeMillOp n 0x3DF020 = .millArd n 0x5F020) ∧ (∀ n, decodeMillOp n 0xB4000E = .millWaitin n 0x4000E) ∧
  (∀ n, decodeMillOp n 0x80887F = .millAgset n 0x0887F)

/-- R69 to R72, R77: a shuttle's words and its instructions agree both ways. The words of an instruction decode to it, with
every operand; and a word that decodes to a defined instruction is the first word of its encoding. -/
def Obligations.ShuttleRoundTrip : Prop :=
  (∀ (i : Instr) (c : CtxId) (w e : BitVec 24), encodeShuttle i = some (c, w, e) → (xOf w = false → e = 0) → decodeShuttle c w e = i) ∧
  (∀ (c : CtxId) (w e : BitVec 24) (i : Instr), decodeDefined c w e = some i → ∃ e', encodeShuttle i = some (c, w, e')) ∧
  (∀ (c : CtxId) (w e : BitVec 24), 0x18 ≤ (opOf w).toNat → decodeShuttle c w e = .undefinedInstruction c w)

/-- R340, R341: a Mill's words and its operations agree both ways. -/
def Obligations.MillRoundTrip : Prop :=
  (∀ (i : Instr) (n : LoomId) (w : BitVec 24), encodeMill i = some (n, w) → decodeMillOp n w = i) ∧
  (∀ (n : LoomId) (w : BitVec 24), 0x01 ≤ (opOf w).toNat → (opOf w).toNat ≤ 0x1C → encodeMill (decodeMillOp n w) = some (n, w)) ∧
  (∀ (n : LoomId) (w : BitVec 24), ((opOf w).toNat = 0 ∨ 0x1C < (opOf w).toNat) → decodeMillOp n w = .millUndefinedOperation n w)

/-- From every state whose waiting commands are well formed, a step answers a next state, and the commands that wait after it
are the rest of the queue, well formed again. -/
def Obligations.QueueInvariant : Prop :=
  ∀ s : State, s.queueWf = true → ∃ t, step s = .next t ∧ t.pending = s.pending.tail ∧ t.queueWf = true

/-- R376, R378, R381: the canonical form of the Granary's memory is kept by the commands that write it: stores, exchanges,
line accesses, BAR2 writes, descriptor writes, and the flash's, the DMA's and the fail log's transfers. -/
def Obligations.MemoryStaysCanonical : Prop :=
  ∀ (s t : State), s.memWf = true →
    ((∃ c i w p r, exec (.st c i w p r) s = .next t ∨ exec (.xadd c i w p r) s = .next t) ∨
     (∃ q l o a b, exec (.granaryLineAccess q l o a b) s = .next t) ∨ (∃ q, exec (.granaryTransactionComplete q) s = .next t) ∨
     (∃ a b e, exec (.bar2Write a b e) s = .next t) ∨ (∃ c g b e, exec (.segmentDescriptorWrite c g b e) s = .next t) ∨
     (∃ b, exec (.flashTransactionComplete b) s = .next t) ∨ (∃ i r, exec (.dmaHostCompletion i r) s = .next t) ∨
     (∃ n, exec (.failLogLineWrite n) s = .next t)) → t.memWf = true

/-- R64, R78, R80: addition, subtraction, products, bounds and the absolute value. Z and N come from the result, C is the carry or the borrow of the unsigned
values, and V says that the signed result does not fit 24 bits; F and T stay. MUL sets V where the signed product does not
fit 24 bits; ABS of 0x80_0000 is 0x80_0000 with V set; MUL, MULH, MULHU, MIN, MAX and ABS clear C. -/
def Obligations.Arithmetic : Prop :=
  AluDoes .add (fun x k a b => { x.setW k (a + b) with
    flags := flagWord (a + b == 0) (a + b).msb (decide (2 ^ 24 ≤ a.toNat + b.toNat)) (overflows (a.toInt + b.toInt)) x.fF x.fT }) ∧
  AluDoes .sub (fun x k a b => { x.setW k (a - b) with
    flags := flagWord (a - b == 0) (a - b).msb (decide (a.toNat < b.toNat)) (overflows (a.toInt - b.toInt)) x.fF x.fT }) ∧
  AluDoes .cmp (fun x _ a b => { x with
    flags := flagWord (a == b) (a - b).msb (decide (a.toNat < b.toNat)) (overflows (a.toInt - b.toInt)) x.fF x.fT }) ∧
  AluDoes .neg (fun x k _ b => { x.setW k (-b) with
    flags := flagWord (b == 0) (-b).msb (b != 0) (b == 0x800000) x.fF x.fT }) ∧
  ImmDoes .addi (fun x k a b => { x.setW k (a + b) with
    flags := flagWord (a + b == 0) (a + b).msb (decide (2 ^ 24 ≤ a.toNat + b.toNat)) (overflows (a.toInt + b.toInt)) x.fF x.fT }) ∧
  ImmDoes .cmpi (fun x _ a b => { x with
    flags := flagWord (a == b) (a - b).msb (decide (a.toNat < b.toNat)) (overflows (a.toInt - b.toInt)) x.fF x.fT }) ∧
  AluDoes .mul (fun x k a b => { x.setW k (BitVec.ofInt 24 (a.toInt * b.toInt)) with
    flags := flagWord (a * b == 0) (a * b).msb false (overflows (a.toInt * b.toInt)) x.fF x.fT }) ∧
  AluDoes .mulh (fun x k a b =>
    let r : W24 := ((a.signExtend 48 * b.signExtend 48).extractLsb' 24 24)
    { x.setW k r with flags := flagWord (r == 0) r.msb false false x.fF x.fT }) ∧
  AluDoes .mulhu (fun x k a b =>
    let r : W24 := ((a.setWidth 48 * b.setWidth 48).extractLsb' 24 24)
    { x.setW k r with flags := flagWord (r == 0) r.msb false false x.fF x.fT }) ∧
  AluDoes .minI (fun x k a b =>
    let r := if a.toInt < b.toInt then a else b
    { x.setW k r with flags := flagWord (r == 0) r.msb false false x.fF x.fT }) ∧
  AluDoes .maxI (fun x k a b =>
    let r := if a.toInt < b.toInt then b else a
    { x.setW k r with flags := flagWord (r == 0) r.msb false false x.fF x.fT }) ∧
  AluDoes .abs (fun x k _ b =>
    let r : W24 := BitVec.ofNat 24 b.toInt.natAbs
    { x.setW k r with flags := flagWord (r == 0) r.msb false (b == 0x800000) x.fF x.fT })

/-- R78, R79, R80: the logic instructions, the moves and the shifts. Z and N come from the result, and C and V are cleared;
MOV changes no flag. A shift is by n = b[4:0]: C is the last bit shifted out, which is 0 for a count of 0, and from 25 on 0 for
SHL and SHR and the sign for SAR; V stays. -/
def Obligations.LogicMovesAndShifts : Prop :=
  AluDoes .andI (fun x k a b => { x.setW k (a &&& b) with flags := flagWord (a &&& b == 0) (a &&& b).msb false false x.fF x.fT }) ∧
  AluDoes .orI (fun x k a b => { x.setW k (a ||| b) with flags := flagWord (a ||| b == 0) (a ||| b).msb false false x.fF x.fT }) ∧
  AluDoes .xorI (fun x k a b => { x.setW k (a ^^^ b) with flags := flagWord (a == b) (a ^^^ b).msb false false x.fF x.fT }) ∧
  AluDoes .notI (fun x k _ b => { x.setW k (~~~b) with flags := flagWord (b == 0xFFFFFF) (!b.msb) false false x.fF x.fT }) ∧
  AluDoes .mov (fun x k _ b => x.setW k b) ∧
  AluDoes .tst (fun x _ a b => { x with flags := flagWord (a &&& b == 0) (a &&& b).msb false false x.fF x.fT }) ∧
  ImmDoes .movi (fun x k _ b => { x.setW k b with flags := flagWord (b == 0) b.msb false false x.fF x.fT }) ∧
  ImmDoes .andi (fun x k a b => { x.setW k (a &&& b) with flags := flagWord (a &&& b == 0) (a &&& b).msb false false x.fF x.fT }) ∧
  ImmDoes .ori (fun x k a b => { x.setW k (a ||| b) with flags := flagWord (a ||| b == 0) (a ||| b).msb false false x.fF x.fT }) ∧
  AluDoes .shl (fun x k a b => { x.setW k (a <<< (b.toNat % 32)) with
    flags := flagWord (a <<< (b.toNat % 32) == 0) (a <<< (b.toNat % 32)).msb (a.setWidth 25 <<< (b.toNat % 32)).msb
      x.fV x.fF x.fT }) ∧
  AluDoes .shr (fun x k a b => { x.setW k (a >>> (b.toNat % 32)) with
    flags := flagWord (a >>> (b.toNat % 32) == 0) (a >>> (b.toNat % 32)).msb (b.toNat % 32 != 0 && decide (a.toNat / 2 ^ (b.toNat % 32 - 1) % 2 = 1))
      x.fV x.fF x.fT }) ∧
  AluDoes .sar (fun x k a b => { x.setW k (BitVec.ofInt 24 (a.toInt / 2 ^ (b.toNat % 32))) with
    flags := flagWord (a.toInt / 2 ^ (b.toNat % 32) == 0) a.msb (b.toNat % 32 != 0 && decide (a.toInt / 2 ^ (b.toNat % 32 - 1) % 2 = 1))
      x.fV x.fF x.fT })

/-- R81: the address registers. Registers a_d and a_s are numbered 0 to 3; only ACMP changes flags. -/
def Obligations.AddressRegisters : Prop :=
  WordDoes .alea (fun i => !above3 i.d && !above3 i.s)
    (fun _ x i => x.setA i.d.toNat (x.ra i.s.toNat + (if i.x then i.ext.signExtend 36 else 0))) ∧
  WordDoes .aadd (fun i => !i.x && !above3 i.d)
    (fun _ x i => x.setA i.d.toNat (x.ra i.d.toNat + (x.rw i.s.toNat).signExtend 36)) ∧
  WordDoes .ahi (fun i => i.x && !above3 i.d && i.s == 0)
    (fun _ x i => x.setA i.d.toNat (i.ext.setWidth 36 <<< 12)) ∧
  WordDoes .asite (fun i => !i.x && !above3 i.d && i.s == 0)
    (fun d x i => x.setA i.d.toNat ((d.site x.site.toNat).addr.setWidth 36)) ∧
  WordDoes .ardl (fun i => !i.x && !above3 i.s)
    (fun _ x i => x.setW i.d.toNat ((x.ra i.s.toNat).extractLsb' 0 24)) ∧
  WordDoes .ardh (fun i => !i.x && !above3 i.s)
    (fun _ x i => x.setW i.d.toNat (((x.ra i.s.toNat).extractLsb' 24 12).setWidth 24)) ∧
  WordDoes .awl (fun i => !i.x && !above3 i.d)
    (fun _ x i => x.setA i.d.toNat ((x.ra i.d.toNat).extractLsb' 24 12 ++ x.rw i.s.toNat)) ∧
  WordDoes .awh (fun i => !i.x && !above3 i.d)
    (fun _ x i => x.setA i.d.toNat ((x.rw i.s.toNat).extractLsb' 0 12 ++ (x.ra i.d.toNat).extractLsb' 0 24)) ∧
  WordDoes .acmp (fun i => !i.x && !above3 i.d && !above3 i.s)
    (fun _ x i => { x with flags := flagWord (x.ra i.d.toNat == x.ra i.s.toNat) false (decide ((x.ra i.d.toNat).toNat < (x.ra i.s.toNat).toNat)) false x.fF x.fT })

/-- R83, R86: LD of `n` good bytes of the Granary, outside the XIP window: the register that d names takes the value; with
post-increment a_s grows by the width first, so that a value loaded into it is kept. No flag and no byte changes. -/
def Obligations.Load : Prop :=
  ∀ (s : State) (c : CtxId) (i : RRX) (width : BitVec 3) (post : Bool),
    let x := s.dev.ctx c
    let n := widthBytes width.toNat
    let a := effAddr x i
    let v := leVal (s.dev.bytesAt a n)
    s.dev.runs c (wordsOf i) = true → s.dev.reachesGran c = true → width.toNat < 7 → i.s.toNat < 4 → (width.toNat = 6 → i.d.toNat < 4) →
    a + n ≤ 2 ^ 33 → s.dev.clean a n = true → (∀ j < n, s.dev.xipOff x.home.toNat (a + j) = none) →
    ∃ t, exec (.ld c i width post 0) s = .next t ∧ Accessed s t c ∧ t.dev.ctx c =
      ((let y := if post then x.setA i.s.toNat (x.ra i.s.toNat + BitVec.ofNat 36 n) else x
        if width.toNat = 6 then y.setA i.d.toNat (BitVec.ofNat 36 v)
        else if width.toNat = 1 then y.setW i.d.toNat ((BitVec.ofNat 8 v).signExtend 24)
        else if width.toNat = 3 then y.setW i.d.toNat ((BitVec.ofNat 16 v).signExtend 24)
        else y.setW i.d.toNat (BitVec.ofNat 24 v)).onward (wordsOf i))

/-- The low `n` bytes of what ST writes for a width code (R82). -/
def storeValue (x : Ctx) (d width : Nat) : Nat :=
  if width = 6 then (x.ra d).toNat else if width = 5 then ((x.rw d).signExtend 32).toNat else (x.rw d).toNat

/-- R82 to R86: ST of `n` good bytes, and XADD of 3 or 4. After ST the bytes at the effective address hold the value, low byte
first; after XADD they hold the sum, w_d the old value, and Z and N describe the old value. Where no descriptor of the segment
table is touched (R250), every byte outside them stays. Registers and flags stay otherwise, but a_s where post-increment is
asked. -/
def Obligations.StoreAndExchange : Prop :=
  (∀ (s : State) (c : CtxId) (i : RRX) (width : BitVec 3) (post : Bool),
      let x := s.dev.ctx c
      let n := widthBytes width.toNat
      let a := effAddr x i
      s.dev.runs c (wordsOf i) = true → s.dev.reachesGran c = true → width.toNat < 7 → i.s.toNat < 4 → (width.toNat = 6 → i.d.toNat < 4) →
      a + n ≤ 2 ^ 33 → s.dev.clean a n = true →
      ∃ t, exec (.st c i width post 0) s = .next t ∧ t.pending = s.pending ∧ regsKept s.dev t.dev ([Reg.GLB_SEGT_STATUS.last_seg,
          Reg.GLB_SEGT_STATUS.reason, Reg.GLB_SEGT_STATUS.refused, Reg.GLB_SEGT_REFUSED.count] ++ accessPeaks (s.dev.partOf c)) ∧
        t.dev.ctx c = (if post then x.setA i.s.toNat (x.ra i.s.toNat + BitVec.ofNat 36 n) else x).onward (wordsOf i) ∧
        (∀ k, k ≠ c.val → t.dev.ctx k = s.dev.ctx k) ∧
        (s.dev.offTable a n = true →
          (∀ j < n, t.dev.byte (a + j) = BitVec.ofNat 8 (storeValue x i.d.toNat width.toNat / 256 ^ j)) ∧ bytesKeptBut s.dev t.dev a n ∧
          Accessed s { t with dev := { t.dev with gran := s.dev.gran } } c)) ∧
  (∀ (s : State) (c : CtxId) (i : RRX) (width : BitVec 3) (post : Bool),
      let x := s.dev.ctx c
      let n := widthBytes width.toNat
      let a := effAddr x i
      let old := leVal (s.dev.bytesAt a n)
      let sum := (Int.ofNat old + (x.rw i.d.toNat).toInt).emod (256 ^ n)
      s.dev.runs c (wordsOf i) = true → s.dev.reachesGran c = true → (width.toNat = 4 ∨ width.toNat = 5) → i.s.toNat < 4 →
      a + n ≤ 2 ^ 33 → s.dev.clean a n = true → s.dev.offTable a n = true →
      ∃ t, exec (.xadd c i width post 0) s = .next t ∧ Accessed s { t with dev := { t.dev with gran := s.dev.gran } } c ∧
        (let y := (if post then x.setA i.s.toNat (x.ra i.s.toNat + BitVec.ofNat 36 n) else x).setW i.d.toNat (BitVec.ofNat 24 old)
         t.dev.ctx c = Ctx.onward { y with flags := flagWord (BitVec.ofNat 24 old == 0) (BitVec.ofNat 24 old).msb x.fC x.fV x.fF x.fT }
           (wordsOf i)) ∧
        (∀ j < n, t.dev.byte (a + j) = BitVec.ofNat 8 (sum.toNat / 256 ^ j)) ∧ bytesKeptBut s.dev t.dev a n)

/-- R88 to R91: branches, jumps and the hardware loops. No flag changes. A branch target is the next instruction plus the
immediate, and LEND goes back while its counter is above 1. -/
def Obligations.FlowOfControl : Prop :=
  (∀ (s : State) (c : CtxId) (i : RI), s.dev.runs c 1 = true → (s.dev.ctx c).cond i.d.toNat = true →
    Completes s (.br c i) c { s.dev.ctx c with pc := (s.dev.ctx c).pc + 1 + i.imm.signExtend 24 }) ∧
  (∀ (s : State) (c : CtxId) (i : RI), s.dev.runs c 1 = true → (s.dev.ctx c).cond i.d.toNat = false →
    Completes s (.br c i) c ((s.dev.ctx c).onward 1)) ∧
  (∀ (s : State) (c : CtxId) (i : RRX), s.dev.runs c (wordsOf i) = true → i.d = 0 → (i.x = true → i.s = 0) →
    Completes s (.jmp c i) c { s.dev.ctx c with pc := opB (s.dev.ctx c) i }) ∧
  (∀ (s : State) (c : CtxId) (i : RRX), s.dev.runs c (wordsOf i) = true → (i.x = true → i.s = 0) →
    Completes s (.call c i) c { (s.dev.ctx c).setW i.d.toNat ((s.dev.ctx c).pc + BitVec.ofNat 24 (wordsOf i)) with
      pc := opB (s.dev.ctx c) i }) ∧
  (∀ (s : State) (c : CtxId) (i : RI), s.dev.runs c 1 = true → i.d.toNat < 4 → i.imm.msb = false →
    Completes s (.lseti c i) c (((s.dev.ctx c).setL i.d.toNat (i.imm.setWidth 24)).onward 1)) ∧
  WordDoes .lset (fun i => !above3 i.d && (!i.x || i.s == 0)) (fun _ x i => x.setL i.d.toNat (opB x i)) ∧
  WordDoes .lget (fun i => !i.x && !above3 i.s) (fun _ x i => x.setW i.d.toNat (x.rl i.s.toNat)) ∧
  (∀ (s : State) (c : CtxId) (i : RI), s.dev.runs c 1 = true → i.d.toNat < 4 → 1 < ((s.dev.ctx c).rl i.d.toNat).toNat →
    Completes s (.lend c i) c { (s.dev.ctx c).setL i.d.toNat ((s.dev.ctx c).rl i.d.toNat - 1) with
      pc := (s.dev.ctx c).pc + 1 + i.imm.signExtend 24 }) ∧
  (∀ (s : State) (c : CtxId) (i : RI), s.dev.runs c 1 = true → i.d.toNat < 4 → ((s.dev.ctx c).rl i.d.toNat).toNat ≤ 1 →
    Completes s (.lend c i) c (((s.dev.ctx c).setL i.d.toNat 0).onward 1))

/-- R92, R94, R136: the waits. The context goes WAITING with its PC at the wait, its record names what it waits for, and its
deadline is met; a wait whose condition holds already completes at once, WAITE with T cleared. -/
def Obligations.Waits : Prop :=
  (∀ (s : State) (c : CtxId) (i : RRX), let x := s.dev.ctx c; s.dev.runs c (wordsOf i) = true → i.d = 0 → (i.x = true → i.s = 0) →
    Completes s (.waitd c i false 0) c
      (if opB x i = 0 then { x with deadline := 0 }.onward (wordsOf i)
       else { x with state := .waiting, wait := .time, waitX := i.x, rel := .none, waitKind := 1, waitSel := 0, deadline := 0,
                     wakeTime := BitVec.ofNat 48 (s.dev.now + (opB x i).toNat) })) ∧
  (∀ (s : State) (c : CtxId) (i : RRX), let x := s.dev.ctx c; s.dev.runs c 1 = true → i.x = false →
    Completes s (.waitu c i false 0) c
      (if x.rw i.d.toNat ++ x.rw i.s.toNat ≤ s.dev.reed.time then { x with deadline := 0 }.onward 1
       else { x with state := .waiting, wait := .time, waitX := false, rel := .none, waitKind := 1, waitSel := 0, deadline := 0,
                     wakeTime := x.rw i.d.toNat ++ x.rw i.s.toNat })) ∧
  (∀ (s : State) (c : CtxId) (i : RRX) (tmo : Bool), let x := s.dev.ctx c
    s.dev.runs c (wordsOf i) = true → (tmo = false → i.d = 0) → (i.x = true → i.s = 0) → selOk (opB x i).toNat = true →
    s.dev.levelHolds (opB x i).toNat = true →
    ∃ t, exec (.waite c i tmo 0) s = .next t ∧ CtxOnly s t c ∧ (t.dev.ctx c).state = .ready ∧ (t.dev.ctx c).fT = false ∧
      (t.dev.ctx c).pc = x.pc + BitVec.ofNat 24 (wordsOf i) ∧ (t.dev.ctx c).w = x.w ∧ (t.dev.ctx c).deadline = 0) ∧
  (∀ (s : State) (c : CtxId) (i : RRX) (tmo : Bool), let x := s.dev.ctx c
    s.dev.runs c (wordsOf i) = true → (tmo = false → i.d = 0) → (i.x = true → i.s = 0) → selOk (opB x i).toNat = true →
    s.dev.levelHolds (opB x i).toNat = false →
    Completes s (.waite c i tmo 0) c
      { x with state := .waiting, wait := .event tmo, waitX := i.x, rel := .none, waitKind := if tmo then 3 else 2,
               waitSel := opB x i, deadline := 0, wakeTime := if tmo then BitVec.ofNat 48 (s.dev.now + (x.rw i.d.toNat).toNat) else 0 })

/-- R95, R127, R134, R135: threads. SPAWN takes the lowest FREE context `k` and starts it at the extension word with w0 from
w_s, the parent's address registers and site, and everything else 0; SPAWNL names its home loom in w_d; with no FREE
context w_d takes 0xFF_FFFF and C is 1. JOIN of a child that is HALTED or PARKED returns its w0 or its fault word, and frees a
HALTED one; else it waits in kind 4. SELF names the context. -/
def Obligations.Threads : Prop :=
  (∀ (s : State) (c : CtxId) (i : RRX) (k : Nat) (l : Bool), let x := s.dev.ctx c
    let home := if l then (x.rw i.d.toNat).setWidth 5 else x.home
    s.dev.runs c 2 = true → i.x = true → (l = true → home.toNat ≤ 24) → k < 10240 → (s.dev.ctx k).state = .free →
    (∀ j < k, (s.dev.ctx j).state ≠ .free) →
    ∃ t, exec (if l then .spawnl c i else .spawn c i) s = .next t ∧ t.pending = s.pending ∧ regsKept s.dev t.dev [] ∧ bytesKept s.dev t.dev ∧
      (∀ j, j ≠ c.val → j ≠ k → t.dev.ctx j = s.dev.ctx j) ∧
      (t.dev.ctx c).rw i.d.toNat = BitVec.ofNat 24 k ∧ (t.dev.ctx c).fC = false ∧ (t.dev.ctx c).pc = x.pc + 2 ∧
      t.dev.ctx k = { w := Tab.set 0 [] 0 (x.rw i.s.toNat), a := x.a, pc := i.ext, home := home, site := x.site, regGrant := x.regGrant,
                      dlPark := x.dlPark, dlInterval := x.dlInterval, parent := BitVec.ofNat 14 c, state := .ready,
                      readySince := s.dev.reed.time,
                      deadline := if x.dlInterval = 0 then 0 else BitVec.ofNat 48 (s.dev.now + x.dlInterval.toNat) }) ∧
  (∀ (s : State) (c : CtxId) (i : RRX) (l : Bool), let x := s.dev.ctx c
    s.dev.runs c 2 = true → i.x = true → (l = true → ((x.rw i.d.toNat).setWidth 5).toNat ≤ 24) → (∀ k < 10240, (s.dev.ctx k).state ≠ .free) →
    Completes s (if l then .spawnl c i else .spawn c i) c
      (Ctx.onward { x.setW i.d.toNat 0xFFFFFF with flags := flagWord x.fZ x.fN true x.fV x.fF x.fT } 2)) ∧
  (∀ (s : State) (c : CtxId) (i : RRX), let x := s.dev.ctx c
    let k := (x.rw i.s.toNat).toNat
    s.dev.runs c 1 = true → i.x = false → k < 10240 → (s.dev.ctx k).parent.toNat = c.val → (s.dev.ctx k).state = .halted →
    ∃ t, exec (.join c i) s = .next t ∧ t.pending = s.pending ∧ (t.dev.ctx c).rw i.d.toNat = (s.dev.ctx k).rw 0 ∧ (t.dev.ctx c).fZ = true ∧
      (t.dev.ctx c).pc = x.pc + 1 ∧ (t.dev.ctx k).state = .free ∧ bytesKept s.dev t.dev) ∧
  (∀ (s : State) (c : CtxId) (i : RRX), let x := s.dev.ctx c
    let k := (x.rw i.s.toNat).toNat
    s.dev.runs c 1 = true → i.x = false → k < 10240 → (s.dev.ctx k).parent.toNat = c.val → (s.dev.ctx k).state = .parked →
    ∃ t, exec (.join c i) s = .next t ∧ CtxOnly s t c ∧ (t.dev.ctx c).rw i.d.toNat = (s.dev.ctx k).fault ∧ (t.dev.ctx c).fZ = false ∧
      (t.dev.ctx c).pc = x.pc + 1) ∧
  (∀ (s : State) (c : CtxId) (i : RRX), let x := s.dev.ctx c
    let k := (x.rw i.s.toNat).toNat
    s.dev.runs c 1 = true → i.x = false → k < 10240 → (s.dev.ctx k).parent.toNat = c.val →
    ((s.dev.ctx k).state = .ready ∨ (s.dev.ctx k).state = .waiting) →
    Completes s (.join c i) c
      { x with state := .waiting, wait := .join k i.d, waitX := false, rel := .none, waitKind := 4, waitSel := x.rw i.s.toNat, deadline := 0,
               wakeTime := 0 }) ∧
  (∀ (s : State) (c : CtxId) (i : RRX), s.dev.runs c 1 = true → i.x = false → i.s = 0 →
    Completes s (.self c i) c (((s.dev.ctx c).setW i.d.toNat (BitVec.ofNat 24 c)).onward 1))

/-- R95, R65: the SYS group. NOP, YIELD, FENCE and PAUSE only move the PC; RDTIME takes one snapshot of Reed time. -/
def Obligations.SystemInstructions : Prop :=
  WordDoes .nop (fun i => !i.x && i.d == 0 && i.s == 0) (fun _ x _ => x) ∧
  WordDoes .yield (fun i => !i.x && i.d == 0 && i.s == 0) (fun _ x _ => x) ∧
  WordDoes .fence (fun i => !i.x && i.d == 0 && i.s == 0) (fun _ x _ => x) ∧
  WordDoes .pause (fun i => !i.x && i.d == 0 && i.s == 0) (fun _ x _ => x) ∧
  WordDoes .fclr (fun i => !i.x && i.d == 0 && i.s == 0) (fun _ x _ => { x with flags := flagWord x.fZ x.fN x.fC x.fV false x.fT }) ∧
  WordDoes .tclr (fun i => !i.x && i.d == 0 && i.s == 0) (fun _ x _ => { x with flags := flagWord x.fZ x.fN x.fC x.fV x.fF false }) ∧
  WordDoes .rdtime (fun i => !i.x && i.d != i.s) (fun d x i =>
    (x.setW i.d.toNat (d.reed.time.extractLsb' 24 24)).setW i.s.toNat (d.reed.time.extractLsb' 0 24)) ∧
  WordDoes .rdflg (fun i => !i.x && i.s == 0) (fun _ x i => x.setW i.d.toNat (x.flags.setWidth 24)) ∧
  WordDoes .wrflg (fun i => !i.x && i.d == 0) (fun _ x i => { x with flags := (x.rw i.s.toNat).extractLsb' 0 6 })

/-- R95, R134: HALT. The context becomes HALTED with its registers kept, or FREE where its parent has gone, every running
child of it is orphaned, and every HALTED child becomes FREE; here where the context is not its own child and its HALTED
children have no children. -/
def Obligations.HaltOrphansChildren : Prop :=
  (∀ (s : State) (c : CtxId) (i : RRX), let x := s.dev.ctx c
    s.dev.runs c 1 = true → i.x = false → i.d = 0 → i.s = 0 → x.parent.toNat ≠ c.val →
    (∀ h, h ≠ c.val → (s.dev.ctx h).parent.toNat = c.val → (s.dev.ctx h).state = .halted →
      ∀ j, (s.dev.ctx j).parent.toNat = h → (s.dev.ctx j).state = .free ∨ (s.dev.ctx j).state = .claimed) →
    ∃ t, exec (.halt c i) s = .next t ∧ t.pending = s.pending ∧
      (t.dev.ctx c).state = (if x.parent = 0x3FFE then .free else .halted) ∧ (t.dev.ctx c).w = x.w ∧ (t.dev.ctx c).a = x.a ∧
      (t.dev.ctx c).flags = x.flags ∧ (t.dev.ctx c).deadline = 0 ∧ bytesKept s.dev t.dev ∧
      (∀ k, k ≠ c.val → (s.dev.ctx k).parent.toNat = c.val → (s.dev.ctx k).state = .ready →
        (t.dev.ctx k).parent = 0x3FFE ∧ (t.dev.ctx k).state = .ready) ∧
      (∀ k, k ≠ c.val → (s.dev.ctx k).parent.toNat = c.val → (s.dev.ctx k).state = .halted → (t.dev.ctx k).state = .free))

/-- R97 to R99: REG, of a context that holds the grant, at an aligned slot inside BAR0. RDREG returns what its port reads of
the slot: bits [23:0] in w_d and [31:24] in w_s. WRREG writes the slot as its port, and C says that ownership refused it. Each does so
where no earlier access of the core shuttle holds it up (R626); else it waits, its context with it. -/
def Obligations.RegisterInstructions : Prop :=
  (∀ (s : State) (c : CtxId) (i : RRX), let x := s.dev.ctx c
    s.dev.runs c 2 = true → s.dev.busBlocked .core = false → i.x = true → i.d ≠ i.s → x.regGrant = true → i.ext.toNat < 2 ^ 20 → i.ext.toNat % 4 = 0 →
    ∃ t e, exec (.rdreg c i) s = .next t ∧ Issued s.dev e ∧ t.pending = s.pending ∧
      (t.dev.ctx c).rw i.d.toNat = BitVec.ofNat 24 (e.readSlot (.ctx c) i.ext.toNat).2 ∧
      (t.dev.ctx c).rw i.s.toNat = BitVec.ofNat 24 ((e.readSlot (.ctx c) i.ext.toNat).2 / 2 ^ 24 % 256) ∧
      (t.dev.ctx c).pc = x.pc + 2 ∧ (t.dev.ctx c).flags = x.flags ∧ (∀ k, k ≠ c.val → t.dev.ctx k = s.dev.ctx k) ∧
      t.dev.regs = (e.readSlot (.ctx c) i.ext.toNat).1.regs) ∧
  (∀ (s : State) (c : CtxId) (i : RRX), let x := s.dev.ctx c
    s.dev.runs c 2 = true → s.dev.busBlocked .core = false → i.x = true → x.regGrant = true → i.ext.toNat < 2 ^ 20 → i.ext.toNat % 4 = 0 →
    (∀ q, s.dev.slotReads (.ctx c) i.ext.toNat (wrregVal x i) = some q → s.dev.mayAccess q = true) →
    ∃ t e, exec (.wrreg c i) s = .next t ∧ Issued s.dev e ∧ t.pending = s.pending ∧
      (let r := e.writeSlot (.ctx c) i.ext.toNat (((x.rw i.s.toNat).toNat % 256) * 2 ^ 24 + (x.rw i.d.toNat).toNat)
       r.1.ctx c = x → (t.dev.ctx c).fC = r.2 ∧ (t.dev.ctx c).pc = x.pc + 2 ∧ (t.dev.ctx c).w = x.w ∧ t.dev.regs = r.1.regs ∧
         ∀ k, k ≠ c.val → t.dev.ctx k = r.1.ctx k)) ∧
  (∀ (s : State) (c : CtxId) (i : RRX), let x := s.dev.ctx c
    s.dev.runs c 2 = true → s.dev.busBlocked .core = true → i.x = true → i.d ≠ i.s → x.regGrant = true → i.ext.toNat < 2 ^ 20 → i.ext.toNat % 4 = 0 →
    ∀ ins ∈ [Instr.rdreg c i, Instr.wrreg c i], ∃ t, exec ins s = .next t ∧ t.pending = s.pending ∧ t.dev.ctx c = { x with wait := .held } ∧
      (∀ k, k ≠ c.val → t.dev.ctx k = s.dev.ctx k) ∧ t.dev.regs = s.dev.regs ∧ bytesKept s.dev t.dev ∧
      (∃ h ∈ Tab.get [] t.dev.waitBus (masterCode .core), h.ask = .cmd ins ∧ h.ctx = some c.val))

/-- R70, R71, R77, R95, R114, R116, R117: words that fault as ILLEGAL, and BRK. A form that is not allowed is detail 5, a
register field out of range 4, a reserved field that is not 0 detail 3, an undefined function 2, a reserved opcode 1. -/
def Obligations.IllegalInstructions : Prop :=
  (∀ con ∈ [Instr.add, .sub, .andI, .orI, .xorI, .mov, .cmp, .tst, .shl, .shr, .sar, .mul, .mulh, .mulhu, .notI, .neg, .minI, .maxI, .abs,
      .call, .mstart, .mwait],
    ∀ (s : State) (c : CtxId) (i : RRX), s.dev.runs c 2 = true → i.x = true → i.s ≠ 0 → Faults s (con c i) c 0x010003) ∧
  (∀ con ∈ [Instr.aadd, .asite, .ardl, .ardh, .awl, .awh, .acmp, .lget, .join, .self, .nop, .halt, .yield, .fence, .pause, .fclr, .tclr,
      .rdtime, .rdflg, .wrflg],
    ∀ (s : State) (c : CtxId) (i : RRX), s.dev.runs c 2 = true → i.x = true → Faults s (con c i) c 0x010005) ∧
  (∀ con ∈ [Instr.ahi, .spawn, .spawnl, .brk, .rdreg, .wrreg],
    ∀ (s : State) (c : CtxId) (i : RRX), s.dev.runs c 1 = true → i.x = false → Faults s (con c i) c 0x010005) ∧
  (∀ con ∈ [Instr.alea, .aadd, .asite, .awl, .awh, .acmp, .lset],
    ∀ (s : State) (c : CtxId) (i : RRX), s.dev.runs c 1 = true → i.x = false → 3 < i.d.toNat → Faults s (con c i) c 0x010004) ∧
  (∀ con ∈ [Instr.ardl, .ardh, .lget],
    ∀ (s : State) (c : CtxId) (i : RRX), s.dev.runs c 1 = true → i.x = false → 3 < i.s.toNat → Faults s (con c i) c 0x010004) ∧
  (∀ con ∈ [Instr.lseti, .lend],
    ∀ (s : State) (c : CtxId) (i : RI), s.dev.runs c 1 = true → 3 < i.d.toNat → Faults s (con c i) c 0x010004) ∧
  (∀ con ∈ [Instr.nop, .halt, .yield, .fence, .pause, .fclr, .tclr],
    ∀ (s : State) (c : CtxId) (i : RRX), s.dev.runs c 1 = true → i.x = false → (i.d ≠ 0 ∨ i.s ≠ 0) → Faults s (con c i) c 0x010003) ∧
  (∀ (s : State) (c : CtxId) (w e : BitVec 24), s.dev.runs c 2 = true → decodeDefined c w e = none →
    Faults s (.undefinedInstruction c w) c (if 0x18 ≤ (opOf w).toNat then 0x010001 else 0x010002)) ∧
  (∀ (s : State) (c : CtxId) (i : RRX), s.dev.runs c 2 = true → i.x = true → i.d = 0 → i.s = 0 → i.ext.toNat < 2 ^ 16 →
    Faults s (.brk c i) c (0x0E0000 + i.ext))

/-- R84, R86, R90, R93, R95, R97, R99, R116: operands that fault: an address past the Granary, a half that cannot be read, a
loop count out of range, a selector that is not defined, a context that is no child, and REG without the grant. -/
def Obligations.OperandFaults : Prop :=
  (∀ con ∈ [Instr.ld, .st, .xadd],
    ∀ (s : State) (c : CtxId) (i : RRX) (width : BitVec 3) (post : Bool), let x := s.dev.ctx c
      s.dev.runs c (wordsOf i) = true → (width.toNat = 4 ∨ width.toNat = 5) → i.s.toNat < 4 →
      2 ^ 33 < effAddr x i + widthBytes width.toNat →
      Faults s (con c i width post 0) c 0x030001) ∧
  (∀ (s : State) (c : CtxId) (i : RRX) (width : BitVec 3) (post : Bool) (k : Nat), let x := s.dev.ctx c
    let n := widthBytes width.toNat
    let a := effAddr x i
    s.dev.runs c (wordsOf i) = true → s.dev.reachesGran c = true → (width.toNat = 4 ∨ width.toNat = 5) → i.s.toNat < 4 → a + n ≤ 2 ^ 33 →
    (∀ j < n, s.dev.xipOff x.home.toNat (a + j) = none) → k < halves a n → s.dev.ecc (a / 32 + k) = .uncorr →
    Faults s (.ld c i width post 0) c 0x040001 ∧ Faults s (.xadd c i width post 0) c 0x040002 ∧ Faults s (.st c i width post 0) c 0x040003) ∧
  (∀ (s : State) (c : CtxId) (i : RI), s.dev.runs c 1 = true → i.d.toNat < 4 → i.imm.msb = true → Faults s (.lseti c i) c 0x050106) ∧
  (∀ (s : State) (c : CtxId) (i : RRX) (tmo : Bool), s.dev.runs c (wordsOf i) = true → (tmo = false → i.d = 0) → (i.x = true → i.s = 0) →
    selOk (opB (s.dev.ctx c) i).toNat = false → Faults s (.waite c i tmo 0) c 0x050107) ∧
  (∀ (s : State) (c : CtxId) (i : RRX), s.dev.runs c 2 = true → i.x = true → 24 < ((s.dev.ctx c).rw i.d.toNat).toNat % 32 →
    Faults s (.spawnl c i) c 0x050108) ∧
  (∀ (s : State) (c : CtxId) (i : RRX), s.dev.runs c 1 = true → i.x = false →
    let k := ((s.dev.ctx c).rw i.s.toNat).toNat
    (10239 < k → Faults s (.join c i) c 0x050109) ∧
    (k ≤ 10239 → ((s.dev.ctx k).parent.toNat ≠ c.val ∨ (s.dev.ctx k).state = .free) → Faults s (.join c i) c 0x090001)) ∧
  (∀ con ∈ [Instr.rdreg, .wrreg],
    ∀ (s : State) (c : CtxId) (i : RRX), s.dev.runs c 2 = true → i.x = true → i.d ≠ i.s → (s.dev.ctx c).regGrant = false →
      Faults s (con c i) c 0x0A0001) ∧
  (∀ con ∈ [Instr.rdreg, .wrreg],
    ∀ (s : State) (c : CtxId) (i : RRX), s.dev.runs c 2 = true → i.x = true → i.d ≠ i.s → (s.dev.ctx c).regGrant = true →
      (2 ^ 20 ≤ i.ext.toNat ∨ i.ext.toNat % 4 ≠ 0) → Faults s (con c i) c 0x030002)

/-- R100, R102, R151 to R154, R157, R163, R165: the CHAN settings on a single channel of the context's site, and MEAS. A mode
that forces loads FORCE_CODE: 0 V in mode 1, 0 A in mode 2; a channel that stops forcing holds and ramps; MEAS starts its
samples and waits in kind 5. -/
def Obligations.ChannelInstructions : Prop :=
  ChanDoes (fun c i => .chanMode c i 0 0)
    (fun d k b => (b == 1 || b == 2) && d.chMode k == 0 && d.chRole k == 0 && !d.flagged k)
    (fun k => [Reg.CHAN.CTRL.mode k, Reg.CHAN.FORCE_CODE.code k, Reg.CHAN.STATUS.settled k] ++ clampFlags k)
    (fun _ e k b => e.chMode k = b.toNat ∧ e.rd (Reg.CHAN.FORCE_CODE.code k) = (if b = 1 then 0xB8E38E else 0) ∧
      e.rd (Reg.CHAN.STATUS.settled k) = 0) ∧
  ChanDoes (fun c i => .chanMode c i 0 0) (fun d k b => (b == 0 || b == 3) && d.chRole k == 0 && d.forcing k && d.chMode k != 0 && (d.chan k).ramp == .none)
    (fun k => [Reg.CHAN.CTRL.mode k, Reg.CHAN.STATUS.settled k, Reg.MON.STATE.trip_armed (monBase k false), Reg.MON.STATE.trip_armed (monBase k true)] ++ clampFlags k)
    (fun _ e k b => e.chMode k = b.toNat ∧ (e.chan k).ramp = .force false ∧ e.rd (Reg.CHAN.STATUS.settled k) = 0 ∧
      e.rd (Reg.CHAN.STATUS.iclamp_act k) = 0 ∧ e.rd (Reg.CHAN.STATUS.vclamp_act k) = 0) ∧
  ChanDoes (fun c i => .chanRange c i 0 0) (fun d k b => decide (b.toNat < 5) && d.chRole k == 0 && d.chMode k != 2)
    (fun k => [Reg.CHAN.CTRL.range k, Reg.CHAN.STATUS.settled k]) (fun _ e k b => e.rd (Reg.CHAN.CTRL.range k) = b.toNat) ∧
  ChanDoes (fun c i => .chanForce c i 0 0) (fun d k _ => d.chRole k == 0 && !d.wfmActive k && !(d.forcing k && d.flagged k))
    (fun k => [Reg.CHAN.FORCE_CODE.code k, Reg.CHAN.STATUS.settled k] ++ clampFlags k)
    (fun _ e k b => e.rd (Reg.CHAN.FORCE_CODE.code k) = b.toNat) ∧
  ChanDoes (fun c i => .chanClamp c i 0 0)
    (fun d k b => d.chRole k == 0 && decide (b.toInt ≤ 32767) && decide ((BitVec.ofNat 16 (d.rd (Reg.CHAN.VCLAMP.lo k))).toInt ≤ b.toInt))
    (fun k => [Reg.CHAN.VCLAMP.lo k, Reg.CHAN.VCLAMP.hi k, Reg.CHAN.STATUS.vclamp_act k])
    (fun d e k b => e.rd (Reg.CHAN.VCLAMP.hi k) = b.toNat % 2 ^ 16 ∧ e.rd (Reg.CHAN.VCLAMP.lo k) = d.rd (Reg.CHAN.VCLAMP.lo k) % 2 ^ 16) ∧
  ChanDoes (fun c i => .chanClamp c i 3 0)
    (fun d k b => d.chRole k == 0 && decide (-32768 ≤ b.toInt) && decide (b.toInt ≤ (BitVec.ofNat 16 (d.rd (Reg.CHAN.ICLAMP.hi k))).toInt))
    (fun k => [Reg.CHAN.ICLAMP.lo k, Reg.CHAN.ICLAMP.hi k, Reg.CHAN.STATUS.vclamp_act k])
    (fun d e k b => e.rd (Reg.CHAN.ICLAMP.lo k) = b.toNat % 2 ^ 16 ∧ e.rd (Reg.CHAN.ICLAMP.hi k) = d.rd (Reg.CHAN.ICLAMP.hi k) % 2 ^ 16) ∧
  (∀ j : BitVec 3, j.toNat < 5 →
    ChanDoes (fun c i => .chanLevel c i j 0) (fun d k b => d.chRole k == 0 && decide (-32768 ≤ b.toInt) && decide (b.toInt ≤ 32767))
      (fun k => [[Reg.CHAN.LVL_DRV.vih k, Reg.CHAN.LVL_DRV.vil k, Reg.CHAN.LVL_CMP.voh k, Reg.CHAN.LVL_CMP.vol k, Reg.CHAN.RATE.vt k].getD j.toNat (Reg.CHAN.RATE.vt k)])
      (fun _ e k b => e.rd ([Reg.CHAN.LVL_DRV.vih k, Reg.CHAN.LVL_DRV.vil k, Reg.CHAN.LVL_CMP.voh k, Reg.CHAN.LVL_CMP.vol k, Reg.CHAN.RATE.vt k].getD j.toNat (Reg.CHAN.RATE.vt k))
        = b.toNat % 2 ^ 16)) ∧
  ChanDoes (fun c i => .chanConn c i 0 0) (fun d k b => decide (b.toNat < 2) && d.chRole k == 0 && !d.forcing k && !(b == 1 && d.flagged k))
    (fun k => [Reg.CHAN.CTRL.conn k, Reg.CHAN.STATUS.settled k] ++ clampFlags k) (fun _ e k b => e.rd (Reg.CHAN.CTRL.conn k) = b.toNat) ∧
  (∀ (s : State) (c : CtxId) (i : RRX) (k : ChanId), s.dev.commands c i k = true → measCount i ≠ 0 → s.dev.chMode (s.dev.lead k) ≠ 0 →
    s.dev.capHolds k = false → s.dev.swapWaits (s.dev.ctx c).home.toNat = false →
    Leads s (.meas c i 0 0) fun e => e.ctx c = (s.dev.ctx c).waitsUnit (.meas k i.s) i.x (k / 32) ∧ (∀ j, j ≠ c.val → e.ctx j = s.dev.ctx j) ∧
      (e.chan k).meas = some ⟨c, measCount i, measCount i, 0, false⟩ ∧ regsKept s.dev e [] ∧ bytesKept s.dev e)

/-- R105, R106, R252, R260, R625: PAT on a loom of the context's site whose pattern path is ON. A start reads a valid
descriptor; with no burst running it is accepted at once, and BURST with bit 4 and MLOOP wait for its end; behind a running
burst it waits in the queue of starts, of which the first is made when the loom is free. SJMP latches its target, and STOP
asks for the end at the next vector. -/
def Obligations.PatternInstructions : Prop :=
  (∀ (s : State) (c : CtxId) (i : RRX) (n : LoomId) (blk : Bool), let x := s.dev.ctx c
    s.dev.starts c i n = true → s.dev.patRunning n = false → (s.dev.pat n).startQ = [] → (s.dev.box n).moving = none →
    Leads s (.burst c i blk 0) fun e => e.ctx c = (if blk then x.waitsUnit (.burst n) i.x n else x.onward (wordsOf i)) ∧
      (∃ b, (e.pat n).burst = some b ∧ b.ctx = c.val ∧ b.site = x.site.toNat ∧ b.blocking = blk ∧ b.mloop = false ∧ b.started = false) ∧
      e.rd (Reg.LOOM.VIDX.index n) = 0 ∧
      regsKept s.dev e (Reg.LOOM.VIDX.index n :: accessPeaks (s.dev.partOf c) ++ accessPeaks (.refill n)) ∧ bytesKept s.dev e ∧ (∀ j, j ≠ c.val → e.ctx j = s.dev.ctx j)) ∧
  (∀ (s : State) (c : CtxId) (i : RRX) (n : LoomId), let x := s.dev.ctx c
    s.dev.starts c i n = true → s.dev.patRunning n = false → (s.dev.pat n).startQ = [] → (s.dev.box n).moving = none →
    Leads s (.mloop c i false 0) fun e => e.ctx c = x.waitsUnit (.burst n) i.x n ∧
      (∃ b, (e.pat n).burst = some b ∧ b.ctx = c.val ∧ b.mloop = true) ∧ bytesKept s.dev e) ∧
  (∀ (s : State) (c : CtxId) (i : RRX) (n : LoomId) (blk : Bool), let x := s.dev.ctx c
    let g := (opB x i).toNat
    s.dev.starts c i n = true → s.dev.patRunning n = true →
    Leads s (.burst c i blk 0) fun e => e.ctx c = x.waitsUnit (.startBurst n g blk false) i.x n ∧
      e.pat n = { s.dev.pat n with startQ := (s.dev.pat n).startQ ++ [c.val] } ∧ regsKept s.dev e (accessPeaks (s.dev.partOf c)) ∧ bytesKept s.dev e) ∧
  (∀ (s : State) (c : CtxId) (i : RRX) (n : LoomId) (b : Burst), let x := s.dev.ctx c
    let g := (opB x i).toNat
    s.dev.starts c i n = true → (s.dev.pat n).burst = some b → b.ctx = c.val → b.stopReq = none → b.ended = none →
    Leads s (.sjmp c i false 0) fun e => e.ctx c = x.onward (wordsOf i) ∧ e.rd (Reg.LOOM.SJMP_STATE.target n) = g ∧
      e.rd (Reg.LOOM.SJMP_STATE.pending n) = 1 ∧
      regsKept s.dev e ([Reg.LOOM.SJMP_STATE.target n, Reg.LOOM.SJMP_STATE.pending n, Reg.LOOM.BOB_STATUS.sjmp_replaced n] ++ accessPeaks (s.dev.partOf c) ++
        accessPeaks (.refill n)) ∧ bytesKept s.dev e) ∧
  (∀ (s : State) (c : CtxId) (i : RRX) (n : LoomId) (b : Burst), let x := s.dev.ctx c
    s.dev.runs c (wordsOf i) = true → patLoom x i = n.val → s.dev.reaches c n = true → s.dev.unit (kPattern n) = .on → i.s = 0 → (i.x = true → i.ext = 0) →
    (s.dev.pat n).burst = some b → b.ended = none → b.started = true → b.stopReq = none →
    Leads s (.stop c i false 0) fun e => e.ctx c = x.onward (wordsOf i) ∧ e.pat n = { s.dev.pat n with burst := some { b with stopReq := some 1 }, stopAt := some s.dev.reed.time } ∧
      regsKept s.dev e [] ∧ bytesKept s.dev e) ∧
  (∀ (s : State) (n : LoomId) (c : CtxId) (rest : List Nat) (g : Nat) (blk : Bool),
    (s.dev.pat n).startQ = c.val :: rest → (s.dev.ctx c).wait = .startBurst n g blk false → (s.dev.ctx c).state = .waiting → (s.dev.ctx c).rel = .none →
    s.dev.patRunning n = false → (s.dev.box n).moving = none → s.dev.reaches c n = true → s.dev.unit (kPattern n) = .on → s.dev.segGood g = true →
    s.dev.reachesGran c = true → Leads s (.queuedBurstStart n) fun e => (e.pat n).startQ = rest ∧ (∃ b, (e.pat n).burst = some b ∧ b.ctx = c.val ∧ b.blocking = blk) ∧
      e.ctx c = (if blk then { s.dev.ctx c with wait := .burst n } else { s.dev.ctx c with rel := .done }) ∧ bytesKept s.dev e)

/-- R109, R297, R304, R309, R347, R348, R352, R427: CAP, MILL and REED on a loom of the context's site whose unit is ON. ARM
returns its status in w_d with Z, and arms on 0; TRIG places a trigger; DISARM ends the capture with cause 1; MLOAD and MSTART
act on an idle Mill, MWAIT returns its status word; SEND enters the root's lane queue, and is discarded without a bus; RECV
waits in kind 6. -/
def Obligations.UnitInstructions : Prop :=
  (∀ (s : State) (c : CtxId) (i : RRX) (n : LoomId), let x := s.dev.ctx c
    let a := (x.ra i.s.toNat).toNat
    let v := leVal (s.dev.bytesAt a 48)
    let st := s.dev.capJudge n v (some x.site.toNat)
    s.dev.runs c 2 = true → s.dev.reachesGran c = true → i.x = true → i.s.toNat < 4 → loomOf x (i.ext.toNat % 32) = n.val → s.dev.reaches c n = true →
    s.dev.unit (kCapture n) = .on → s.dev.capBusy n = false → a + 48 ≤ 2 ^ 33 → s.dev.clean a 48 = true →
    Leads s (.arm c i) fun e => (e.ctx c).rw i.d.toNat = BitVec.ofNat 24 st ∧ (e.ctx c).fZ = decide (st = 0) ∧ (e.ctx c).pc = x.pc + 2 ∧
      e.rd (Reg.LOOM.CAP_STATUS.arm_status n) = st ∧ (st = 0 → e.capState n = 1 ∧ (e.cap n).desc = capDescOf v) ∧
      (st ≠ 0 → e.rd (Reg.LOOM.CAP_STATUS.arm_reject n) = 1 ∧ e.caps = s.dev.caps) ∧ bytesKept s.dev e) ∧
  (∀ (s : State) (c : CtxId) (i : RRX) (n : LoomId), let x := s.dev.ctx c
    s.dev.runs c (wordsOf i) = true → i.d = 0 → (i.x = true → i.s = 0) → loomOf x ((opB x i).toNat % 32) = n.val → s.dev.reaches c n = true →
    s.dev.unit (kCapture n) = .on → (s.dev.capState n = 2 ∨ s.dev.capState n = 3) →
    Leads s (.disarm c i) fun e => e.ctx c = x.onward (wordsOf i) ∧ e.cap n = (s.dev.cap n).endedBy s.dev 1 ∧ regsKept s.dev e [] ∧
      bytesKept s.dev e) ∧
  (∀ (s : State) (c : CtxId) (i : RRX) (n : LoomId), let x := s.dev.ctx c
    s.dev.runs c (wordsOf i) = true → i.d = 0 → (i.x = true → i.s = 0) → loomOf x ((opB x i).toNat % 32) = n.val → s.dev.reaches c n = true →
    s.dev.unit (kCapture n) = .on → s.dev.capState n = 2 → (s.dev.cap n).closing = none → (s.dev.cap n).endAt ≠ some s.dev.nowTaps →
    atOrAfter s.dev.nowTaps (s.dev.cap n).from_ = true →
    Leads s (.trig c i) fun e => e.ctx c = x.onward (wordsOf i) ∧ e.capState n = 3 ∧
      e.cap n = { s.dev.cap n with trig := some ⟨8, s.dev.now * 10240⟩, trigFrom := s.dev.now * 10240, wasQueued := false } ∧
      regsKept s.dev e [Reg.LOOM.CAP_STATUS.state n] ∧ bytesKept s.dev e) ∧
  (∀ (s : State) (c : CtxId) (i : RRX) (n : LoomId), let x := s.dev.ctx c
    s.dev.runs c 2 = true → s.dev.swapWaits x.home.toNat = false → i.x = true → i.d = 0 → i.s.toNat < 4 → loomOf x (i.ext.toNat % 32) = n.val →
    s.dev.reaches c n = true → s.dev.unit (kMill n) = .on → s.dev.millBusy n = false → (x.ra i.s.toNat).toNat + 32 ≤ 2 ^ 33 →
    Leads s (.mload c i) fun e => e.ctx c = x.waitsUnit (.mloading n) true n ∧
      e.mill n = { s.dev.mill n with state := mLoading, load := some ((x.ra i.s.toNat).toNat, c.val) } ∧ regsKept s.dev e [] ∧ bytesKept s.dev e) ∧
  (∀ (s : State) (c : CtxId) (i : RRX) (n : LoomId), let x := s.dev.ctx c
    s.dev.runs c (wordsOf i) = true → (i.x = true → i.s = 0) → loomOf x ((x.rw i.d.toNat).toNat % 32) = n.val → s.dev.reaches c n = true →
    s.dev.unit (kMill n) = .on → s.dev.millBusy n = false →
    Leads s (.mstart c i) fun e => e.ctx c = x.onward (wordsOf i) ∧ e.mill n = (s.dev.mill n).started ((opB x i).toNat % 2048) ∧ regsKept s.dev e [] ∧
      bytesKept s.dev e) ∧
  (∀ (s : State) (c : CtxId) (i : RRX) (n : LoomId), let x := s.dev.ctx c
    let v := BitVec.ofNat 24 (s.dev.mill n).status
    s.dev.runs c (wordsOf i) = true → (i.x = true → i.s = 0) → loomOf x ((opB x i).toNat % 32) = n.val → s.dev.reaches c n = true →
    s.dev.unit (kMill n) = .on → (s.dev.mill n).state = mIdle →
    Completes s (.mwait c i) c (Ctx.onward { x.setW i.d.toNat v with flags := flagWord (v == 0) x.fN x.fC x.fV x.fF x.fT } (wordsOf i))) ∧
  (∀ (s : State) (c : CtxId) (i : RRX) (n : LoomId), let x := s.dev.ctx c
    s.dev.runs c (wordsOf i) = true → (i.x = true → i.s = 0) → loomOf x ((opB x i).toNat % 32) = n.val → s.dev.reaches c n = true →
    s.dev.unit (kMill n) = .on → (s.dev.mill n).state ≠ mIdle → s.dev.swapWaits x.home.toNat = false →
    Completes s (.mwait c i) c (x.waitsUnit (.mwait n i.d) i.x n)) ∧
  (∀ (s : State) (c : CtxId) (i : RRX) (lane : Bool), let x := s.dev.ctx c
    s.dev.runs c (wordsOf i) = true → i.d = 0 → (i.x = true → i.s = 0) → (opB x i).toNat < 256 → s.dev.rd Reg.REED_STATE.state = 3 →
    s.dev.rd Reg.REED_CTRL.role = 1 → (if lane then s.dev.reed.lane1 else s.dev.reed.lane0).length < 64 →
    Leads s (.send c i false lane 0) fun e => e.ctx c = x.onward (wordsOf i) ∧
      (if lane then e.reed.lane1 else e.reed.lane0) = (if lane then s.dev.reed.lane1 else s.dev.reed.lane0) ++ [⟨1, (opB x i).setWidth 8, 0, 0⟩] ∧
      regsKept s.dev e [] ∧ bytesKept s.dev e) ∧
  (∀ (s : State) (c : CtxId) (i : RRX) (lane : Bool), let x := s.dev.ctx c
    s.dev.runs c (wordsOf i) = true → i.d = 0 → (i.x = true → i.s = 0) → (opB x i).toNat < 256 →
    (s.dev.rd Reg.REED_STATE.state = 0 ∨ s.dev.rd Reg.REED_STATE.state = 4) →
    Leads s (.send c i false lane 0) fun e => e.ctx c = x.onward (wordsOf i) ∧
      e.rd Reg.REED_SEND_DROP.count = min (s.dev.rd Reg.REED_SEND_DROP.count + 1) 0xFFFFFF ∧ e.rd Reg.REED_IRQ.send_drop = 1 ∧ e.reed = s.dev.reed ∧
      regsKept s.dev e [Reg.REED_SEND_DROP.count, Reg.REED_IRQ.send_drop] ∧ bytesKept s.dev e) ∧
  (∀ (s : State) (c : CtxId) (i : RRX) (tmo : Bool), let x := s.dev.ctx c
    s.dev.runs c 2 = true → i.x = true →
    Completes s (.recv c i tmo false 0) c
      { x with state := .waiting, wait := .recv (i.ext.setWidth 8) (i.ext.extractLsb' 8 8) i.d i.s tmo, waitX := true, rel := .none, waitKind := 6,
               waitSel := 0, deadline := 0, wakeTime := if tmo then BitVec.ofNat 48 (s.dev.now + (x.rw i.d.toNat).toNat) else 0 })

/-- R415, R421, R424, R425, R430, R431, R433: the Reed commands of the owner of block 8, and what the clock does. Enabling
takes the interface to ACQUIRE, where a SOLO or ROOT has the delay 0, and disabling, by any master, to OFF; lock takes a SOLO or
ROOT from ACQUIRE to ALIGNED and a member to ECHO, and HOLDOVER to ACQUIRE; loss takes ECHO, ALIGNED and UNALIGNED to HOLDOVER. -/
def Obligations.ReedCommands : Prop :=
  (∀ (s : State) (m : Master), s.dev.on Reg.REED_CTRL.en = false → s.dev.owns m 8 = true →
    16 * s.dev.rd Reg.REED_CTRL.branch + s.dev.rd Reg.REED_CTRL.position < 2 ^ s.dev.rd Reg.REED_LAT.upslots_log2 →
    Leads s (.reedEnable m) fun e => e.rd Reg.REED_CTRL.en = 1 ∧ e.rd Reg.REED_STATE.state = 1 ∧
      (s.dev.rd Reg.REED_CTRL.role ≠ 2 → e.delay = 0) ∧ (s.dev.rd Reg.REED_CTRL.role = 2 → e.delay = s.dev.delay) ∧
      Keeps s.dev e [Reg.REED_CTRL.en, Reg.REED_STATE.state, Reg.REED_DELAY.d]) ∧
  (∀ (s : State) (m : Master), s.dev.on Reg.REED_CTRL.en = true → s.dev.reed.sendWait = [] →
    Leads s (.reedDisable m) fun e => e.rd Reg.REED_CTRL.en = 0 ∧ e.rd Reg.REED_STATE.state = 0 ∧ e.reed.upq = [] ∧ e.reed.out0 = none ∧
      e.reed.out1 = none ∧ e.reed.outUp = none ∧ bytesKept s.dev e) ∧
  (∀ (s : State) (m : Master), s.dev.owns m 8 = true → s.dev.rd Reg.REED_CTRL.role = 2 → s.dev.rd Reg.REED_STATE.state = 5 →
    Leads s (.reedResync m) fun e => e = { s.dev with reed := { s.dev.reed with resync := true } }) ∧
  (∀ (s : State) (m : Master), s.dev.owns m 8 = true → s.dev.rd Reg.REED_CTRL.role = 1 → s.dev.rd Reg.REED_STATE.state = 3 →
    Leads s (.echoNow m) fun e => e = { s.dev with reed := { s.dev.reed with round := some ⟨true, 1, 0, []⟩ } }) ∧
  (∀ (s : State) (m : Master) (v : BitVec 32), s.dev.owns m 8 = true → (s.dev.rd Reg.REED_CTRL.role ≠ 2 ∨ s.dev.reed.hasDelay = false) →
    Leads s (.delayTrimWrite m v) fun e => e.rd Reg.REED_DELAY_TRIM.trim = v.toNat % 2 ^ 24 ∧ Keeps s.dev e [Reg.REED_DELAY_TRIM.trim] ∧ e.reed = s.dev.reed) ∧
  (∀ s : State, (s.dev.rd Reg.REED_STATE.state = 1 ∨ s.dev.rd Reg.REED_STATE.state = 4) →
    Leads s .clockCleanerLock fun e => e.rd Reg.REED_STATE.clk_lock = 1 ∧
      e.rd Reg.REED_STATE.state = (if s.dev.rd Reg.REED_STATE.state = 4 then 1 else if s.dev.rd Reg.REED_CTRL.role = 2 then 2 else 3) ∧
      (s.dev.rd Reg.REED_CTRL.role ≠ 2 → s.dev.reed.counting = false → e.now = 0 ∧ e.reed.counting = true) ∧
      (s.dev.rd Reg.REED_STATE.state = 1 → s.dev.rd Reg.REED_CTRL.role = 1 → e.reed.round = some ⟨true, 1, 0, []⟩) ∧ Keeps s.dev e [Reg.REED_STATE.clk_lock, Reg.REED_STATE.state]) ∧
  (∀ s : State, (s.dev.rd Reg.REED_STATE.state = 2 ∨ s.dev.rd Reg.REED_STATE.state = 3 ∨ s.dev.rd Reg.REED_STATE.state = 5) → s.dev.reed.sendWait = [] →
    Leads s .reedClockLoss fun e => e.rd Reg.REED_STATE.state = 4 ∧ e.rd Reg.REED_STATE.clk_lock = 0 ∧ e.rd Reg.REED_IRQ.holdover = 1 ∧
      e.reed.upq = [] ∧ e.reed.out0 = none ∧ e.reed.time = s.dev.reed.time ∧ bytesKept s.dev e) ∧
  (∀ s : State, s.dev.reed.hasDelay = true → s.dev.reed.tOffset = 0 → s.dev.delay < s.dev.reed.dTarget → s.dev.delay < 2 ^ 31 - 1 →
    0 ≤ s.dev.reed.tapsOff → s.dev.reed.tapsOff < 10239 →
    Leads s .delaySlewStep fun e => e.delay = s.dev.delay + 1 ∧ e.reed.time = s.dev.reed.time ∧ e.reed.tapsOff = s.dev.reed.tapsOff + 1 ∧
      Keeps s.dev e [Reg.REED_DELAY.d])

/-- R418 to R420, R422, R424 to R428: frames. A member whose downlink runs passes every downlink frame on as it came; a frame
with a good CRC acts: an EVENT is scheduled at its emission time plus the latency, a SYNC sets Reed time, a background POLL of
its slot waits for its uplink slot, a DELAY sets RTT − h. The root relays an UP_EVENT and answers a REPLY that comes within its time with a
DELAY. A frame whose CRC differs, or whose type is reserved, is counted. -/
def Obligations.ReedFrames : Prop :=
  (∀ (s : State) (f : BitVec 64) (lane : Bool), s.dev.listens = true → frameOk 1 f = true →
    let at_ := (fullTime s.dev.now (f.toNat / 2 ^ 8 % 2 ^ 32) + s.dev.rd Reg.REED_LAT.ticks) % 2 ^ 48
    (reached s.dev.now at_ = false ∨ s.dev.now = at_) →
    Leads s (.eventFrame f lane) fun e => (if lane then e.reed.out1 else e.reed.out0) = some f ∧
      (∃ a, e.reed.acts = s.dev.reed.acts ++ [a] ∧ a.act.toNat = at_ ∧ a.lane = lane ∧ a.code.toNat = f.toNat / 2 ^ 48 % 256) ∧ Keeps s.dev e []) ∧
  (∀ (s : State) (f : BitVec 64) (taps : Fin 10240), s.dev.listens = true → frameOk 2 f = true → s.dev.rd Reg.REED_STATE.state = 5 → s.dev.reed.resync = true →
    s.dev.delay = 0 →
    Leads s (.syncFrame f taps) fun e => e.rd Reg.REED_STATE.state = 3 ∧ e.reed.out1 = some f ∧ e.reed.resync = false ∧
      e.now = (f.toNat / 2 ^ 40 % 256 * 2 ^ 40 + f.toNat / 2 ^ 48 % 256 * 2 ^ 32 + f.toNat / 2 ^ 8 % 2 ^ 32) ∧ Keeps s.dev e [Reg.REED_STATE.state]) ∧
  (∀ (s : State) (f : BitVec 64), s.dev.listens = true → frameOk 3 f = true → s.dev.rd Reg.REED_STATE.state = 3 → f.toNat / 2 ^ 40 % 256 ≠ 0 →
    f.toNat / 2 ^ 48 % 256 = s.dev.reedSlot →
    Leads s (.pollFrame f) fun e => e.reed = { s.dev.reed with out1 := some f, pollWait := true, pollAt := s.dev.reed.time } ∧ Keeps s.dev e []) ∧
  (∀ (s : State) (f : BitVec 64), s.dev.listens = true → frameOk 4 f = true → s.dev.rd Reg.REED_STATE.state = 2 → f.toNat / 2 ^ 48 % 256 = s.dev.reedSlot →
    Leads s (.delayFrame f) fun e => e.rd Reg.REED_PATH.rtt_h = f.toNat / 2 ^ 8 % 2 ^ 32 ∧ e.reed.hasDelay = true ∧ e.reed.out1 = some f ∧
      e.reed.dTarget = s.dev.delayFrom (f.toNat / 2 ^ 8 % 2 ^ 32) (s.dev.rd Reg.REED_DELAY_TRIM.trim) ∧ Keeps s.dev e [Reg.REED_PATH.rtt_h, Reg.REED_DELAY.d]) ∧
  (∀ (s : State) (f : BitVec 64), s.dev.rd Reg.REED_CTRL.role = 1 → s.dev.rd Reg.REED_STATE.state = 3 → frameOk 8 f = true →
    (s.dev.reed.lane (f.toNat / 2 ^ 40 % 2 == 1)).length < 64 →
    Leads s (.upEvent f) fun e => (∃ x : LaneFrame, (if f.toNat / 2 ^ 40 % 2 = 1 then e.reed.lane1 = s.dev.reed.lane1 ++ [x] else e.reed.lane0 = s.dev.reed.lane0 ++ [x]) ∧
      x.kind = 1 ∧ x.code.toNat = f.toNat / 2 ^ 48 % 256) ∧ Keeps s.dev e []) ∧
  (∀ (s : State) (f : BitVec 64), s.dev.rd Reg.REED_CTRL.role = 1 → s.dev.rd Reg.REED_STATE.state = 3 → frameOk 8 f = true →
    64 ≤ (s.dev.reed.lane (f.toNat / 2 ^ 40 % 2 == 1)).length →
    Leads s (.upEvent f) fun e => (∃ x : SendWait, e.reed = { s.dev.reed with sendWait := s.dev.reed.sendWait ++ [x] } ∧
      x.lane = (f.toNat / 2 ^ 40 % 2 == 1) ∧ x.code.toNat = f.toNat / 2 ^ 48 % 256) ∧ Keeps s.dev e []) ∧
  (∀ (s : State) (f : BitVec 64) (rtt : BitVec 32) (r : EchoRound), s.dev.rd Reg.REED_CTRL.role = 1 → s.dev.rd Reg.REED_STATE.state = 3 → frameOk 9 f = true →
    s.dev.reed.round = some r → f.toNat / 2 ^ 48 % 256 ∈ r.out → rtt.toNat ≤ s.dev.replyLimit r → s.dev.reed.lane1.length < 64 →
    Leads s (.reply f rtt) fun e => e.reed.round = some { r with replies := r.replies + 1, out := r.out.erase (f.toNat / 2 ^ 48 % 256) } ∧
      e.reed.lane1 = s.dev.reed.lane1 ++ [⟨4, BitVec.ofNat 8 (f.toNat / 2 ^ 48), 0, rtt - BitVec.ofNat 32 (f.toNat / 2 ^ 8)⟩] ∧ Keeps s.dev e []) ∧
  (∀ (s : State) (f : BitVec 64) (lane : Fin 3), s.dev.listens = true → lane.val < 2 → frameBroken f = true →
    Leads s (.reedBadFrame f lane) fun e => (if lane.val = 1 then e.reed.out1 else e.reed.out0) = some f ∧ e.rd Reg.REED_IRQ.crc = 1 ∧
      e.rd Reg.REED_CRC_ERR.count = min (s.dev.rd Reg.REED_CRC_ERR.count + 1) 0xFFFFFF ∧ e.reed.acts = s.dev.reed.acts ∧
      Keeps s.dev e [Reg.REED_IRQ.crc, Reg.REED_CRC_ERR.count])

/-- R420, R423, R425, R427, R428, R461: what the Reed interface does by the clock. The root emits the first EVENT of a lane before
its POLL and DELAY frames, a SYNC at a multiple of 65,536 ticks, and the POLLs of a round; a member launches its oldest uplink
event in its slot, at tick 8 × s of the cycle where its echo path is 0; an event acts at its time, and releases the RECV that matches it; an edge at or after the armed time is stamped. -/
def Obligations.ReedByTheClock : Prop :=
  (∀ (s : State) (lane : Bool) (f : LaneFrame) (rest : List LaneFrame), s.dev.rd Reg.REED_CTRL.role = 1 → s.dev.rd Reg.REED_STATE.state = 3 →
    (if lane then s.dev.reed.lane1 else s.dev.reed.lane0) = f :: rest → f.kind = 1 → s.dev.reed.sendWait = [] → s.dev.rd Reg.REED_LAT.ticks < 2 ^ 47 →
    Leads s (.reedFrameEmit lane) fun e => (if lane then e.reed.lane1 else e.reed.lane0) = rest ∧
      (if lane then e.reed.out1 else e.reed.out0) = some (mkFrame 1 f.code.toNat f.aux.toNat s.dev.now) ∧ Keeps s.dev e []) ∧
  (∀ s : State, s.dev.rd Reg.REED_CTRL.role = 1 → s.dev.rd Reg.REED_STATE.state = 3 → s.dev.now % 65536 = 0 → s.dev.reed.syncAt ≠ some s.dev.reed.time →
    Leads s .syncEmission fun e => e = { s.dev with reed := { s.dev.reed with syncAt := some s.dev.reed.time, out1 := some (mkFrame 2 (s.dev.now / 2 ^ 32) (s.dev.now / 2 ^ 40) s.dev.now) } }) ∧
  (∀ (s : State) (r : EchoRound), s.dev.rd Reg.REED_CTRL.role = 1 → s.dev.rd Reg.REED_STATE.state = 3 → s.dev.reed.round = some r →
    r.next < 2 ^ s.dev.rd Reg.REED_LAT.upslots_log2 → s.dev.reed.lane1.length < 64 →
    Leads s .echoPollTimer fun e => e.reed.lane1 = s.dev.reed.lane1 ++ [⟨3, BitVec.ofNat 8 r.next, if r.initial then 0 else 1, 0⟩] ∧
      (∃ q, e.reed.round = some q ∧ q.next = r.next + 1 ∧ r.next ∈ q.out) ∧ Keeps s.dev e []) ∧
  (∀ s : State, s.dev.rd Reg.REED_CTRL.role = 1 → s.dev.rd Reg.REED_STATE.state = 3 → s.dev.rd Reg.REED_ECHO_PERIOD.ms ≠ 0 → s.dev.reed.round = none →
    Leads s .backgroundEchoRound fun e => e = { s.dev with reed := { s.dev.reed with round := some ⟨false, 1, 0, []⟩ } }) ∧
  (∀ (s : State) (x : BitVec 8 × Bool × BitVec 48) (rest : List (BitVec 8 × Bool × BitVec 48)), s.dev.rd Reg.REED_CTRL.role = 2 →
    s.dev.rd Reg.REED_STATE.state = 3 → s.dev.reed.pollWait = false → s.dev.reed.holding = false → s.dev.reed.upq = x :: rest →
    s.dev.reed.sendWait = [] → s.dev.comes s.dev.nextLaunch = true →
    Leads s .uplinkSlot fun e => e.reed.upq = rest ∧ e.reed.outUp = some (mkFrame 8 x.1.toNat (if x.2.1 then 1 else 0) x.2.2.toNat) ∧
      (s.dev.rd Reg.REED_LAT.upslots_log2 < 45 → s.dev.echoPath = 0 → e.now % (8 * s.dev.upSlots) = 8 * s.dev.reedSlot % (8 * s.dev.upSlots)) ∧
      Keeps s.dev e [Reg.TH_PAUSED.ticks]) ∧
  (∀ (s : State) (a : ReedAct) (c : CtxId) (code mask : BitVec 8) (d w : BitVec 4) (tmo : Bool), s.dev.reed.acts = [a] → s.dev.comesTo a.act = true →
    (s.dev.ctx c).state = .waiting → (s.dev.ctx c).rel = .none → (s.dev.ctx c).wait = .recv code mask d w tmo → a.code &&& mask = code &&& mask →
    Leads s (.reedEventAct a.act) fun e => e.reed.acts = [] ∧ e.reed.time = a.act ∧ (e.ctx c).rel = .event a.code a.stamp ∧ bytesKept s.dev e ∧
      regsKept s.dev e [Reg.TH_PAUSED.ticks]) ∧
  (∀ (s : State) (m : Master), s.dev.owns m calBlock = true →
    Leads s (.calTimeArm m) fun e => e.cal = { s.dev.cal with armed := true } ∧ e.rd Reg.CAL_STATUS.stamp_valid = 0 ∧ Keeps s.dev e [Reg.CAL_STATUS.stamp_valid]) ∧
  (∀ (s : State) (t : Nat), let hit := s.dev.cal.armed && reached (t / 10240 % 2 ^ 48) (s.dev.rd Reg.CAL_TIME_ARM.arm)
    s.dev.comesTo (BitVec.ofNat 48 (t / 10240)) = true →
    Leads s (.calTimeEdge t) fun e => e.reed.time = BitVec.ofNat 48 (t / 10240) ∧
      (hit = true → e.rd Reg.CAL_TIME_STAMP.stamp = t % (2 ^ 48 * 10240) ∧ e.rd Reg.CAL_STATUS.stamp_valid = 1 ∧ e.cal = { s.dev.cal with armed := false } ∧
        Keeps s.dev e [Reg.CAL_TIME_STAMP.stamp, Reg.CAL_STATUS.stamp_valid, Reg.TH_PAUSED.ticks]) ∧
      (hit = false → e.cal = s.dev.cal ∧ Keeps s.dev e [Reg.TH_PAUSED.ticks]))

/-- R293, R297, R300, R301, R303 to R311, R314: a capture unit. The owner arms it with a descriptor that is judged; arming
complete, it is ARMED; a trigger takes it to POST; a sample instant converts its lane; a frame leaves the hold into its slot of the ring, and is
dropped and counted where it finds the outgoing queue of 64 lines full; a disarm gives the record end cause 1; a record closes the capture and raises
cap_closed; re-arming goes on with the next capture. -/
def Obligations.CaptureUnit : Prop :=
  (∀ (s : State) (m : Master) (n : LoomId) (v : BitVec 32), let a := 16 * (v.toNat % 2 ^ 29)
    s.dev.busBlocked m = false → s.dev.owns m (16 + n) = true → s.dev.unit (kCapture n) = .on → s.dev.capBusy n = false → s.dev.mayAccess (capPart n) = true →
    s.dev.clean a 48 = true → s.dev.capJudge n (leVal (s.dev.bytesAt a 48)) none = 0 →
    Leads s (.capArmWrite m n v) fun e => e.capState n = 1 ∧ (e.cap n).desc = capDescOf (leVal (s.dev.bytesAt a 48)) ∧
      e.rd (Reg.LOOM.CAP_INDEX.capture n) = 0 ∧ e.rd (Reg.LOOM.CAP_STATUS.arm_status n) = 0 ∧
      e.rd (Reg.LOOM.CAP_SLOT.slot n) = 0 ∧ Keeps s.dev e ([Reg.LOOM.CAP_STATUS.arm_status n, Reg.LOOM.CAP_STATUS.state n, Reg.LOOM.CAP_INDEX.capture n,
        Reg.LOOM.CAP_STATUS.queued n, Reg.LOOM.CAP_SLOT.slot n] ++ accessPeaks (capPart n))) ∧
  (∀ (s : State) (n : LoomId), s.dev.capState n = 1 → (s.dev.cap n).held = none →
    Leads s (.armingComplete n) fun e => e.capState n = 2 ∧ (e.cap n).from_ = s.dev.now * 10240 ∧ (e.cap n).seen = 0 ∧
      Keeps s.dev e [Reg.LOOM.CAP_STATUS.state n]) ∧
  (∀ (s : State) (m : Master) (n : LoomId), s.dev.owns m (16 + n) = true → s.dev.capState n = 2 → (s.dev.cap n).closing = none →
    (s.dev.cap n).endAt ≠ some s.dev.nowTaps → atOrAfter s.dev.nowTaps (s.dev.cap n).from_ = true →
    Leads s (.capCmdTrig m n) fun e => e.capState n = 3 ∧ (e.cap n).trig = some ⟨9, s.dev.now * 10240⟩ ∧ Keeps s.dev e [Reg.LOOM.CAP_STATUS.state n]) ∧
  (∀ (s : State) (n : LoomId) (code : BitVec 8) (place : Nat), s.dev.capState n = 2 → (s.dev.cap n).closing = none → (s.dev.cap n).endAt ≠ some s.dev.nowTaps →
    (s.dev.cap n).desc.trig.toNat % 16 = 5 →
    (code.toNat ^^^ (s.dev.cap n).desc.trig.toNat / 2 ^ 8 % 256) &&& ((s.dev.cap n).desc.trig.toNat / 2 ^ 8 % 2 ^ 16 / 256) = 0 →
    (s.dev.cap n).desc.occ ≤ (s.dev.cap n).seen + 1 → (s.dev.cap n).pend = [(.reed code, place)] → atOrAfter place (s.dev.cap n).from_ = true →
    Leads s (.triggerDecision n (.reed code) place) fun e => e.capState n = 3 ∧ (e.cap n).trig = some ⟨5, place⟩ ∧ (e.cap n).seen = 0 ∧ (e.cap n).pend = [] ∧
      Keeps s.dev e [Reg.LOOM.CAP_STATUS.state n]) ∧
  (∀ (s : State) (n : LoomId) (code : BitVec 24), let x := s.dev.cap n
    let k := 32 * n + x.desc.laneChan 0
    let u := 25 * x.desc.div * x.nextK
    x.desc.cls = 0 → s.dev.capState n = 2 → x.closing = none → x.desc.lanes = 1 → x.desc.reduce = false → x.hold = [] → u < 2 ^ 51 →
    s.dev.comes (u / 8) = true → atOrAfter (1280 * u) x.from_ = true → s.dev.chRole k = 0 → s.dev.chMode k ≠ 0 → (s.dev.chan k).tripRamp = false →
    (s.dev.chan k).meas = none → s.dev.codesOk n x.desc [code] = true →
    let v := if s.dev.readsVolt k then (s.dev.sampleOf k code code).1 else (s.dev.sampleOf k code code).2
    Leads s (.captureSampleInstant n [code]) fun e => (e.cap n).hold = [⟨1280 * u, leBytes 3 v.toNat, 0, false⟩] ∧ (e.cap n).nextK = x.nextK + 1 ∧
      (if s.dev.readsVolt k then (e.chan k).vNow else (e.chan k).iNow) = v ∧
      Keeps s.dev e [Reg.CHAN.STATUS.over_range k, Reg.CHAN.STATUS.iclamp_act k, Reg.CHAN.STATUS.vclamp_act k, Reg.TH_PAUSED.ticks]) ∧
  (∀ (s : State) (n : LoomId) (f : Frame) (rest : List Frame) (x0 : Ecc), let x := s.dev.cap n
    let i := x.written % max x.desc.capacity 1
    let a := 64 * (x.desc.ring + s.dev.rd (Reg.LOOM.CAP_INDEX.capture n) * x.desc.ringLines) + x.desc.frameBytes * i
    let k := linesOf a x.desc.frameBytes
    x.hold = f :: rest → f.gone = false → x.trig = none → x.trigFrame = none → f.bytes.length = x.desc.frameBytes → a + x.desc.frameBytes ≤ 2 ^ 33 →
    s.dev.comes ((f.t + 262144) % tapSpan / 10240) = true → x.undecided f.t = false → s.dev.clean a x.desc.frameBytes = true → s.dev.offTable a x.desc.frameBytes = true →
    Leads s (.captureFrameRelease n x0) fun e => (e.cap n).hold = rest ∧ (∀ k, e.ctx k = s.dev.ctx k) ∧
      (s.dev.mayAccessAll (capPart n) k = true → s.dev.capTail n = none → x0 = .good → e.bytesAt a x.desc.frameBytes = f.bytes ∧ bytesKeptBut s.dev e a x.desc.frameBytes ∧
        (e.cap n).written = x.written + 1) ∧
      (64 < s.dev.capQueued n + s.dev.capTakesLines n a x.desc.frameBytes → e.rd (Reg.LOOM.CAP_DROP.count n) = min (s.dev.rd (Reg.LOOM.CAP_DROP.count n) + 1) 0xFFFFFF ∧
        e.rd (Reg.LOOM.CAP_STATUS.gap n) = 1 ∧ bytesKept s.dev e)) ∧
  (∀ (s : State) (n : LoomId) (f : Frame) (e : Ecc), (s.dev.cap n).hold.head? = some f → (s.dev.cap n).undecided f.t = true →
    Leads s (.captureFrameRelease n e) (· = s.dev)) ∧
  (∀ (s : State) (m : Master) (n : LoomId), (s.dev.capState n = 2 ∨ s.dev.capState n = 3) →
    Leads s (.capCmdDisarm m n) fun e => e.cap n = (s.dev.cap n).endedBy s.dev 1 ∧ e = { s.dev with caps := e.caps }) ∧
  (∀ (s : State) (n : LoomId), let x := s.dev.cap n
    x.closing = some 0 → x.hold = [] → x.redN = 0 → x.held = none → s.dev.capState n = 3 → x.quit = false → s.dev.noAccess (capPart n) = true →
    s.dev.mayAccess (capPart n) = true →
    Leads s (.captureRecordClose n) fun e => e.capState n = 5 ∧ e.rd (Reg.LOOM.CAP_STATUS.closed n) = 1 ∧ e.rd (Reg.LOOM.IRQ_CAUSE.cap_closed n) = 1 ∧
      (e.cap n).closing = none) ∧
  (∀ (s : State) (n : LoomId), let x := s.dev.cap n
    s.dev.capState n = 4 → x.closing = none → x.held = none →
    Leads s (.rearmComplete n) fun e => e.capState n = 2 ∧ (e.cap n).desc = x.desc ∧ (e.cap n).exchange = x.exchNext ∧ (e.cap n).written = 0 ∧
      e.rd (Reg.LOOM.CAP_INDEX.capture n) = (s.dev.rd (Reg.LOOM.CAP_INDEX.capture n) + 1) % 2 ^ 16 ∧ e.rd (Reg.LOOM.CAP_SLOT.slot n) = 0 ∧
      Keeps s.dev e [Reg.LOOM.CAP_STATUS.state n, Reg.LOOM.CAP_INDEX.capture n, Reg.LOOM.CAP_SLOT.slot n])

/-- R330, R338, R339, R347 to R351, R356: a Mill beside its operations. The owner starts an idle Mill at an entry, with every
register of R330 cleared; a stop from any master ends the kernel with cause 1, and IDLE follows when its writes have completed;
a start that waits is made when the Mill is idle; a spare on the calibration bus gives its lane its code, or the mark of a bus in
use; a sample of an enabled lane enters its ring while it has room, and is dropped and counted otherwise; the window writes a data word. -/
def Obligations.MillControl : Prop :=
  (∀ (s : State) (m : Master) (n : LoomId) (entry : BitVec 11), s.dev.owns m (16 + n) = true → (s.dev.mill n).state = 0 → s.dev.unit (kMill n) = .on →
    Leads s (.millCmdStart m n entry false) fun e => e = { s.dev with mills := e.mills } ∧
      (let x := e.mill n; x.state = 2 ∧ x.pc = entry.toNat ∧ x.a = 0 ∧ x.steps = 0 ∧ x.gaddr = 0 ∧ x.status = 0 ∧ x.loop0 = none ∧ x.loop1 = none ∧
        (∀ j, x.vr j = 0) ∧ (∀ g, x.ag g = { base := 0, length := 32768, index := 0, step := 1, mod := 0 }) ∧ x.dm = (s.dev.mill n).dm ∧ x.pm = (s.dev.mill n).pm)) ∧
  (∀ (s : State) (m : Master) (n : LoomId) (entry : BitVec 11), s.dev.owns m (16 + n) = false →
    Leads s (.millCmdStart m n entry false) fun e => e.rd (Reg.LOOM.MILL_STATE.start_reject n) = 1 ∧ e.rd (Reg.LOOM.MILL_STATE.reject_code n) = 1 ∧
      e.mills = s.dev.mills ∧ Keeps s.dev e [Reg.LOOM.MILL_STATE.start_reject n, Reg.LOOM.MILL_STATE.reject_code n]) ∧
  (∀ (s : State) (m : Master) (n : LoomId), (s.dev.mill n).state = 2 → (s.dev.mill n).ended = false →
    Leads s (.millCmdStop m n) fun e => e = { s.dev with mills := e.mills } ∧ (e.mill n).ended = true ∧ (e.mill n).cause = 1) ∧
  (∀ (s : State) (n : LoomId), (s.dev.mill n).ended = true → (s.dev.mill n).posted = 0 → (s.dev.mill n).cause = 0 →
    Leads s (.millIdle n) fun e => (e.mill n).state = 0 ∧ (e.mill n).ended = false ∧ e.rd (Reg.LOOM.IRQ_CAUSE.mill_idle n) = 1 ∧
      regsKept s.dev e [Reg.LOOM.IRQ_CAUSE.mill_idle n] ∧ bytesKept s.dev e ∧
      (∀ (c : CtxId) (d : BitVec 4), (s.dev.ctx c).state = .waiting → (s.dev.ctx c).rel = .none → (s.dev.ctx c).wait = .mwait n d →
        (e.ctx c).rel = .value (BitVec.ofNat 24 (s.dev.mill n).status))) ∧
  (∀ (s : State) (n : LoomId) (c : CtxId) (rest : List Nat) (entry : BitVec 11), (s.dev.mill n).queue = c.val :: rest → (s.dev.mill n).state = 0 →
    s.dev.unit (kMill n) = .on → (s.dev.ctx c).wait = .mstart n entry → (s.dev.ctx c).state = .waiting → (s.dev.ctx c).rel = .none →
    Leads s (.queuedMillStart n) fun e => (e.mill n).state = 2 ∧ (e.mill n).pc = entry.toNat ∧ (e.mill n).queue = rest ∧ (e.ctx c).rel = .done ∧
      regsKept s.dev e [] ∧ bytesKept s.dev e) ∧
  (∀ (s : State) (n : LoomId) (a : Nat) (c : CtxId) (h : MHead) (r : ImageRead), r.gran = .good → s.dev.mayAccess (millPart n) = true → (s.dev.mill n).load = some (a, c.val) →
    (s.dev.ctx c).state = .waiting → (s.dev.ctx c).wait = .mloading n → (s.dev.ctx c).rel = .none →
    a % 32 = 0 → s.dev.clean a 32 = true → millHead (leVal (s.dev.bytesAt a 32)) = some h → a + 32 + 3 * (h.nOp + h.nD) ≤ 2 ^ 33 →
    s.dev.clean (a + 32) (3 * (h.nOp + h.nD)) = true →
    Leads s (.millImageLoaded n r) fun e => (e.mill n).state = 0 ∧ (e.mill n).mask = h.mask ∧ (e.mill n).lg = h.lg ∧ (e.mill n).hist = h.hist ∧
      (e.mill n).cause = 0 ∧ (∀ k ∈ r.pm, Tab.get false (e.mill n).pmErr k.toNat = true) ∧ (e.ctx c).rel = .done ∧ bytesKept s.dev e) ∧
  (∀ (s : State) (n : LoomId) (src : Fin 34) (code : BitVec 24), let x := s.dev.mill n
    let q := x.slotOf src
    let av := Tab.get 0 x.avail q
    x.state = 2 → x.wait = .none → x.ended = false → bit x.mask.toNat src = true → x.feed = [(src.val, code)] →
    Leads s (.millLaneSample n src code) fun e =>
      (av + x.hist < 2 ^ x.lg → Tab.get 0 (e.mill n).avail q = av + 1 ∧ Tab.get 0 (e.mill n).row q = Tab.get 0 x.row q + 1 ∧
        (e.mill n).word ((x.inBase + Tab.get 0 x.row q % 2 ^ x.lg * lanesOf x.mask + q) % 32768) = code) ∧
      (2 ^ x.lg ≤ av + x.hist → (e.mill n) = { x with inDrop := true, feed := [] } ∧
        e.rd (Reg.LOOM.MILL_DROP.count n) = min (s.dev.rd (Reg.LOOM.MILL_DROP.count n) + 1) (2 ^ (Reg.LOOM.MILL_DROP.count n).w - 1)) ∧
      Keeps s.dev e [Reg.LOOM.MILL_PEAK.peak n, Reg.LOOM.MILL_DROP.count n]) ∧
  (∀ (s : State) (n : LoomId) (s33 : Bool) (code : BitVec 24), let x := s.dev.mill n
    let src := if s33 then 33 else 32
    (s.dev.spareServes n s33 = false ∨ s.dev.spareMoves n src = true) → x.state = 2 → x.ended = false → bit x.mask.toNat src = true →
    Leads s (.spareConversion n s33 code) fun e => Keeps s.dev e [] ∧
      e.mill n = (if s.dev.busInUse n src then { x with calBus := true, feed := x.feed ++ [(src, 0x800000)] } else { x with feed := x.feed ++ [(src, code)] })) ∧
  (∀ (s : State) (m : Master) (i : Fin 8192) (v : BitVec 32) (n : LoomId), s.dev.rd (Reg.GLB_MILL_SEL.loom (masterCode m)) = n.val →
    s.dev.rd (Reg.GLB_MILL_SEL.page (masterCode m)) < 4 → s.dev.owns m (16 + n) = true →
    Leads s (.millWindowWrite m i v) fun e => e = { s.dev with mills := e.mills } ∧
      (e.mill n).word (8192 * s.dev.rd (Reg.GLB_MILL_SEL.page (masterCode m)) + i) = v.setWidth 24 ∧
      (e.mill n).good (8192 * s.dev.rd (Reg.GLB_MILL_SEL.page (masterCode m)) + i) = true)

/-- R331 to R333, R341: the Mill's arithmetic into the accumulator. A product of two words, or of a word and a value register,
is exact; MAC adds it, MSU subtracts it and MPY loads it, held within 56 bits with acc_sat. AADD and ALD take a value register
shifted left. ALDM and ASAV move all 56 bits through three words. -/
def Obligations.MillAccumulator : Prop :=
  (∀ q ∈ [(Instr.millMac, fun (a p : Int) => a + p), (Instr.millMsu, fun a p => a - p), (Instr.millMpy, fun _ p => p)],
    MillDoes q.1 (fun x w => opBits w 15 2 != 3 && opBits w 14 1 == 0 && opBits w 13 1 == 0 && opBits w 9 2 != 3 && opBits w 0 9 == 0 &&
        x.good (x.agAddr (opBits w 17 2) 0) && x.good (x.agAddr (opBits w 11 2) 0)) 1
      (fun x w => ((accTo x (q.2 x.a ((x.word (x.agAddr (opBits w 17 2) 0)).toInt * (x.word (x.agAddr (opBits w 11 2) 0)).toInt))).update
        (opBits w 17 2) (opBits w 15 2)).update (opBits w 11 2) (opBits w 9 2)) ∧
    MillDoes q.1 (fun x w => opBits w 15 2 != 3 && opBits w 14 1 == 1 && opBits w 9 2 == 0 && opBits w 0 9 == 0 && x.good (x.agAddr (opBits w 17 2) 0)) 1
      (fun x w => (accTo x (q.2 x.a ((x.word (x.agAddr (opBits w 17 2) 0)).toInt * (x.vr (opBits w 11 3)).toInt))).update (opBits w 17 2) (opBits w 15 2))) ∧
  MillDoes .millNop (fun _ w => w == 0) 1 (fun x _ => x) ∧
  MillDoes .millAadd (fun _ w => opBits w 0 11 == 0) 1 (fun x w => accTo x (x.a + (x.vr (opBits w 16 3)).toInt * 2 ^ opBits w 11 5)) ∧
  MillDoes .millAld (fun _ w => opBits w 0 11 == 0) 1 (fun x w => accTo x ((x.vr (opBits w 16 3)).toInt * 2 ^ opBits w 11 5)) ∧
  MillDoes .millAldm (fun x w => opBits w 15 2 != 3 && opBits w 0 15 == 0 && (List.range 3).all fun k => x.good (x.agAddr (opBits w 17 2) k)) 2
    (fun x w =>
      let g := opBits w 17 2
      let v : BitVec 56 := (x.word (x.agAddr g 2)).extractLsb' 0 8 ++ (x.word (x.agAddr g 1)) ++ (x.word (x.agAddr g 0))
      { x with a := v.toInt }.update g (opBits w 15 2)) ∧
  MillDoes .millAsav (fun x w => opBits w 15 2 != 3 && opBits w 0 15 == 0 && decide (-(2 ^ 55) ≤ x.a) && decide (x.a < 2 ^ 55)) 3
    (fun x w =>
      let g := opBits w 17 2
      let v := BitVec.ofInt 72 x.a
      (((x.setWord (x.agAddr g 0) (v.extractLsb' 0 24)).setWord (x.agAddr g 1) (v.extractLsb' 24 24)).setWord (x.agAddr g 2) (v.extractLsb' 48 24)).update g (opBits w 15 2))

/-- R332, R334, R341, R345: value registers, data words, and results out of the accumulator. ARD shifts A right, rounded half
away from zero where asked, holds it within 24 bits with sat, and clears A where asked; a word handed to a capture unit that
takes none is discarded and counted. A post-update moves an index by its step or its modifier, modulo the length. -/
def Obligations.MillValues : Prop :=
  MillDoes .millArd (fun _ w => opBits w 11 2 == 0 && opBits w 6 2 == 0 && opBits w 0 5 == 0) 1
    (fun x w =>
      let y := ardValue x.a (opBits w 14 5) (opBits w 13 1 == 1)
      let c := max (-8388608) (min 8388607 y)
      { x with sat := x.sat || c != y, a := if opBits w 5 1 = 1 then 0 else x.a }.setV (opBits w 8 3) (BitVec.ofInt 24 c)) ∧
  MillDoes .millArd (fun _ w => opBits w 11 2 == 1 && opBits w 10 1 == 0 && opBits w 6 2 != 3 && opBits w 0 5 == 0) 1
    (fun x w =>
      let y := ardValue x.a (opBits w 14 5) (opBits w 13 1 == 1)
      let c := max (-8388608) (min 8388607 y)
      let z := { x with sat := x.sat || c != y, a := if opBits w 5 1 = 1 then 0 else x.a }
      (z.setWord (x.agAddr (opBits w 8 2) 0) (BitVec.ofInt 24 c)).update (opBits w 8 2) (opBits w 6 2)) ∧
  (∀ (s : State) (n : LoomId) (w : BitVec 19), s.dev.millRuns n = true → opBits w 11 2 = 2 → opBits w 6 5 = 0 → opBits w 0 5 = 0 → s.dev.capBusy n = false →
    Leads s (.millArd n w) fun e => (e.mill n).outDisc = true ∧ (e.mill n).steps = ((s.dev.mill n).steps + 1) % 2 ^ 48 ∧ Keeps s.dev e [Reg.LOOM.MILL_DISC.count n]) ∧
  MillDoes .millVld (fun x w => opBits w 12 2 != 3 && opBits w 0 12 == 0 && x.good (x.agAddr (opBits w 14 2) 0)) 1
    (fun x w =>
      let v := x.word (x.agAddr (opBits w 14 2) 0)
      { x.setV (opBits w 16 3) v with z := v == 0, neg := v.msb }.update (opBits w 14 2) (opBits w 12 2)) ∧
  MillDoes .millVst (fun _ w => opBits w 12 2 != 3 && opBits w 0 12 == 0) 1
    (fun x w => (x.setWord (x.agAddr (opBits w 14 2) 0) (x.vr (opBits w 16 3))).update (opBits w 14 2) (opBits w 12 2)) ∧
  MillDoes .millVset (fun _ _ => true) 1
    (fun x w => let v : BitVec 24 := (w.extractLsb' 0 16).signExtend 24; { x.setV (opBits w 16 3) v with z := v == 0, neg := v.msb }) ∧
  MillDoes .millVseth (fun _ w => opBits w 8 8 == 0) 1
    (fun x w => x.setV (opBits w 16 3) (w.extractLsb' 0 8 ++ (x.vr (opBits w 16 3)).extractLsb' 0 16)) ∧
  MillDoes .millVaddi (fun _ _ => true) 1
    (fun x w =>
      let v := x.vr (opBits w 16 3) + (w.extractLsb' 0 16).signExtend 24
      { x.setV (opBits w 16 3) v with z := v == 0, neg := v.msb }) ∧
  MillDoes .millValu (fun _ w => opBits w 0 9 == 0 && opBits w 9 4 < 11) 1
    (fun x w =>
      let a := x.vr (opBits w 16 3)
      let b := x.vr (opBits w 13 3)
      let r : BitVec 24 := [a + b, a - b, a &&& b, a ||| b, a ^^^ b, b, (if a.toInt < b.toInt then a else b), (if a.toInt < b.toInt then b else a), a - b,
        a <<< (b.toNat % 32), BitVec.ofInt 24 (a.toInt / 2 ^ (b.toNat % 32))].getD (opBits w 9 4) 0
      let y := if opBits w 9 4 = 8 then x else x.setV (opBits w 16 3) r
      { y with z := r == 0, neg := r.msb }) ∧
  (∀ (x : Mill) (g : Nat), (x.ag g).length ≠ 0 → x.agAddr g 0 = ((x.ag g).base + (x.ag g).index) % 32768 ∧
    ((x.update g 1).ag g).index = (((x.ag g).index + (x.ag g).step) % ((x.ag g).length : Int)).toNat ∧
    ((x.update g 2).ag g).index = (((x.ag g).index + (x.ag g).mod) % ((x.ag g).length : Int)).toNat ∧ x.update g 0 = x)

/-- R330, R333, R334, R340 to R342: address generators, jumps, loops and the end. A JMP whose condition holds goes to its target
and leaves every loop outside it; a LOOP is set up with a count of at least 1, and an active level again ends the kernel with
cause 2, as an undefined opcode does; HALT ends it with cause 0 and its code. -/
def Obligations.MillFlow : Prop :=
  MillDoes .millAgset (fun _ w => opBits w 15 2 == 0) 1 (fun x w => x.setAg (opBits w 17 2) { x.ag (opBits w 17 2) with base := opBits w 0 15 }) ∧
  MillDoes .millAgset (fun _ w => opBits w 15 2 == 1) 1 (fun x w => x.setAg (opBits w 17 2) { x.ag (opBits w 17 2) with length := opBits w 0 15 + 1 }) ∧
  MillDoes .millAgset (fun x w => opBits w 15 2 == 2 && opBits w 0 15 < (x.ag (opBits w 17 2)).length) 1
    (fun x w => x.setAg (opBits w 17 2) { x.ag (opBits w 17 2) with index := opBits w 0 15 }) ∧
  MillDoes .millAgset (fun _ w => opBits w 15 2 == 3) 1
    (fun x w => x.setAg (opBits w 17 2) { x.ag (opBits w 17 2) with step := (BitVec.ofNat 15 (opBits w 0 15)).toInt }) ∧
  MillDoes .millAgmod (fun _ w => opBits w 15 2 == 0) 1
    (fun x w => x.setAg (opBits w 17 2) { x.ag (opBits w 17 2) with mod := (BitVec.ofNat 15 (opBits w 0 15)).toInt }) ∧
  MillDoes .millAgmov (fun _ w => opBits w 0 11 == 0 && opBits w 14 3 == 0) 1
    (fun x w => x.setAg (opBits w 17 2) { x.ag (opBits w 17 2) with base := (x.vr (opBits w 11 3)).toNat % 2 ^ 15 }) ∧
  MillDoes .millAgstep (fun _ w => opBits w 0 15 == 0 && (opBits w 15 2 == 1 || opBits w 15 2 == 2)) 1 (fun x w => x.update (opBits w 17 2) (opBits w 15 2)) ∧
  (∀ (s : State) (n : LoomId) (w : BitVec 19), let x := s.dev.mill n
    s.dev.millRuns n = true → opBits w 11 5 = 0 → x.loop0 = none → x.loop1 = none →
    (match opBits w 16 3 with | 0 => True | 1 => x.z = true | 2 => x.z = false | 3 => x.neg = true | 4 => x.neg = false | 5 => x.a < 0 | 6 => 0 < x.a | _ => x.a = 0) →
    Leads s (.millJmp n w) fun e => e.mill n = { x with pc := opBits w 0 11, steps := (x.steps + 1) % 2 ^ 48 } ∧ Keeps s.dev e []) ∧
  MillDoes .millJmp (fun x w => opBits w 11 5 == 0 && ((opBits w 16 3 == 1 && !x.z) || (opBits w 16 3 == 2 && x.z) || (opBits w 16 3 == 5 && decide (0 ≤ x.a)))) 1 (fun x _ => x) ∧
  MillDoes .millLoop (fun x w => opBits w 18 1 == 0 && opBits w 17 1 == 0 && x.loop0.isNone && x.loop1.isNone) 1
    (fun x w => { x with loop0 := some { count := max 1 (opBits w 0 10), first := x.pc + 1, last := x.pc + opBits w 10 7 + 1 } }) ∧
  (∀ (s : State) (n : LoomId) (w : BitVec 19), s.dev.millRuns n = true → opBits w 18 1 = 0 → opBits w 17 1 = 0 → (s.dev.mill n).loop0 ≠ none →
    Leads s (.millLoop n w) fun e => (e.mill n).ended = true ∧ (e.mill n).cause = 2 ∧ Keeps s.dev e []) ∧
  (∀ (s : State) (n : LoomId) (w : BitVec 19), s.dev.millRuns n = true → opBits w 8 11 = 0 →
    Leads s (.millHalt n w) fun e => (e.mill n).ended = true ∧ (e.mill n).cause = 0 ∧ (e.mill n).code = opBits w 0 8 ∧ (e.mill n).pc = (s.dev.mill n).pc ∧ Keeps s.dev e []) ∧
  (∀ (s : State) (n : LoomId) (w : BitVec 24), s.dev.millRuns n = true → (w.toNat < 2 ^ 19 ∨ 0x1D * 2 ^ 19 ≤ w.toNat) →
    Leads s (.millUndefinedOperation n w) fun e => (e.mill n).ended = true ∧ (e.mill n).cause = 2 ∧ e = { s.dev with mills := e.mills })

/-- R341, R343 to R345: inputs, the Granary and the trigger. WAITIN waits until its slots hold n samples, and takes them; GADR
sets the address from two registers; GWR posts words at it where its loom's shared credits hold them, and ends the kernel with cause 3 where they pass the Granary; GRD
waits for its words, which arrive in order; GSYNC waits for posted writes; TRIG reaches the capture unit. -/
def Obligations.MillInputsAndGranary : Prop :=
  (∀ (s : State) (n : LoomId) (w : BitVec 19), let x := s.dev.mill n
    let k := max 1 (opBits w 0 12)
    let q := opBits w 12 6
    s.dev.millRuns n = true → opBits w 18 1 = 0 → q < lanesOf x.mask → k + x.hist ≤ 2 ^ x.lg →
    Leads s (.millWaitin n w) fun e => Keeps s.dev e [] ∧
      (Tab.get 0 x.avail q < k → e.mill n = { x with state := 3, wait := .waitin false q k, steps := (x.steps + 1) % 2 ^ 48 }) ∧
      (k ≤ Tab.get 0 x.avail q → Tab.get 0 (e.mill n).avail q = Tab.get 0 x.avail q - k ∧ (e.mill n).wait = .none)) ∧
  MillDoes .millGadr (fun _ w => opBits w 0 13 == 0) 1
    (fun x w => { x with gaddr := (x.vr (opBits w 16 3)).toNat % 512 * 2 ^ 24 + (x.vr (opBits w 13 3)).toNat }) ∧
  (∀ (s : State) (n : LoomId) (w : BitVec 19), let x := s.dev.mill n
    let v := x.word (x.agAddr (opBits w 17 2) 0)
    s.dev.millRuns n = true → opBits w 0 15 = 0 → opBits w 15 2 ≠ 3 → x.gaddr + 3 ≤ 2 ^ 33 → x.good (x.agAddr (opBits w 17 2) 0) = true →
    s.dev.mayAccessAll (millPart n) (linesOf x.gaddr 3) = true → s.dev.clean x.gaddr 3 = true → s.dev.offTable x.gaddr 3 = true →
    Leads s (.millGwr n w) fun e => e.bytesAt x.gaddr 3 = leBytes 3 v.toNat ∧ bytesKeptBut s.dev e x.gaddr 3 ∧ regsKept s.dev e (accessPeaks (millPart n)) ∧
      ctxsKept s.dev e ∧ (e.mill n).gaddr = (x.gaddr + 3) % 2 ^ 33 ∧ x.posted < (e.mill n).posted) ∧
  (∀ (s : State) (n : LoomId) (w : BitVec 19), let x := s.dev.mill n
    s.dev.millRuns n = true → opBits w 15 2 ≠ 3 → opBits w 0 7 = 0 → 2 ^ 33 < x.gaddr + 3 * (opBits w 7 8 + 1) →
    Leads s (.millGwr n w) (fun e => (e.mill n).ended = true ∧ (e.mill n).cause = 3 ∧ Keeps s.dev e []) ∧
    Leads s (.millGrd n w) (fun e => (e.mill n).ended = true ∧ (e.mill n).cause = 3 ∧ Keeps s.dev e [])) ∧
  (∀ (s : State) (n : LoomId) (w : BitVec 19), let x := s.dev.mill n
    let k := opBits w 7 8 + 1
    s.dev.millRuns n = true → opBits w 15 2 ≠ 3 → opBits w 0 7 = 0 → x.gaddr + 3 * k ≤ 2 ^ 33 →
    Leads s (.millGrd n w) fun e => e.mill n = { x with state := 3, wait := .grd (opBits w 17 2) (opBits w 15 2) k, steps := (x.steps + k) % 2 ^ 48 } ∧ Keeps s.dev e []) ∧
  (∀ (s : State) (n : LoomId) (g u : Nat), let x := s.dev.mill n
    x.state = 3 → x.ended = false → x.wait = .grd g u 1 → s.dev.mayAccess (millPart n) = true → s.dev.clean x.gaddr 3 = true →
    Leads s (.millGrdComplete n .good) fun e => (e.mill n).word (x.agAddr g 0) = BitVec.ofNat 24 (leVal (s.dev.bytesAt x.gaddr 3)) ∧
      (e.mill n).gaddr = (x.gaddr + 3) % 2 ^ 33 ∧ (e.mill n).wait = .none ∧ Keeps s.dev e (accessPeaks (millPart n))) ∧
  (∀ (s : State) (n : LoomId), let x := s.dev.mill n
    s.dev.millRuns n = true → x.posted ≠ 0 →
    Leads s (.millGsync n 0) fun e => e.mill n = { x with state := 3, wait := .gsync, steps := (x.steps + 1) % 2 ^ 48 } ∧ Keeps s.dev e []) ∧
  (∀ (s : State) (n : LoomId), s.dev.millRuns n = true → s.dev.capState n = 2 → (s.dev.cap n).closing = none → (s.dev.cap n).desc.trig.toNat % 16 = 6 →
    (s.dev.cap n).desc.occ ≤ (s.dev.cap n).seen + 1 → atOrAfter (s.dev.trigPlace n .mill 0) (s.dev.cap n).from_ = true →
    Leads s (.millTrig n 0) fun e => e.capState n = 3 ∧ ((e.cap n).trig.map (·.src)) = some 6 ∧ (e.mill n).steps = ((s.dev.mill n).steps + 1) % 2 ^ 48 ∧
      Keeps s.dev e [Reg.LOOM.CAP_STATUS.state n])

/-- R397: an access to an unimplemented slot, from any master, is a void access: a read returns 0, a write is ignored, and
either sets GLB_STATUS.void_access. A write of a part of the slot sets GLB_STATUS.size_reject beside it (R396). The access is
made where no earlier access of the same master holds it up, such as a held command of CTX_CMD (R626). -/
def Obligations.VoidAccess : Prop :=
  (∀ (s : State) (p : Port) (addr : BitVec 20) (k a : Nat) (v : BitVec 32) (be : BitVec 4), wordSlot addr.toNat k = some a → slotThere p a = false → s.dev.busBlocked p.master = false →
    Leads s (.registerWrite p addr k v be) fun e => e.rd Reg.GLB_STATUS.void_access = 1 ∧ (be ≠ 0xF → e.rd Reg.GLB_STATUS.size_reject = 1) ∧
      Keeps s.dev e ((if be = 0xF then [] else [Reg.GLB_STATUS.size_reject]) ++ [Reg.GLB_STATUS.void_access]) ∧
      e = { s.dev with regs := e.regs, pcie := e.pcie }) ∧
  (∀ (s : State) (p : Port) (addr : BitVec 20) (k a : Nat), wordSlot addr.toNat k = some a → slotThere p a = false → s.dev.busBlocked p.master = false →
    Leads s (.rcRegisterRead p addr k) fun e => (Tab.get {} e.ports (portKey p)).data = 0 ∧ e.rd Reg.GLB_STATUS.void_access = 1 ∧
      Keeps s.dev e [Reg.GLB_STATUS.void_access]) ∧
  (∀ (s : State) (p : Port) (addr : BitVec 20), slotThere p (addr.toNat / 4 * 4) = false → s.dev.busBlocked p.master = false →
    Leads s (.wideLowSlotRead p addr) fun e => (Tab.get {} e.ports (portKey p)).data = 0 ∧ e.rd Reg.GLB_STATUS.void_access = 1 ∧
      Keeps s.dev e [Reg.GLB_STATUS.void_access]) ∧
  (∀ (s : State) (c : CtxId) (i : RRX), let x := s.dev.ctx c
    s.dev.runs c 2 = true → i.x = true → i.d ≠ i.s → x.regGrant = true → i.ext.toNat < 2 ^ 20 → i.ext.toNat % 4 = 0 →
    slotThere (.ctx c) i.ext.toNat = false → s.dev.busBlocked .core = false →
    Leads s (.rdreg c i) fun e => e.ctx c = ((x.setW i.d.toNat 0).setW i.s.toNat 0).onward 2 ∧ e.rd Reg.GLB_STATUS.void_access = 1 ∧
      regsKept s.dev e [Reg.GLB_STATUS.void_access] ∧ (∀ k, k ≠ c.val → e.ctx k = s.dev.ctx k) ∧ bytesKept s.dev e) ∧
  (∀ (s : State) (c : CtxId) (i : RRX), let x := s.dev.ctx c
    s.dev.runs c 2 = true → i.x = true → x.regGrant = true → i.ext.toNat < 2 ^ 20 → i.ext.toNat % 4 = 0 → slotThere (.ctx c) i.ext.toNat = false →
    s.dev.busBlocked .core = false →
    Leads s (.wrreg c i) fun e => e.ctx c = (x.setC false).onward 2 ∧ e.rd Reg.GLB_STATUS.void_access = 1 ∧
      regsKept s.dev e [Reg.GLB_STATUS.void_access] ∧ (∀ k, k ≠ c.val → e.ctx k = s.dev.ctx k) ∧ bytesKept s.dev e)

/-- R13, R15, R18, R126, R139, R140, R144, R145, R249 to R251, R257, R270, R396: register accesses and the windows. A part of a slot
is not written. A read of an implemented slot hands its value to its port and leaves its RC fields 0, or a peak at what stands now,
and the low slot of a wide quantity snaps it; each where no earlier access of the same master holds it up (R626), behind which it
waits, and is made in its order. The context window
writes the record of a CLAIMED, PARKED or HALTED context; the site window and the channel map change where no context of the site
is active. A segment descriptor is stored in one step, by its 16 bytes or through the window, and one that breaks a rule is stored
not valid; the base of the table moves while every pattern path is OFF. -/
def Obligations.RegisterAccess : Prop :=
  (∀ (s : State) (p : Port) (addr : BitVec 20) (v : BitVec 32) (be : BitVec 4), be ≠ 0xF → s.dev.busBlocked p.master = false →
    Leads s (.registerWrite p addr 0 v be) fun e => e.rd Reg.GLB_STATUS.size_reject = 1 ∧ Keeps s.dev e [Reg.GLB_STATUS.size_reject, Reg.GLB_STATUS.void_access]) ∧
  (∀ (s : State) (p : Port) (addr : BitVec 20), slotThere p (addr.toNat / 4 * 4) = true → s.dev.busBlocked p.master = false →
    Leads s (.rcRegisterRead p addr 0) fun e => (Tab.get {} e.ports (portKey p)).data = BitVec.ofNat 32 (s.dev.value p (addr.toNat / 4 * 4)) ∧
      (∀ f ∈ narrowAt (masterCode p.master) (addr.toNat / 4 * 4), f.acc = .rc → e.rd f = s.dev.rcLeft f % 2 ^ f.w) ∧ ctxsKept s.dev e ∧ bytesKept s.dev e) ∧
  (∀ (s : State) (p : Port) (addr : BitVec 20) (v : Nat), slotThere p (addr.toNat / 4 * 4) = true → s.dev.busBlocked p.master = false →
    (addr.toNat / 4 * 4 < 0xE0000 ∨ 0xE6000 ≤ addr.toNat / 4 * 4) → s.dev.wideAt p (addr.toNat / 4 * 4) = some v →
    Leads s (.wideLowSlotRead p addr) fun e => (Tab.get {} e.ports (portKey p)).snap = some (addr.toNat / 4 * 4, v) ∧
      (Tab.get {} e.ports (portKey p)).data = BitVec.ofNat 32 (s.dev.value p (addr.toNat / 4 * 4))) ∧
  (∀ (s : State) (p : Port) (v : BitVec 32), let c := s.dev.rd (Reg.CTX_SEL.context (masterCode p.master))
    s.dev.busBlocked p.master = false → s.dev.owns p.master 1 = true → ((s.dev.ctx c).state = .claimed ∨ (s.dev.ctx c).state = .parked ∨ (s.dev.ctx c).state = .halted) →
    Leads s (.contextWindowWrite p 20 v) fun e => (e.ctx c).pc = v.setWidth 24 ∧ (e.ctx c).flags = v.extractLsb' 24 6 ∧
      (∀ i < 16, (e.ctx c).rw i = (s.dev.ctx c).rw i) ∧ (∀ i < 4, (e.ctx c).ra i = (s.dev.ctx c).ra i) ∧ (e.ctx c).state = (s.dev.ctx c).state ∧
      (∀ k, k ≠ c → e.ctx k = s.dev.ctx k) ∧ bytesKept s.dev e ∧ regsKept s.dev e []) ∧
  (∀ (s : State) (p : Port) (v : BitVec 32), let c := s.dev.rd (Reg.CTX_SEL.context (masterCode p.master))
    s.dev.busBlocked p.master = false → s.dev.owns p.master 1 = true → (s.dev.ctx c).state = .ready → recWrite (s.dev.ctx c) 20 v.toNat ≠ s.dev.ctx c →
    Leads s (.contextWindowWrite p 20 v) fun e => e.rd Reg.CTX_STATUS.write_reject = 1 ∧ Keeps s.dev e [Reg.CTX_STATUS.write_reject]) ∧
  (∀ (s : State) (p : Port) (v : BitVec 32), let i := s.dev.rd (Reg.SITE_SEL.site (masterCode p.master))
    s.dev.busBlocked p.master = false → s.dev.owns p.master 1 = true → s.dev.siteBusy i = 0 →
    Leads s (.siteWindowWrite p 0 v) fun e => e.site i = { s.dev.site i with valid := v.getLsbD 0 } ∧ (∀ k, k ≠ i → e.site k = s.dev.site k) ∧ Keeps s.dev e []) ∧
  (∀ (s : State) (p : Port) (c : Fin 768) (v : BitVec 32), s.dev.busBlocked p.master = false → s.dev.owns p.master 1 = true → (∀ i, s.dev.siteBusy i = 0) →
    Leads s (.siteMapWrite p c v) fun e => (∀ i, e.inSite c i = (v.getLsbD 15 && decide (v.toNat % 1024 = i))) ∧
      (∀ k i, k ≠ c.val → e.inSite k i = s.dev.inSite k i) ∧ Keeps s.dev e []) ∧
  (∀ (s : State) (m : Master) (slot : Fin 3) (v : BitVec 32), s.dev.busBlocked m = false →
    Leads s (.segtWinStageWrite m slot v) fun e => Tab.get none e.segw (4 * masterCode m + slot) = some v ∧ e = { s.dev with segw := e.segw }) ∧
  (∀ (s : State) (m : Master) (w0 w1 w2 w3 : BitVec 32), let a := s.dev.segBase + 16 * s.dev.rd (Reg.GLB_SEGT_SEL.segment (masterCode m))
    let k := 4 * masterCode m
    let v : BitVec 128 := w3 ++ w2 ++ w1 ++ w0
    s.dev.busBlocked m = false → s.dev.segBase < 2 ^ 33 → s.dev.rd (Reg.GLB_SEGT_SEL.segment (masterCode m)) < 32768 → s.dev.mayAccess .coreShuttle = true → s.dev.ecc (a / 32) = .good →
    Tab.get none s.dev.segw k = some w0 → Tab.get none s.dev.segw (k + 1) = some w1 → Tab.get none s.dev.segw (k + 2) = some w2 →
    (w3.getLsbD 8 = false ∨ descReason v.toNat = none) →
    Leads s (.segtWin3Write m w3) fun e => (∀ j < 16, e.byte (a + j) = v.extractLsb' (8 * j) 8) ∧ bytesKeptBut s.dev e a 16 ∧
      (∀ i < 3, Tab.get none e.segw (k + i) = none) ∧ Keeps { s.dev with gran := e.gran } e (accessPeaks .coreShuttle)) ∧
  (∀ (s : State) (m : Master) (v : BitVec 32), s.dev.busBlocked m = false → s.dev.mayAccess .coreShuttle = false →
    Leads s (.segtWin3Write m v) fun e =>
      (∃ h ∈ e.waiting .coreShuttle, h.ask = .cmd (.segtWin3Write m v) ∧ h.bus = some m) ∧ e.segw = s.dev.segw ∧ Keeps s.dev e []) ∧
  (∀ (s : State) (p : Port) (addr : BitVec 20) (k : Nat) (v : BitVec 32) (be : BitVec 4), s.dev.busBlocked p.master = true →
    ∀ i ∈ [Instr.registerWrite p addr k v be, Instr.rcRegisterRead p addr k, Instr.wideLowSlotRead p addr],
      Leads s i fun e => Tab.get [] e.waitBus (masterCode p.master) =
          Tab.get [] s.dev.waitBus (masterCode p.master) ++ [{ ask := .cmd i, q := .coreShuttle, ctx := none, bus := some p.master }] ∧
        e = { s.dev with waitBus := e.waitBus }) ∧
  (∀ (s : State) (m : Master) (v : BitVec 32), s.dev.owns m 0 = true → v.getLsbD 31 = false → v.toNat % 2 ^ 14 ≠ s.dev.rd Reg.GLB_SEGT_BASE.base →
    Leads s (.segtBaseWrite m v) fun e =>
      ((∀ n < 24, s.dev.unit (kPattern n) = .off) → e.rd Reg.GLB_SEGT_BASE.base = v.toNat % 2 ^ 14 ∧ (∀ n, (e.pat n).window = [] ∧ (e.pat n).loads = []) ∧
        Keeps s.dev e [Reg.GLB_SEGT_BASE.base]) ∧
      (∀ n < 24, s.dev.unit (kPattern n) ≠ .off → e.rd Reg.GLB_SEGT_BASE.base_reject = 1 ∧ Keeps s.dev e [Reg.GLB_SEGT_BASE.base_reject])) ∧
  (∀ (s : State) (src : DescSrc) (g : Fin 32768) (v : BitVec 128), let a := s.dev.segBase + 16 * g.val
    s.dev.segBase < 2 ^ 33 → s.dev.mayAccess (descPart src) = true → s.dev.ecc (a / 32) = .good →
    Leads s (.segmentDescriptorWrite src g v 0xFFFF) fun e => (∀ j < 16, j ≠ 13 → e.byte (a + j) = v.extractLsb' (8 * j) 8) ∧ bytesKeptBut s.dev e a 16 ∧
      ((v.getLsbD 104 = false ∨ descReason v.toNat = none) → e.byte (a + 13) = v.extractLsb' 104 8 ∧ Keeps { s.dev with gran := e.gran } e (accessPeaks (descPart src))) ∧
      (∀ r, v.getLsbD 104 = true → descReason v.toNat = some r → e.byte (a + 13) = v.extractLsb' 104 8 &&& 0xFE ∧
        e.rd Reg.GLB_SEGT_STATUS.refused = 1 ∧ e.rd Reg.GLB_SEGT_STATUS.reason = r ∧ e.rd Reg.GLB_SEGT_STATUS.last_seg = g.val ∧ ctxsKept s.dev e))

/-- R51 to R53, R58, R66, R67, R206: the enable bits of shuttles, pattern paths, Mills, captures, engines, DMA and monitors, and the
instruction caches. The owner turns an OFF unit ON; any other master is refused, and so is a 1 beside a 0 of the same arbitration
step; a drain asked for by any master turns an ON unit DRAINING, and OFF once it has reached its drain point. A missing line is
read into its shuttle's cache, and an invalidation empties it. -/
def Obligations.UnitsAndCaches : Prop :=
  (∀ (s : State) (p : Port) (u : UnitId), (∀ o, u ≠ .tap o) → u ≠ .scrub → s.dev.owns p.master (unitBlock u) = true → s.dev.unit (unitKey u) = .off →
    s.dev.safeBars = false →
    Leads s (.unitEnable p (.unit u false)) fun e => e.unit (unitKey u) = .on ∧ (∀ k, k ≠ unitKey u → e.unit k = s.dev.unit k) ∧ e = { s.dev with units := e.units }) ∧
  (∀ (s : State) (p : Port) (u : UnitId), (∀ o, u ≠ .tap o) → u ≠ .scrub → s.dev.unit (unitKey u) ≠ .on →
    (s.dev.owns p.master (unitBlock u) = false ∨ s.dev.unit (unitKey u) = .draining ∨ s.dev.unit (unitKey u) = .held ∨ s.dev.safeBars = true) →
    Leads s (.unitEnable p (.unit u false)) fun e => e.rd (unitReject u) = 1 ∧ e.units = s.dev.units ∧ Keeps s.dev e [unitReject u]) ∧
  (∀ (s : State) (p : Port) (u : UnitId), Leads s (.unitEnable p (.unit u true)) fun e => e.unit (unitKey u) ≠ .on ∧ e.rd (unitReject u) = 1) ∧
  (∀ (s : State) (p : Port) (id : MonId), let b := monIdBase id
    s.dev.rd (Reg.MON.STATE.state b) = 0 →
    Leads s (.unitEnable p (.mon id true)) fun e => e.rd (Reg.MON.STATE.state b) = 0 ∧ e.rd (Reg.MON.STATE.set_reject b) = 1 ∧
      e.rd (Reg.MON.STATE.reject_code b) = (if s.dev.owns p.master (loomBlock (monLoom id)) then 3 else 2) ∧
      Keeps s.dev e [Reg.MON.STATE.set_reject b, Reg.MON.STATE.reject_code b]) ∧
  (∀ (s : State) (p : Port) (n : Fin 24), s.dev.unit (kShuttle n) = .on →
    Leads s (.drainRequest p (.shuttle n)) fun e => e.unit (kShuttle n) = .draining ∧ e = { s.dev with units := e.units }) ∧
  (∀ (s : State) (p : Port) (i : Fin 8), s.dev.unit (kDma i) = .on →
    Leads s (.drainRequest p (.dma i)) fun e => e.unit (kDma i) = .draining ∧ (∀ k, k ≠ kDma i → e.unit k = s.dev.unit k) ∧ Keeps s.dev e []) ∧
  (∀ (s : State) (p : Port) (n : Fin 24), s.dev.unit (kPattern n) = .on → (∃ b, (s.dev.pat n).burst = some b ∧ b.ended = none ∧ b.started = true ∧ b.halt = none) →
    Leads s (.drainRequest p (.pattern n)) fun e => e.unit (kPattern n) = .draining ∧ (e.pat n).window = [] ∧ ((e.pat n).burst.map (·.halt)) = some (some 4) ∧
      Keeps s.dev e []) ∧
  (∀ (s : State) (u : UnitId), s.dev.unit (unitKey u) = .draining → s.dev.drained u = true →
    Leads s (.drainComplete u) fun e => e.unit (unitKey u) = .off ∧ (∀ k, k ≠ unitKey u → e.unit k = s.dev.unit k) ∧ bytesKept s.dev e ∧ regsKept s.dev e []) ∧
  (∀ (s : State) (sh : Fin 25) (c : Fin 10240) (evict l : Nat), (s.dev.ctx c).home.toNat = sh.val → (s.dev.ctx c).state = .ready → (s.dev.ctx c).slot.isSome = true →
    s.dev.shuttleRuns sh = true → s.dev.icacheMiss sh c = some l → s.dev.xipOff sh (64 * l) = none → s.dev.mayAccess (shuttlePart sh) = true → s.dev.clean (64 * l) 64 = true →
    Leads s (.icacheLineFill sh c evict) fun e => (Tab.get [] e.icache sh.val).head? = some (l, s.dev.lineAt l) ∧ (Tab.get [] e.icache sh.val).length ≤ (Tab.get [] s.dev.icache sh.val).length + 1 ∧
      (∀ k, k ≠ sh.val → Tab.get [] e.icache k = Tab.get [] s.dev.icache k) ∧ Keeps s.dev e (accessPeaks (shuttlePart sh))) ∧
  (∀ (s : State) (sh : Fin 25), Tab.get false s.dev.icacheBusy sh.val = true →
    Leads s (.icacheInvalidateComplete sh) fun e => Tab.get [] e.icache sh.val = [] ∧ Tab.get false e.icacheBusy sh.val = false ∧
      e = { s.dev with icache := e.icache, icacheBusy := e.icacheBusy }) ∧
  (∀ (s : State) (m : Master) (id : MonId) (v : BitVec 32), s.dev.owns m (loomBlock (monLoom id)) = true → s.dev.safeBars = false →
    s.dev.rd (Reg.MON.STATE.state (monIdBase id)) = 0 → v.getLsbD 0 = true → (∀ f ∈ monCtrlFields id, s.dev.rd f = bits v.toNat f.lo f.w) →
    Leads s (.monCtrlWrite m id v) fun e => e.rd (Reg.MON.STATE.state (monIdBase id)) = 1 ∧ Keeps s.dev e [Reg.MON.STATE.state (monIdBase id)]) ∧
  (∀ (s : State) (m : Master) (id : MonId) (v : BitVec 32), 1 ≤ s.dev.rd (Reg.MON.STATE.state (monIdBase id)) →
    s.dev.rd (Reg.MON.STATE.state (monIdBase id)) ≤ 4 → v.getLsbD 0 = false → (∀ f ∈ monCtrlFields id, s.dev.rd f = bits v.toNat f.lo f.w) →
    Leads s (.monCtrlWrite m id v) fun e => e.rd (Reg.MON.STATE.state (monIdBase id)) = 5 ∧ Keeps s.dev e [Reg.MON.STATE.state (monIdBase id)])

/-- R33, R37, R39, R57, R377, R378, R380, R381, R383, R480 to R482, R597: the Granary. A line access that finds a credit of its partition
takes it and is applied in one step; one that finds none waits in order, and goes on when a transaction completes.
Initialisation leaves zeros, opens the controller and moves stage TRAIN to VERIFY. The scrub goes on through its group of 256
lines, once the revisit queue is served; a line that it can correct it rewrites, and one with an uncorrectable half it leaves as it
is. A dump of calibration writes its image, and a load stages one that passes its checks. -/
def Obligations.Granary : Prop :=
  (∀ (s : State) (q : Partition) (line : BitVec 27) (data : BitVec 512), s.dev.granOpen = true → Tab.get [] s.dev.waitGran (partKey q) = [] →
    s.dev.inUseOf (partKey q) < partCredits q → s.dev.offTable (64 * line.toNat) 64 = true →
    Leads s (.granaryLineAccess q line (.write data (-1)) .good .good) fun e =>
      (∀ j < 64, e.byte (64 * line.toNat + j) = data.extractLsb' (8 * j) 8) ∧ bytesKeptBut s.dev e (64 * line.toNat) 64 ∧
      (∀ j < 2, e.ecc (2 * line.toNat + j) = .good) ∧ Tab.get 0 e.inUse (partKey q) = Tab.get 0 s.dev.inUse (partKey q) + 1 ∧ ctxsKept s.dev e) ∧
  (∀ (s : State) (q : Partition) (line : BitVec 27) (op : LineOp) (a b : Ecc), s.dev.granOpen = true → partCredits q ≤ s.dev.inUseOf (partKey q) →
    Leads s (.granaryLineAccess q line op a b) fun e =>
      (let h : Held := { ask := .cmd (.granaryLineAccess q line op a b), q := q }
       e.waiting q = (if s.dev.serves q then h :: s.dev.waiting q else s.dev.waiting q ++ [h])) ∧
      e.inUse = s.dev.inUse ∧ Keeps s.dev e []) ∧
  (∀ (s : State) (i : Fin 8), Tab.get [] s.dev.waitGran (partKey (.dma i)) = [] →
    Leads s (.granaryTransactionComplete (.dma i)) fun e => Tab.get 0 e.inUse (partKey (.dma i)) = Tab.get 0 s.dev.inUse (partKey (.dma i)) - 1 ∧
      e = { s.dev with inUse := e.inUse }) ∧
  (∀ (s : State) (i : Fin 8) (line : BitVec 27) (data : BitVec 512) (rest : List Held), s.dev.granOpen = true → s.dev.waitBus = [] →
    s.dev.waiting (.dma i) = { ask := .cmd (.granaryLineAccess (.dma i) line (.write data (-1)) .good .good), q := .dma i } :: rest →
    Tab.get 0 s.dev.inUse (partKey (.dma i)) = 56 → s.dev.offTable (64 * line.toNat) 64 = true →
    Leads s (.granaryTransactionComplete (.dma i)) fun e => e.waiting (.dma i) = rest ∧ Tab.get 0 e.inUse (partKey (.dma i)) = 56 ∧
      (∀ j < 64, e.byte (64 * line.toNat + j) = data.extractLsb' (8 * j) 8) ∧ bytesKeptBut s.dev e (64 * line.toNat) 64) ∧
  (∀ s : State, s.dev.boot.held = false → s.dev.rd Reg.GLB_UNIT_ENABLE.scrub_en = 1 → s.dev.unit kScrub = .off →
    Leads s .dramTrainingComplete fun e => e.gran = { s.dev.gran with trained := true } ∧ e.unit kScrub = .on ∧ e = { s.dev with gran := e.gran, units := e.units }) ∧
  (∀ s : State, s.dev.gran.trained = true → s.dev.granOpen = false → s.dev.waitGran = [] → s.dev.waitBus = [] → s.dev.rd Reg.SEC_STATUS.stage = 1 → s.dev.log.queue = [] →
    Leads s .granaryInitComplete fun e => e.granOpen = true ∧ (∀ a, e.byte a = 0) ∧ (∀ h, e.ecc h = .good) ∧ e.rd Reg.SEC_STATUS.stage = 2 ∧
      e.log.queue = [⟨0x01, s.dev.rd Reg.SEC_STATUS.reset_cause % 2 ^ 24, s.dev.reed.time⟩] ∧ ctxsKept s.dev e) ∧
  (∀ (s : State) (r : Fin 257), let l := s.dev.rd Reg.GLB_SCRUB_POS.line
    s.dev.unit kScrub = .on → s.dev.mayAccess .scrub = true → s.dev.gran.bad = [] → s.dev.gran.revisit = [] → l + 256 < 2 ^ 27 →
    Leads s (.scrubGroup ⟨r, []⟩) fun e => e.rd Reg.GLB_SCRUB_POS.line = l + min r.val (256 - l % 256) ∧
      Keeps s.dev e (Reg.GLB_SCRUB_POS.line :: accessPeaks .scrub) ∧ e.gran = s.dev.gran) ∧
  (∀ (s : State) (l : Nat) (rest : List Nat), s.dev.unit kScrub = .on → s.dev.mayAccess .scrub = true → s.dev.gran.revisit = l :: rest → s.dev.ecc (2 * l) = .corr →
    s.dev.ecc (2 * l + 1) = .good →
    Leads s .scrubRevisit fun e => e.gran.revisit = (if rest.length < 16 then rest ++ [l] else rest) ∧ e.ecc (2 * l) = .good ∧ e.ecc (2 * l + 1) = .good ∧
      e.rd Reg.GLB_GRAN_CE.count = min (s.dev.rd Reg.GLB_GRAN_CE.count + 1) (2 ^ Reg.GLB_GRAN_CE.count.w - 1) ∧ bytesKept s.dev e) ∧
  (∀ s : State, let a := 64 * s.dev.rd Reg.CAL_IMG.line
    let image := s.dev.calHead ++ s.dev.calHash ++ calRecords s.dev.cal.loomA s.dev.cal.coreA s.dev.cal.deskA
    s.dev.calState = 3 → s.dev.mayAccess .coreShuttle = true → a + calImageBytes ≤ 2 ^ 33 → s.dev.offTable a calImageBytes = true →
    Leads s .calDumpComplete fun e => (∀ j < calImageBytes, e.byte (a + j) = image.getD j 0) ∧ bytesKeptBut s.dev e a calImageBytes ∧ e.calState = 0 ∧
      e.rd Reg.CAL_STATUS.done = 1 ∧ e.cal = s.dev.cal ∧ regsKept s.dev e ([Reg.CAL_STATUS.state, Reg.CAL_STATUS.done] ++ accessPeaks .coreShuttle) ∧ ctxsKept s.dev e) ∧
  (∀ s : State, let a := 64 * s.dev.rd Reg.CAL_IMG.line
    s.dev.calState = 4 → s.dev.mayAccess .coreShuttle = true → s.dev.clean a (min calImageBytes (granSize - a)) = true →
    Leads s .calLoadComplete fun e => e.calState = 0 ∧ e.rd Reg.CAL_STATUS.done = 1 ∧
      match Dev.calCheck (s.dev.bytesAt a calImageBytes) true true (decide (a + calImageBytes ≤ 2 ^ 33)) with
      | .error k => e.rd Reg.CAL_IMG.load_code = k ∧ e.rd Reg.CAL_STATUS.load_reject = 1 ∧ e.cal = s.dev.cal ∧
          Keeps s.dev e ([Reg.CAL_STATUS.state, Reg.CAL_STATUS.done, Reg.CAL_STATUS.load_reject, Reg.CAL_IMG.load_code, Reg.LOG_STATUS.lost] ++ accessPeaks .coreShuttle)
      | .ok (looms, cores, desk) => e.cal.loomS = looms ∧ e.cal.coreS = cores ∧ e.cal.deskS = desk ∧ e.cal.coreA = s.dev.cal.coreA ∧
          e.rd Reg.CAL_STATUS.staged_dirty = 1 ∧
          Keeps s.dev e ([Reg.CAL_STATUS.state, Reg.CAL_STATUS.done, Reg.CAL_STATUS.staged_dirty, Reg.LOG_STATUS.lost] ++ accessPeaks .coreShuttle))

/-- R92, R94, R112, R123, R128 to R133, R136, R137, R493: what time does to contexts. A context that its wait has released becomes
READY past its instruction, with T for a time-out and the event in its registers; a wake time releases, and a deadline that
passes is counted and may park; a pending park takes effect at a pause point; a READY context takes a free slot, and its
quantum ends; a pause interval pauses the contexts of a shuttle that it applies to, and its end lets them go on. -/
def Obligations.ContextsInTime : Prop :=
  (∀ (s : State) (c : CtxId) (tmo : Bool), let x := s.dev.ctx c
    x.state = .waiting → x.wait = .event tmo → x.rel = .timeout → x.parkPend = false → x.killPend = false → x.dlPend = none → x.pausePend = false → x.paused = false →
    s.dev.exchHolds x = false → (s.dev.reed.counting = true → x.wakeTime ≠ s.dev.reed.time) → x.pc.toNat + 2 < 2 ^ 24 → (∀ k, k ≠ c.val → (s.dev.ctx k).rel = .none) →
    Leads s .contextRelease fun e => (e.ctx c).state = .ready ∧ (e.ctx c).fT = true ∧ (e.ctx c).pc = x.pc + (if x.waitX then 2 else 1) ∧ (e.ctx c).w = x.w ∧
      (e.ctx c).readySince = s.dev.reed.time ∧ (e.ctx c).wait = .none ∧ (∀ k, k ≠ c.val → e.ctx k = s.dev.ctx k) ∧ regsKept s.dev e [] ∧ bytesKept s.dev e) ∧
  (∀ (s : State) (c : CtxId) (code mask : BitVec 8) (d w : BitVec 4) (tmo : Bool) (ev : BitVec 8) (stamp : BitVec 48), let x := s.dev.ctx c
    x.state = .waiting → x.wait = .recv code mask d w tmo → x.rel = .event ev stamp → x.parkPend = false → x.killPend = false → x.dlPend = none →
    x.pausePend = false → x.paused = false → s.dev.exchHolds x = false → x.pc.toNat + 2 < 2 ^ 24 → d ≠ w → (∀ k, k ≠ c.val → (s.dev.ctx k).rel = .none) →
    Leads s .contextRelease fun e => (e.ctx c).state = .ready ∧ (e.ctx c).fT = false ∧ (e.ctx c).rw d.toNat = ev.setWidth 24 ∧
      (e.ctx c).rw w.toNat = stamp.setWidth 24 ∧ (e.ctx c).pc = x.pc + (if x.waitX then 2 else 1)) ∧
  (∀ (s : State) (c : CtxId), let x := s.dev.ctx c
    x.state = .waiting → x.wait = .time → x.rel = .none → s.dev.comesTo x.wakeTime = true →
    Leads s (.wakeTimeReached c) fun e => e.ctx c = { x with rel := .timeout } ∧ e.reed.time = x.wakeTime ∧ (∀ k, k ≠ c.val → e.ctx k = s.dev.ctx k) ∧ regsKept s.dev e [Reg.TH_PAUSED.ticks] ∧
      bytesKept s.dev e) ∧
  (∀ (s : State) (c : CtxId), let x := s.dev.ctx c
    x.deadline ≠ 0 → s.dev.comes (x.deadline.toNat + 1) = true → x.dlPark = true → (x.state = .ready ∨ x.state = .waiting) →
    Leads s (.deadlineMiss c) fun e => e.ctx c = { x with deadline := 0, dlPend := some (if x.dlResident then 2 else 1) } ∧
      e.rd Reg.CTX_DLMISS.count = min (s.dev.rd Reg.CTX_DLMISS.count + 1) (2 ^ Reg.CTX_DLMISS.count.w - 1) ∧
      (∀ k, k ≠ c.val → e.ctx k = s.dev.ctx k) ∧ regsKept s.dev e [Reg.CTX_DLMISS.count, Reg.TH_PAUSED.ticks] ∧ bytesKept s.dev e) ∧
  (∀ (s : State) (c : CtxId), let x := s.dev.ctx c
    x.state = .ready → x.wait = .none → x.parkPend = true → x.killPend = false →
    Leads s (.parkTakesEffect c) fun e => (e.ctx c).state = .parked ∧ (e.ctx c).fault = 0x0F0001 ∧ (e.ctx c).pc = x.pc ∧ (e.ctx c).w = x.w ∧
      (e.ctx c).parkPend = false ∧ e.rd Reg.CTX_PARKED.new = 1) ∧
  (∀ (s : State) (sh : Fin 25) (k : Fin 4) (c : Nat), (sh.val = 24 ∨ s.dev.unit (kShuttle sh) = .on) → s.dev.rivals sh = [(c, s.dev.ctx c)] → s.dev.inSlot sh k = none →
    Leads s (.residenceMove sh k) fun e => e.ctx c = { s.dev.ctx c with slot := some k, slotSince := s.dev.reed.time, leave := false, dlResident := true } ∧
      (∀ j, j ≠ c → e.ctx j = s.dev.ctx j) ∧ regsKept s.dev e [] ∧ bytesKept s.dev e) ∧
  (∀ (s : State) (sh : Fin 25) (y : Nat × Ctx), s.dev.inSlot sh 3 = some y → s.dev.rivals sh ≠ [] →
    s.dev.comes (y.2.slotSince.toNat + max (s.dev.rd Reg.CTX_QUANTUM.ticks) 1) = true →
    Leads s (.quantumExpiry sh) fun e => e.ctx y.1 = { s.dev.ctx y.1 with leave := true } ∧ (∀ j, j ≠ y.1 → e.ctx j = s.dev.ctx j) ∧ regsKept s.dev e [Reg.TH_PAUSED.ticks] ∧
      bytesKept s.dev e) ∧
  (∀ (s : State) (c : CtxId), let x := s.dev.ctx c
    x.state = .ready → x.wait = .none → x.paused = false → 0 < s.dev.pauseP x.home.toNat → s.dev.now % s.dev.pauseI = 0 →
    s.dev.therm.pauseAt ≠ some s.dev.reed.time →
    Leads s .pauseIntervalStart fun e => e.ctx c = { x with pausePend := true, paused := true } ∧ e.canIssue c = false ∧
      regsKept s.dev e [] ∧ bytesKept s.dev e) ∧
  (∀ (s : State) (sh : Fin 25) (t : Nat), s.dev.therm.pauseEnd = [(sh.val, t + 1)] → t < 2 ^ 48 → s.dev.comesTo (BitVec.ofNat 48 t) = true →
    Leads s .pauseIntervalEnd fun e => e.now = t ∧ (∀ c, (s.dev.ctx c).home.toNat = sh.val → e.ctx c = { s.dev.ctx c with pausePend := false, paused := false }) ∧
      (∀ c, (s.dev.ctx c).home.toNat ≠ sh.val → e.ctx c = s.dev.ctx c) ∧ regsKept s.dev e [Reg.TH_PAUSED.ticks] ∧ bytesKept s.dev e)

/-- R121 to R125, R143, R514, R518, R519, R530, R548, R626: the commands of CTX_CMD, for the context that the writer's CTX_SEL names,
with none in progress. The owner of block 1 claims a FREE context, starts a CLAIMED one from its record, and resumes a PARKED one
at its PC; any master asks for a park or a kill, which take effect at the next pause point. A refusal records its reason. Beside
them, class MACHINE: a machine check stops issue for a refill, after which the instruction enters its sequence by the dispatch entry
of its opcode and function; a second one faults its context, and a context-store error strikes its record. -/
def Obligations.ContextCommands : Prop :=
  (∀ (s : State) (m : Master), let c := s.dev.rd (Reg.CTX_SEL.context (masterCode m))
    s.dev.ctxCmd = [] → s.dev.busBlocked m = false → s.dev.owns m 1 = true → (s.dev.ctx c).state = .free →
    Leads s (.claim m false) fun e => e.ctx c = { s.dev.ctx c with state := .claimed } ∧ (∀ k, k ≠ c → e.ctx k = s.dev.ctx k) ∧
      e = { s.dev with ctxs := e.ctxs, ctxCmd := [⟨m, c, 1, false, some .free⟩] }) ∧
  (∀ (s : State) (m : Master), let c := s.dev.rd (Reg.CTX_SEL.context (masterCode m))
    let x := s.dev.ctx c
    s.dev.ctxCmd = [] → s.dev.busBlocked m = false → s.dev.owns m 1 = true → x.state = .claimed → x.home.toNat ≤ 24 → (s.dev.site x.site.toNat).valid = true →
    Leads s (.start m false) fun e => (e.ctx c).state = .ready ∧ (e.ctx c).pc = x.pc ∧ (e.ctx c).rw 0 = x.rw 0 ∧ (∀ i, i ≠ 0 → (e.ctx c).rw i = 0) ∧
      (e.ctx c).a = x.a ∧ (∀ i, (e.ctx c).rl i = 0) ∧ (e.ctx c).flags = 0 ∧ (e.ctx c).fault = 0 ∧ (e.ctx c).parent = 0x3FFF ∧ (e.ctx c).home = x.home ∧
      (e.ctx c).site = x.site ∧ (∀ k, k ≠ c → e.ctx k = s.dev.ctx k) ∧ regsKept s.dev e [] ∧ bytesKept s.dev e) ∧
  (∀ (s : State) (m : Master), let c := s.dev.rd (Reg.CTX_SEL.context (masterCode m))
    let x := s.dev.ctx c
    s.dev.ctxCmd = [] → s.dev.busBlocked m = false → s.dev.owns m 1 = true → x.state = .parked →
    Leads s (.resume m false) fun e => e.ctx c = { x with state := .ready, fault := 0, readySince := s.dev.reed.time, dlResident := x.slot.isSome, deadline := if x.dlInterval = 0 then x.deadline else BitVec.ofNat 48 (s.dev.now + x.dlInterval.toNat) } ∧
      e.rd Reg.CTX_PARKED.count = (s.dev.rd Reg.CTX_PARKED.count - 1) % 2 ^ Reg.CTX_PARKED.count.w ∧ (∀ k, k ≠ c → e.ctx k = s.dev.ctx k) ∧
      regsKept s.dev e [Reg.CTX_PARKED.count] ∧ bytesKept s.dev e) ∧
  (∀ (s : State) (m : Master), let c := s.dev.rd (Reg.CTX_SEL.context (masterCode m))
    s.dev.ctxCmd = [] → s.dev.busBlocked m = false → ((s.dev.ctx c).state = .ready ∨ (s.dev.ctx c).state = .waiting) →
    Leads s (.park m) (fun e => e.ctx c = { s.dev.ctx c with parkPend := true } ∧ (∀ k, k ≠ c → e.ctx k = s.dev.ctx k) ∧ regsKept s.dev e []) ∧
    Leads s (.kill m) (fun e => e.ctx c = { s.dev.ctx c with killPend := true } ∧ (∀ k, k ≠ c → e.ctx k = s.dev.ctx k) ∧ regsKept s.dev e [])) ∧
  (∀ (s : State) (m : Master), s.dev.ctxCmd = [] → s.dev.busBlocked m = false → s.dev.owns m 1 = false →
    ∀ i ∈ [Instr.claim m false, .start m false, .resume m false],
      Leads s i fun e => e.rd Reg.CTX_STATUS.cmd_reject = 1 ∧ e.rd Reg.CTX_STATUS.reject_code = 1 ∧ ctxsKept s.dev e ∧
        regsKept s.dev e [Reg.CTX_STATUS.cmd_reject, Reg.CTX_STATUS.reject_code]) ∧
  (∀ (s : State) (k : CtxCmd), s.dev.ctxCmd = [k] → s.dev.waitBus = [] → Leads s .ctxCommandEnd fun e => e = { s.dev with ctxCmd := [] }) ∧
  (∀ (s : State) (k : CtxCmd) (p : Port) (addr : BitVec 20), s.dev.ctxCmd = [k] → s.dev.waitGran = [] → slotThere p (addr.toNat / 4 * 4) = true →
    s.dev.waitBus = Tab.set [] [] (masterCode p.master) [{ ask := .cmd (.rcRegisterRead p addr 0), q := .coreShuttle, ctx := none, bus := some p.master }] →
    Leads s .ctxCommandEnd fun e => e.ctxCmd = [] ∧ e.waitBus = [] ∧
      (Tab.get {} e.ports (portKey p)).data = BitVec.ofNat 32 ({ s.dev with ctxCmd := [] }.value p (addr.toNat / 4 * 4)) ∧ ctxsKept s.dev e ∧ bytesKept s.dev e) ∧
  (∀ (s : State) (m : Master) (k : CtxCmd), s.dev.ctxCmd = [k] → s.dev.busBlocked m = false →
    Leads s (.claim m false) fun e => e = { s.dev with ctxCmd := [k, ⟨m, s.dev.rd (Reg.CTX_SEL.context (masterCode m)), 1, false, none⟩] } ∧
      (s.dev.serving = none → e.busBlocked m = true)) ∧
  (∀ (s : State) (k j : CtxCmd), s.dev.ctxCmd = [k, j] → s.dev.waitBus = [] → j.op = 1 → j.lost = false → s.dev.owns j.m 1 = true → (s.dev.ctx j.c).state = .free →
    Leads s .ctxCommandEnd fun e => e.ctxCmd = [{ j with was := some .free }] ∧ e.ctx j.c = { s.dev.ctx j.c with state := .claimed }) ∧
  (∀ (s : State) (k : Fin 25) (c : CtxId), (s.dev.ctx c).home.toNat = k.val → s.dev.canIssue c = true → (s.dev.ustore k).retry = none →
    (Leads s (.machineCheck k c) fun e => (e.ustore k).refill = some ⟨c, false, false⟩ ∧ Keeps s.dev e [] ∧
      (let w := s.dev.wordAtPc k c
       let j := w.toNat / 2 ^ 19 * 32 + (if hasFunction w then w.toNat / 2 ^ 4 % 32 else 0)
       let of := fun (x : PatchSlot) => BitVec.ofNat 12 (leVal ((x.bytes.drop (2 * j)).take 2))
       (e.ustore k).entry = some (if (s.dev.ustore k).act.src = 0 then Config.romDispatch j
         else if (s.dev.ustore k).act.src = 1 then of s.dev.ucode.slotA else of s.dev.ucode.slotB))) ∧
    ((s.dev.ustore k).sure = true → Leads s (.sureModeMismatch k c) fun e => (e.ustore k).refill = some ⟨c, false, true⟩ ∧
      e.rd Reg.UCODE_STATUS.sure_mismatch = 1 ∧ Keeps s.dev e [Reg.UCODE_STATUS.sure_mismatch])) ∧
  (∀ (s : State) (k : Fin 25) (c : CtxId), (s.dev.ustore k).refill = some ⟨c, false, false⟩ →
    Leads s (.controlStoreRefillComplete k false) fun e => (e.ustore k).refill = none ∧ (e.ustore k).total = satInc 16 (s.dev.ustore k).total ∧
      e.rd Reg.UCODE_STATUS.mc = 1 ∧ Keeps s.dev e [Reg.UCODE_STATUS.mc, Reg.LOG_STATUS.lost]) ∧
  (∀ (s : State) (k : Fin 25) (c : CtxId), (s.dev.ustore k).refill = some ⟨c, true, false⟩ → (s.dev.ctx c).state = .ready →
    Leads s (.controlStoreRefillComplete k false) fun e => (e.ustore k).refill = none ∧ e.rd Reg.UCODE_STATUS.mc_fail = 1 ∧
      (e.ctx c).state = .parked ∧ (e.ctx c).fault = fMachine 1 ∧ (e.ctx c).pc = (s.dev.ctx c).pc) ∧
  (∀ (s : State) (i : Fin 1024), Leads s (.contextStoreError (.site i)) fun e => e.site i = { s.dev.site i with valid := false } ∧
      (∀ k, k ≠ i.val → e.site k = s.dev.site k) ∧ e.rd Reg.GLB_ERR_STATUS.device_err = 1 ∧
      Keeps s.dev e [Reg.GLB_ERR_STATUS.device_err, Reg.LOG_STATUS.lost]) ∧
  (∀ (s : State) (c : CtxId) (b : Bool), Leads s (.contextStoreError (.ctx c b)) fun e => e.rd Reg.GLB_ERR_STATUS.device_err = 1 ∧
      ((s.dev.ctx c).state = .free → e.ctx c = {} ∧ (∀ k, k ≠ c.val → e.ctx k = s.dev.ctx k) ∧ bytesKept s.dev e) ∧
      ((s.dev.ctx c).state ≠ .free → (e.ctx c).state = .parked ∧ (e.ctx c).fault = fMachine 3 ∧ e.rd Reg.UCODE_STATUS.mc_fail = 1) ∧
      ((s.dev.ctx c).state ≠ .free → b = false → (e.ctx c).pc = (s.dev.ctx c).pc))

/-- R148, R151, R152, R154, R155, R160 to R164, R170 to R172, R189, R190, R622: the registers of a channel and its conversions.
Mode 1 from Off forces 0 V; conn 0 ramps a forcing channel; only the owner's writes are taken; a clamp
takes both its ends or neither; a flag is cleared by a 1; a conversion reaches its lane of the Mill, and the last sample of a MEAS
returns the mean to its context. The codes are raw, corrected by the active copy of calibration (R487); a channel that a converter
sequence holds makes no conversion of its own (R293). A parked channel reads its node within the band of log entry 99 (the model's choice). -/
def Obligations.ChannelRegisters : Prop :=
  (∀ (s : State) (m : Master) (c : ChanId) (v : BitVec 32), s.dev.alone c = true → s.dev.owns m (loomBlock (c / 32)) = true →
    s.dev.chMode c = 0 → s.dev.flagged c = false → bits v.toNat 0 3 = 1 →
    (∀ f ∈ ctrlFields c, f ≠ Reg.CHAN.CTRL.mode c → s.dev.rd f = bits v.toNat f.lo f.w) →
    Leads s (.chanCtrlWrite m c v) fun e => e.chMode c = 1 ∧ e.rd (Reg.CHAN.FORCE_CODE.code c) = 0xB8E38E ∧ e.rd (Reg.CHAN.STATUS.settled c) = 0 ∧
      e.chan c = { s.dev.chan c with drv := .off, carry := [] } ∧ (∀ k, k ≠ c.val → e.chan k = s.dev.chan k) ∧
      Keeps s.dev e ([Reg.CHAN.CTRL.mode c, Reg.CHAN.FORCE_CODE.code c, Reg.CHAN.STATUS.settled c] ++ clampFlags c) ∧ e = { s.dev with regs := e.regs, chans := e.chans }) ∧
  (∀ (s : State) (m : Master) (c : ChanId) (v : BitVec 32), s.dev.alone c = true → s.dev.owns m (loomBlock (c / 32)) = true →
    s.dev.forcing c = true → bits v.toNat 8 1 = 0 → (∀ f ∈ ctrlFields c, f ≠ Reg.CHAN.CTRL.conn c → s.dev.rd f = bits v.toNat f.lo f.w) →
    Leads s (.chanCtrlWrite m c v) fun e => e.rd (Reg.CHAN.CTRL.conn c) = 0 ∧ e.rd (Reg.CHAN.STATUS.settled c) = 0 ∧
      e.chan c = { s.dev.chan c with ramp := .force false, rampFrom := (s.dev.chan c).rampFrom.or (some (s.dev.rampLevel c)) } ∧ (∀ k, k ≠ c.val → e.chan k = s.dev.chan k) ∧
      Keeps s.dev e ([Reg.CHAN.CTRL.conn c, Reg.CHAN.STATUS.settled c, Reg.MON.STATE.trip_armed (monBase c false), Reg.MON.STATE.trip_armed (monBase c true)] ++ clampFlags c)) ∧
  (∀ (s : State) (m : Master) (c : ChanId) (v : BitVec 32), s.dev.owns m (loomBlock (c / 32)) = false → s.dev.quar (c / 32) = false →
    (s.dev.chan c).meas = none → (∃ f ∈ ctrlFields c, s.dev.rd f ≠ bits v.toNat f.lo f.w) →
    Leads s (.chanCtrlWrite m c v) fun e => e.rd (Reg.CHAN.STATUS.set_reject c) = 1 ∧ e.rd (Reg.CHAN.STATUS.reject_code c) = 5 ∧
      Keeps s.dev e [Reg.CHAN.STATUS.set_reject c, Reg.CHAN.STATUS.reject_code c]) ∧
  (∀ (s : State) (m : Master) (c : ChanId) (v : BitVec 32), s.dev.alone c = true → s.dev.owns m (loomBlock (c / 32)) = true →
    (s.dev.forcing c = true → s.dev.flagged c = false) → s.dev.chMode c ≠ 4 → s.dev.rd (Reg.CHAN.FORCE_CODE.code c) ≠ v.toNat % 2 ^ 24 →
    Leads s (.forceCodeWrite m c v) fun e => e.rd (Reg.CHAN.FORCE_CODE.code c) = v.toNat % 2 ^ 24 ∧ e.rd (Reg.CHAN.STATUS.settled c) = 0 ∧
      Keeps s.dev e ([Reg.CHAN.FORCE_CODE.code c, Reg.CHAN.STATUS.settled c] ++ clampFlags c) ∧ e = { s.dev with regs := e.regs }) ∧
  (∀ (s : State) (m : Master) (c : ChanId) (cur : Bool) (v : BitVec 32), s.dev.alone c = true → s.dev.owns m (loomBlock (c / 32)) = true →
    (v.extractLsb' 0 16).toInt ≤ (v.extractLsb' 16 16).toInt →
    Leads s (.clampSlotWrite m c cur v) fun e => e.rd (clampLo c cur) = v.toNat % 2 ^ 16 ∧ e.rd (clampHi c cur) = v.toNat / 2 ^ 16 ∧
      Keeps s.dev e [clampLo c cur, clampHi c cur, Reg.CHAN.STATUS.vclamp_act c]) ∧
  (∀ (s : State) (m : Master) (c : ChanId) (cur : Bool) (v : BitVec 32), s.dev.alone c = true → s.dev.owns m (loomBlock (c / 32)) = true →
    (v.extractLsb' 16 16).toInt < (v.extractLsb' 0 16).toInt → s.dev.rd (clampLo c cur) ≠ v.toNat % 2 ^ 16 →
    Leads s (.clampSlotWrite m c cur v) fun e => e.rd (Reg.CHAN.STATUS.set_reject c) = 1 ∧ e.rd (Reg.CHAN.STATUS.reject_code c) = 1 ∧
      Keeps s.dev e [Reg.CHAN.STATUS.set_reject c, Reg.CHAN.STATUS.reject_code c]) ∧
  (∀ (s : State) (m : Master) (c : ChanId) (v : BitVec 32), s.dev.quar (c / 32) = false → s.dev.owns m (loomBlock (c / 32)) = true →
    Leads s (.huskFlagClear m c v 0) fun e => (∀ i < 7, let f := (statusFlags c).getD i (Reg.CHAN.STATUS.set_reject c)
        e.rd f = if v.getLsbD (4 + i) then 0 else s.dev.rd f) ∧ Keeps s.dev e (statusFlags c)) ∧
  (∀ (s : State) (c : ChanId) (v i : BitVec 24), let p := s.dev.sampleOf c v i
    let r := if s.dev.readsVolt c then p.1 else p.2
    (s.dev.chan c).meas = none → s.dev.capHolds c = false → (s.dev.parked c = true → s.dev.parkedReads c p.1 p.2 = true) →
    Leads s (.conversionInstant c v i) fun e => ((s.dev.mill (c / 32)).takes (c % 32) = true → (e.mill (c / 32)).feed = (s.dev.mill (c / 32)).feed ++ [(c.val % 32, r)]) ∧
      e.chan c = { s.dev.chan c with vNow := p.1, iNow := p.2 } ∧ (∀ k, k ≠ c.val → e.chan k = s.dev.chan k) ∧
      e.rd (Reg.CHAN.STATUS.over_range c) = (if r.toInt = -8388608 ∨ r.toInt = 8388607 then 1 else s.dev.rd (Reg.CHAN.STATUS.over_range c)) ∧
      Keeps s.dev e [Reg.CHAN.STATUS.over_range c, Reg.CHAN.STATUS.iclamp_act c, Reg.CHAN.STATUS.vclamp_act c]) ∧
  (∀ (s : State) (c : ChanId) (v i : BitVec 24), s.dev.capHolds c = true → Leads s (.conversionInstant c v i) fun e => e = s.dev) ∧
  (∀ (s : State) (c : ChanId) (v i : BitVec 24) (q : MeasRun), let p := s.dev.sampleOf c v i
    let r := if s.dev.readsVolt c then p.1 else p.2
    (s.dev.chan c).meas = some q → q.left = 1 → (s.dev.chan c).deferred = [] → (s.dev.ctx q.ctx).state = .waiting → (s.dev.ctx q.ctx).rel = .none →
    (∀ k, k ≠ q.ctx → (s.dev.ctx k).state ≠ .waiting) → s.dev.capHolds c = false → (s.dev.parked c = true → s.dev.parkedReads c p.1 p.2 = true) →
    Leads s (.conversionInstant c v i) fun e => (e.chan c).meas = none ∧
      e.ctx q.ctx = { s.dev.ctx q.ctx with rel := .meas (BitVec.ofInt 24 (roundDiv (q.sum + r.toInt) q.total)) (q.isOver || overRange r) } ∧
      (∀ k, k ≠ q.ctx → e.ctx k = s.dev.ctx k) ∧ bytesKept s.dev e)

/-- R167, R169, R170, R192, R194, R201, R202, R205, R207, R209, R212: the husk, the comparators and the monitors. Overstress opens the
output and turns it Off; a short, an open path and a reversal ramp it to Off; a comparator compares its input with its level while it is
powered; a monitor goes above, below or inside at its tick, and its edge sets the flag of the state it enters; a guard trip, at a tick
that does not resolve the monitor, ramps the channel. -/
def Obligations.HusksAndMonitors : Prop :=
  (∀ (s : State) (c : ChanId), s.dev.alone c = true → s.dev.forcing c = true →
    Leads s (.huskOverstress c) fun e => e.rd (Reg.CHAN.STATUS.husk_over c) = 1 ∧ e.chMode c = 0 ∧
      e.chan c = { s.dev.chan c with opened := true, rampFrom := none, drv := .off, carry := [] } ∧ (∀ k, k ≠ c.val → e.chan k = s.dev.chan k) ∧
      Keeps s.dev e ([Reg.CHAN.STATUS.husk_over c, Reg.CHAN.CTRL.mode c, Reg.CHAN.STATUS.settled c, Reg.MON.STATE.trip_armed (monBase c false),
        Reg.MON.STATE.trip_armed (monBase c true)] ++ clampFlags c)) ∧
  (∀ (s : State) (c : ChanId), s.dev.forcing c = false →
    Leads s (.huskOverstress c) fun e => e.rd (Reg.CHAN.STATUS.husk_over c) = 1 ∧ Keeps s.dev e [Reg.CHAN.STATUS.husk_over c]) ∧
  (∀ (s : State) (c : ChanId), s.dev.alone c = true → s.dev.forcing12 c = true → s.dev.rd (Reg.CHAN.CTRL.short_time c) ≠ 0 →
    s.dev.on (Reg.CHAN.CTRL.rev_check c) = true →
    ∀ p ∈ [(Instr.huskShort c, Reg.CHAN.STATUS.husk_short c), (.huskOpen c, Reg.CHAN.STATUS.husk_open c), (.huskReversal c, Reg.CHAN.STATUS.husk_reverse c)],
      Leads s p.1 fun e => e.rd p.2 = 1 ∧ e.rd (Reg.CHAN.STATUS.settled c) = 0 ∧
        e.chan c = { s.dev.chan c with ramp := .force true, tripRamp := true, rampFrom := (s.dev.chan c).rampFrom.or (some (s.dev.rampLevel c)) } ∧
        (∀ k, k ≠ c.val → e.chan k = s.dev.chan k) ∧ Keeps s.dev e ([p.2, Reg.CHAN.STATUS.settled c] ++ clampFlags c)) ∧
  (∀ (s : State) (c : ChanId) (v : BitVec 24) (t : Fin 10240), let live := s.dev.cmpPowered (c / 32) && !s.dev.oddOfPair c && !s.dev.evenOfPair c
    Leads s (.cmpEdge c v t) fun e => (live = false → e = s.dev) ∧ (live = true → (s.dev.cap (c / 32)).desc.cls ≠ 2 →
      e.chan c = { s.dev.chan c with cmpHi := decide (level24 (s.dev.rd (Reg.CHAN.LVL_CMP.voh c)) < v.toInt),
                                     cmpLo := decide (v.toInt < level24 (s.dev.rd (Reg.CHAN.LVL_CMP.vol c))) } ∧
      (∀ k, k ≠ c.val → e.chan k = s.dev.chan k) ∧ Keeps s.dev e [])) ∧
  (∀ (s : State) (id : MonId) (q : MonIn), let b := monIdBase id
    let v := s.dev.monInput id q
    let st := s.dev.rd (Reg.MON.STATE.state b)
    let lo : Int := s.dev.rd (Reg.MON.WIN.lo b)
    let hi : Int := s.dev.rd (Reg.MON.WIN.hi b)
    1 ≤ st → st ≤ 4 → s.dev.rd (Reg.MON.CTRL.guard_trip b) = 0 → s.dev.comes (s.dev.nextTick b) = true →
    Leads s (.monitorTick id q) fun e =>
      (256 * hi < v → e.rd (Reg.MON.STATE.state b) = 4 ∧ (st ≠ 1 → st ≠ 4 → e.rd (Reg.MON.STATE.rise_out b) = 1)) ∧
      (v ≤ 256 * hi → v < 256 * lo → e.rd (Reg.MON.STATE.state b) = 2 ∧ (st ≠ 1 → st ≠ 2 → e.rd (Reg.MON.STATE.fall_out b) = 1)) ∧
      (256 * (lo + 64) ≤ v → v + 256 * 64 ≤ 256 * hi → e.rd (Reg.MON.STATE.state b) = 3 ∧ (st ≠ 1 → st ≠ 3 → e.rd (Reg.MON.STATE.enter b) = 1)) ∧
      regsKept s.dev e [Reg.MON.STATE.state b, Reg.MON.STATE.rise_out b, Reg.MON.STATE.fall_out b, Reg.MON.STATE.enter b, Reg.MON.COUNT.edges b,
        Reg.LOOM.IRQ_CAUSE.mon_pend (monLoom id), Reg.TH_PAUSED.ticks] ∧ (s.dev.rd (Reg.MON.CTRL.evt_mask b) = 0 → ctxsKept s.dev e) ∧ bytesKept s.dev e) ∧
  (∀ (s : State) (id : MonId) (q : MonIn), s.dev.rd (Reg.MON.STATE.state (monIdBase id)) = 5 → s.dev.comes (s.dev.nextTick (monIdBase id)) = true →
    Leads s (.monitorTick id q) fun e => e.rd (Reg.MON.STATE.state (monIdBase id)) = 0 ∧ Keeps s.dev e [Reg.MON.STATE.state (monIdBase id), Reg.TH_PAUSED.ticks]) ∧
  (∀ (s : State) (c : ChanId) (isB : Bool) (q : MonIn), let b := monBase c isB
    s.dev.alone c = true → s.dev.forcing c = true → s.dev.comes (s.dev.nextTick b) = true → 2 ≤ s.dev.rd (Reg.MON.STATE.state b) → s.dev.rd (Reg.MON.STATE.state b) ≤ 4 →
    s.dev.on (Reg.MON.CTRL.guard_trip b) = true → s.dev.on (Reg.MON.STATE.trip_armed b) = true → 256 * (s.dev.rd (Reg.MON.WIN.hi b) : Int) < s.dev.monInput (.chan c isB) q →
    Leads s (.monitorTick (.chan c isB) q) fun e => e.rd (Reg.MON.STATE.guard_trip b) = 1 ∧ e.rd (Reg.MON.STATE.trip_armed b) = 0 ∧
      (e.chan c).ramp = .force true ∧ e.rd (Reg.CHAN.STATUS.settled c) = 0) ∧
  (∀ (s : State) (m : Master) (id : MonId) (v : BitVec 32), s.dev.owns m (loomBlock (monLoom id)) = true →
    bits v.toNat 0 12 ≤ bits v.toNat 16 12 →
    Leads s (.monWinWrite m id v) fun e => e.rd (Reg.MON.WIN.lo (monIdBase id)) = bits v.toNat 0 12 ∧ e.rd (Reg.MON.WIN.hi (monIdBase id)) = bits v.toNat 16 12 ∧
      Keeps s.dev e [Reg.MON.WIN.lo (monIdBase id), Reg.MON.WIN.hi (monIdBase id)]) ∧
  (∀ (s : State) (m : Master) (id : MonId) (v : BitVec 32), s.dev.owns m (loomBlock (monLoom id)) = true →
    bits v.toNat 16 12 < bits v.toNat 0 12 → s.dev.rd (Reg.MON.WIN.lo (monIdBase id)) ≠ bits v.toNat 0 12 →
    Leads s (.monWinWrite m id v) fun e => e.rd (Reg.MON.STATE.set_reject (monIdBase id)) = 1 ∧ e.rd (Reg.MON.STATE.reject_code (monIdBase id)) = 1 ∧
      Keeps s.dev e [Reg.MON.STATE.set_reject (monIdBase id), Reg.MON.STATE.reject_code (monIdBase id)])

/-- R55, R154, R162, R170, R178 to R180, R182, R186: the booster pair of channels 2i and 2i + 1, and how ramps and settling end. A sample,
the corrected codes of the cell voltage and the shunt, moves x to CC, or by KV towards VSET within
CC and 0, and u by KI; the output follows 1.5 µs later; the fourth broken sample trips the pair; its ramp has four
steps, and the last one ends the pair, the output at the off level within VCLAMP. Codes carry 24 fraction bits (u rounded down, log entry 60, the
model's choice). The ramp of a single channel ends in Off, where it is asked for, and settled is 1 once
the settling time has passed since the mode changed. -/
def Obligations.BoosterPairs : Prop :=
  (∀ (s : State) (i : Fin 384) (rv rr : BitVec 24), let e0 := 2 * i.val
    let v := s.dev.voltCode e0 rv
    let r := s.dev.shuntCode (e0 + 1) (s.dev.rd (Reg.CHAN.CTRL.range e0)) rr
    let x := s.dev.chan e0
    let cc := s.dev.chForce e0 * 2 ^ 24
    let x1 : Int := if s.dev.boostKV e0 = 0 then cc else clampI (min 0 cc) (max 0 cc) (x.x + s.dev.boostKV e0 * (s.dev.chForce (e0 + 1) - v.toInt))
    let u1 := s.dev.clampOut e0 (x.u + s.dev.boostKI e0 * (x1 - r.toInt * 2 ^ 24) / 2 ^ 24)
    s.dev.evenOfPair e0 = true → x.ramp = .none → x.loopOpen = false → (s.dev.chMode e0 = 4 ∨ s.dev.chMode e0 = 5) →
    s.dev.boostOut e0 v r = false →
    Leads s (.boosterLoopSample i rv rr) fun e => e.chan e0 = { x with vNow := v, x := x1, u := u1, uQueue := x.uQueue ++ [u1], tripCount := 0 } ∧
      e.chan (e0 + 1) = { s.dev.chan (e0 + 1) with iNow := r } ∧ (∀ k, k ≠ e0 → k ≠ e0 + 1 → e.chan k = s.dev.chan k) ∧
      e.rd (Reg.CHAN.STATUS.cv_active e0) = (if x1 = cc then 0 else 1) ∧ (overRange v = true → e.rd (Reg.CHAN.STATUS.over_range e0) = 1) ∧
      (overRange r = true → e.rd (Reg.CHAN.STATUS.over_range (e0 + 1)) = 1) ∧ Keeps s.dev e ([Reg.CHAN.STATUS.cv_active e0, Reg.CHAN.STATUS.vclamp_act e0] ++
        (if overRange v then [Reg.CHAN.STATUS.over_range e0] else []) ++ (if overRange r then [Reg.CHAN.STATUS.over_range (e0 + 1)] else []))) ∧
  (∀ (s : State) (i : Fin 384) (rv rr : BitVec 24), let e0 := 2 * i.val
    let v := s.dev.voltCode e0 rv
    let r := s.dev.shuntCode (e0 + 1) (s.dev.rd (Reg.CHAN.CTRL.range e0)) rr
    s.dev.evenOfPair e0 = true → (s.dev.chan e0).ramp = .none → s.dev.forcing e0 = true → (s.dev.chMode e0 = 4 ∨ s.dev.chMode e0 = 5) →
    s.dev.wfmActive e0 = false → s.dev.boostOut e0 v r = true → (s.dev.chan e0).tripCount = 3 →
    Leads s (.boosterLoopSample i rv rr) fun e => e.rd (Reg.CHAN.STATUS.boost_trip e0) = 1 ∧ (e.chan e0).ramp = .booster 1 true ∧
      e.rd (Reg.CHAN.STATUS.settled e0) = 0 ∧
      e.rd (Reg.CHAN.STATUS.settled (e0 + 1)) = 0 ∧ Keeps s.dev e [Reg.CHAN.STATUS.cv_active e0, Reg.CHAN.STATUS.vclamp_act e0, Reg.CHAN.STATUS.over_range e0, Reg.CHAN.STATUS.over_range (e0 + 1),
        Reg.CHAN.STATUS.boost_trip e0, Reg.CHAN.STATUS.settled e0, Reg.CHAN.STATUS.settled (e0 + 1)]) ∧
  (∀ (s : State) (i : Fin 384) (u : Int) (t : List Int), (s.dev.chan (2 * i.val)).uQueue = u :: t →
    Leads s (.boosterUpdateApply i) fun e => e.chan (2 * i.val) = { s.dev.chan (2 * i.val) with uQueue := t, uOut := u } ∧ e = { s.dev with chans := e.chans }) ∧
  (∀ (s : State) (i : Fin 384) (k : Nat) (off : Bool), (s.dev.chan (2 * i.val)).ramp = .booster k off → k < 4 →
    Leads s (.boosterRampPhaseEnd i) fun e => (e.chan (2 * i.val)).ramp = .booster (k + 1) off ∧ (k = 2 → (e.chan (2 * i.val)).x = 0) ∧
      (k = 3 → (e.chan (2 * i.val)).loopOpen = true) ∧ (∀ j, j ≠ 2 * i.val → e.chan j = s.dev.chan j) ∧ Keeps s.dev e ([Reg.CHAN.STATUS.cv_active (2 * i.val)] ++ (if k = 3 then [Reg.CHAN.STATUS.vclamp_act (2 * i.val)] else []))) ∧
  (∀ (s : State) (i : Fin 384) (off : Bool), let e0 := 2 * i.val
    (s.dev.chan e0).ramp = .booster 4 off → s.dev.evenOfPair e0 = true →
    Leads s (.boosterRampPhaseEnd i) fun e => (e.chan e0).ramp = .none ∧ (e.chan e0).uOut = s.dev.clampOut e0 (sext 16 (s.dev.rd (Reg.CHAN.LVL_DRV.vil e0)) * 256 * 2 ^ 24) ∧
      e.chRole e0 = 0 ∧ e.chRole (e0 + 1) = 0 ∧ (let w := if off ∧ s.dev.chMode e0 ≠ 0 then 0 else 1
        e.rd (Reg.CHAN.STATUS.settled e0) = w ∧ e.rd (Reg.CHAN.STATUS.settled (e0 + 1)) = w) ∧ e.chMode e0 = (if off then 0 else s.dev.chMode e0) ∧
      (e.chan e0).loopOpen = true ∧ ctxsKept s.dev e ∧ bytesKept s.dev e) ∧
  (∀ (s : State) (c : ChanId) (off : Bool), s.dev.chRole c = 0 → (s.dev.chan c).ramp = .force off →
    Leads s (.rampComplete c) fun e => e.chan c = { s.dev.chan c with ramp := .none, rampFrom := none, tripRamp := false } ∧ e.rd (Reg.CHAN.STATUS.settled c) = (if off ∧ s.dev.chMode c ≠ 0 then 0 else 1) ∧
      e.chMode c = (if off then 0 else s.dev.chMode c) ∧
      Keeps s.dev e ([Reg.CHAN.STATUS.settled c, Reg.CHAN.CTRL.mode c, Reg.MON.STATE.trip_armed (monBase c false),
        Reg.MON.STATE.trip_armed (monBase c true), Reg.WFM.STATUS.state c] ++ clampFlags c)) ∧
  (∀ (s : State) (c : ChanId), (s.dev.chan (s.dev.lead c)).ramp = .none →
    Leads s (.settleTimeEnd c) fun e => e.rd (Reg.CHAN.STATUS.settled c) = 1 ∧ Keeps s.dev e [Reg.CHAN.STATUS.settled c] ∧ e = { s.dev with regs := e.regs })

/-- R273 to R285, R288 to R290: waveform sources. The owner enables a source of a channel that forces, and it enters its descriptor;
a rate commit waits for an output instant; prefill sets the schedule; an instant applies the stream's value and moves on, or holds it where the
sample is missing, or ends the run; the samples of a line join the buffer, which drops those no output needs any more. -/
def Obligations.WaveformSources : Prop :=
  (∀ (s : State) (m : Master) (c : ChanId) (w : WDesc), let a := 16 * s.dev.rd (Reg.WFM.DESC.addr c)
    s.dev.wfmState c = 0 → s.dev.owns m (loomBlock (c / 32)) = true → s.dev.safeBars = false → forceMode (s.dev.chMode c) = true →
    s.dev.chConn c = true → s.dev.chRole c < 2 → s.dev.flagged c = false → s.dev.mayAccess (wavePart c) = true → s.dev.clean a 16 = true → wdescOf (leVal (s.dev.bytesAt a 16)) = some w →
    Leads s (.wfmEnable m c) fun e => e.wfmState c = 1 ∧ e.rd (Reg.WFM.CTRL.en c) = 1 ∧
      e.wfm c = { strict := s.dev.on (Reg.WFM.CTRL.uflow_strict c), period := 25 * s.dev.rd (Reg.WFM.OUT_DIV.div c), step := s.dev.rd (Reg.WFM.STEP.step c), cur := some w } ∧
      (∀ k, k ≠ c.val → e.wfm k = s.dev.wfm k) ∧ Keeps s.dev e ([Reg.WFM.STATUS.state c, Reg.WFM.CTRL.en c, Reg.WFM.STATUS.rate_pending c] ++ accessPeaks (wavePart c))) ∧
  (∀ (s : State) (m : Master) (c : ChanId), (s.dev.wfmState c = 0 ∨ 4 ≤ s.dev.wfmState c) → s.dev.owns m (loomBlock (c / 32)) = false →
    Leads s (.wfmEnable m c) fun e => e.rd (Reg.WFM.STATUS.start_reject c) = 1 ∧ e.rd (Reg.WFM.STATUS.reject_code c) = 2 ∧
      Keeps s.dev e [Reg.WFM.STATUS.start_reject c, Reg.WFM.STATUS.reject_code c]) ∧
  (∀ (s : State) (m : Master) (c : ChanId), s.dev.wfmState c = 0 → s.dev.owns m (loomBlock (c / 32)) = true → s.dev.safeBars = false →
    forceMode (s.dev.chMode c) = false →
    Leads s (.wfmEnable m c) fun e => e.rd (Reg.WFM.STATUS.start_reject c) = 1 ∧ e.rd (Reg.WFM.STATUS.reject_code c) = 3 ∧
      Keeps s.dev e [Reg.WFM.STATUS.start_reject c, Reg.WFM.STATUS.reject_code c]) ∧
  (∀ (s : State) (m : Master) (c : ChanId), s.dev.owns m (loomBlock (c / 32)) = true →
    Leads s (.wfmRateCommit m c) fun e => e.rd (Reg.WFM.STATUS.rate_pending c) = 1 ∧ Keeps s.dev e [Reg.WFM.STATUS.rate_pending c]) ∧
  (∀ (s : State) (c : ChanId), s.dev.wfmState c = 1 → (s.dev.wfm c).ready = false → 64 ≤ (s.dev.wfm c).base + (s.dev.wfm c).buf.length →
    (s.dev.on (Reg.WFM.CTRL.start_at c) = true → s.dev.rd (Reg.WFM.START.time c) = s.dev.now ∨ reached s.dev.now (s.dev.rd (Reg.WFM.START.time c)) = false) →
    Leads s (.wfmPrefillComplete c) fun e => e.wfm c = { s.dev.wfm c with ready := true, instant := if s.dev.on (Reg.WFM.CTRL.start_at c) then 8 * s.dev.rd (Reg.WFM.START.time c) else 8 * (s.dev.now + 1) % 2 ^ 51 } ∧
      e = { s.dev with wfms := e.wfms }) ∧
  (∀ (s : State) (c : ChanId) (y : Int), let w := s.dev.wfm c
    let n := w.p / 2 ^ 24
    s.dev.wfmState c = 2 → (w.ready = true → s.dev.comes (w.instant / 8) = true) → s.dev.on (Reg.WFM.CTRL.filter c) = true → s.dev.on (Reg.WFM.STATUS.rate_pending c) = false → s.dev.chMode c ≠ 4 →
    w.endReq = none → w.total = none → w.badAt = none → w.lostAt = none → 0 < n → w.base ≤ n → w.buf[n - w.base]? = some y → -8388608 ≤ y → y ≤ 8388607 →
    Leads s (.wfmOutputInstant c) fun e => e.rd (Reg.CHAN.FORCE_CODE.code c) = (BitVec.ofInt 24 y).toNat ∧ e.wfmState c = 2 ∧
      (e.wfm c).instant = (w.instant + w.period) % 2 ^ 51 ∧ (e.wfm c).p = w.p + w.step ∧
      Keeps s.dev e ([Reg.CHAN.FORCE_CODE.code c, Reg.WFM.STATUS.rate_pending c, Reg.TH_PAUSED.ticks] ++ (s.dev.group c).map Reg.CHAN.STATUS.settled ++ clampFlags c)) ∧
  (∀ (s : State) (c : ChanId), let w := s.dev.wfm c
    let n := w.p / 2 ^ 24
    s.dev.wfmState c = 2 → (w.ready = true → s.dev.comes (w.instant / 8) = true) → s.dev.on (Reg.WFM.CTRL.filter c) = true → s.dev.on (Reg.WFM.STATUS.rate_pending c) = false → w.strict = false →
    w.endReq = none → w.total = none → w.badAt = none → w.lostAt = none → 0 < n → w.base + w.buf.length ≤ n →
    Leads s (.wfmOutputInstant c) fun e => e.rd (Reg.WFM.STATUS.uflow c) = 1 ∧ e.wfmState c = 2 ∧
      (e.wfm c).instant = (w.instant + w.period) % 2 ^ 51 ∧ (e.wfm c).p = w.p ∧
      Keeps s.dev e [Reg.WFM.STATUS.uflow c, Reg.WFM.UFLOW.count c, Reg.WFM.STATUS.rate_pending c, Reg.TH_PAUSED.ticks]) ∧
  (∀ (s : State) (c : ChanId) (t : Nat), let w := s.dev.wfm c
    s.dev.wfmState c = 2 → (w.ready = true → s.dev.comes (w.instant / 8) = true) → s.dev.on (Reg.WFM.CTRL.end_evt c) = false → s.dev.on (Reg.WFM.CTRL.end_hold c) = true → w.endReq = none → w.total = some t → t ≤ w.p / 2 ^ 24 →
    Leads s (.wfmOutputInstant c) fun e => e.wfmState c = 3 ∧ e.rd (Reg.WFM.STATUS.end_cause c) = 0 ∧ e.rd (Reg.LOOM.IRQ_CAUSE.wfm_end (c / 32)) = 1 ∧
      Keeps s.dev e [Reg.WFM.STATUS.state c, Reg.WFM.STATUS.end_cause c, Reg.LOOM.IRQ_CAUSE.wfm_end (c / 32), Reg.WFM.STATUS.rate_pending c, Reg.TH_PAUSED.ticks]) ∧
  (∀ (s : State) (c : ChanId) (q : WDesc), let w := s.dev.wfm c
    let a := q.start + 3 * w.fIdx
    let k := samplesIn q.start q.length w.fIdx ((a + 2) / 64)
    (s.dev.wfmState c = 1 ∨ s.dev.wfmState c = 2) → w.cur = some q → w.buf.length + k ≤ 512 → w.fIdx + k < q.length → 0 < w.base + w.buf.length →
    s.dev.mayAccess (wavePart c) = true → s.dev.ecc ((a + 2) / 32) = .good → s.dev.clean a (3 * k) = true →
    Leads s (.wfmSampleLineArrives c .good) fun e => e.wfm c = Wfm.trim { w with buf := w.buf ++ s.dev.samplesAt a k, fIdx := w.fIdx + k } ∧
      (∀ j, j ≠ c.val → e.wfm j = s.dev.wfm j) ∧ Keeps s.dev e (accessPeaks (wavePart c)))

/-- R43, R47, R107, R218, R231 to R236, R241, R252, R264, R625: burst play. A burst begins when both locks hold; a vector plays for
one period more than its repeat; the period in progress ends a halted burst; a missing vector holds the burst, or ends it in
strict mode; prefill completes where 4,096 vectors are held and the DP bits of the 128 vectors of the elastic FIFO are there; a pin fails whose
condition an edge has broken before, or the comparators break as its strobe closes, or that the selvedge may not judge; a strobe that fails
reaches FAIL_PINS, and is offered to the fail log; the end of a burst frees the loom and its context; a service window counts a miss. -/
def Obligations.BurstPlay : Prop :=
  (∀ (s : State) (n : LoomId) (late : Bool) (b : Burst), (s.dev.pat n).burst = some b → b.started = false →
    (s.dev.on (Reg.LOOM.SELVEDGE.pll_lock n) && s.dev.on (Reg.LOOM.SELVEDGE.dll_lock n)) = false →
    Leads s (.selvedgePeriodBoundary n late) fun e => e = s.dev) ∧
  (∀ (s : State) (n : LoomId) (late : Bool) (b : Burst), s.dev.plays n b → b.halt = none → 0 < b.rep → b.rep ≤ vecRepeat b.vec →
    Leads s (.selvedgePeriodBoundary n late) fun e => (e.pat n).burst = some { b with rep := b.rep + 1 } ∧
      (e.pat n).now = (s.dev.pat n).now + tsPeriod (s.dev.pat n).active (vecSet b.vec) ∧
      Keeps s.dev e [Reg.LOOM.STROBE_SHIFT.count n, Reg.LOOM.SEL_STATUS.strobe_shift n, Reg.TH_PAUSED.ticks]) ∧
  (∀ (s : State) (n : LoomId) (late : Bool) (b : Burst), s.dev.plays n b → b.halt = some 4 →
    Leads s (.selvedgePeriodBoundary n late) fun e => (e.pat n).burst = some { b with ended := some 4, early := true, ents := b.ents.take 1, await := none, closed := true } ∧
      Keeps s.dev e ([Reg.LOOM.SJMP_STATE.pending n, Reg.LOOM.TSET_COMMIT.pending n, Reg.TW.X.x n, Reg.TW.Y.y n] ++
        (List.range 32).map fun k => Reg.CHAN.STATUS.settled (32 * n + k))) ∧
  (∀ (s : State) (n : LoomId) (late : Bool) (b : Burst) (x : Entry) (t : List Entry) (v : BitVec 144), s.dev.plays n b → b.halt = none → (b.rep = 0 ∨ vecRepeat b.vec < b.rep) → b.stopReq = none → b.cut = false → b.holding = false → b.ents = x :: t →
    x.desc.twill = false → b.pos < x.desc.length → x.vector b.pass b.pos = .vec v → (∀ k < 32, pinCode v k ≠ 12 ∧ pinCode v k ≠ 13 ∧ pinCode v k ≠ 14) →
    Leads s (.selvedgePeriodBoundary n late) fun e => (∃ b' : Burst, (e.pat n).burst = some b' ∧ b'.vec = v ∧ b'.rep = 1 ∧ b'.pos = b.pos + 1 ∧
        b'.idx = (if b.played ≠ 0 then (b.idx + 1) % 2 ^ 40 else 0) ∧ b'.ended = none ∧ e.rd (Reg.LOOM.VIDX.index n) = b'.idx) ∧
      (e.pat n).now = (s.dev.pat n).now + tsPeriod ((s.dev.pat n).commit.getD (s.dev.pat n).active) (vecSet v) ∧ ctxsKept s.dev e) ∧
  (∀ (s : State) (n : LoomId) (late : Bool) (b : Burst) (x : Entry) (t : List Entry), s.dev.plays n b → b.halt = none → (b.rep = 0 ∨ vecRepeat b.vec < b.rep) → b.stopReq = none → b.cut = false → b.holding = false → b.gap = false → b.ents = x :: t →
    b.pos < x.desc.length → x.vector b.pass b.pos = .empty →
    Leads s (.selvedgePeriodBoundary n late) fun e =>
      (b.strict = true → ((e.pat n).burst.map fun b' => (b'.ended, b'.early)) = some (some 2, true)) ∧
      (b.strict = false → ((e.pat n).burst.map fun b' => (b'.ended, b'.holding, b'.flagged)) = some (none, true, true) ∧ (e.pat n).now = (s.dev.pat n).now + (s.dev.pat n).lastPeriod ∧
        e.rd (Reg.LOOM.BOB_STATUS.starved n) = 1 ∧
        e.rd (Reg.LOOM.HOLD_COUNT.count n) = min (s.dev.rd (Reg.LOOM.HOLD_COUNT.count n) + 1) (2 ^ (Reg.LOOM.HOLD_COUNT.count n).w - 1))) ∧
  (∀ (s : State) (n : LoomId) (b : Burst), (s.dev.pat n).burst = some b → 4096 ≤ b.avail.1 →
    (∀ o < 2, (∀ k < 32, s.dev.tapMaps o n k = false) ∨ 128 ≤ (s.dev.rast o).bits.length) →
    Leads s (.burstPrefillComplete n) fun e => ((e.pat n).burst.map (·.prefilled)) = some true ∧ Keeps s.dev e (accessPeaks (.refill n))) ∧
  (∀ (s : State) (n : LoomId) (hi lo mid : BitVec 32) (x : Sched) (rest : List Sched), (s.dev.pat n).sched = x :: rest → x.lg = 0 →
    let h := s.dev.cmpWord n (·.cmpHi)
    let l := s.dev.cmpWord n (·.cmpLo)
    let off := BitVec.ofNat 32 (maskTo (fun k => !s.dev.pinUsable n k) 32)
    let m := x.miss ||| (~~~x.done &&& ((x.cl &&& ~~~l) ||| (x.ch &&& ~~~h) ||| (x.cm &&& (h ||| l)))) |||
      (x.win &&& ((x.cl &&& ~~~lo) ||| (x.ch &&& ~~~hi) ||| (x.cm &&& ~~~mid))) ||| ((x.cl ||| x.ch ||| x.cm) &&& off) ||| x.bad
    Leads s (.compareStrobe n hi lo mid) fun e => (e.pat n).sched = rest ∧
      (m = 0 → e.rd (Reg.LOOM.FAIL_PINS.pins n) = s.dev.rd (Reg.LOOM.FAIL_PINS.pins n) ∧ Keeps s.dev e []) ∧
      (∀ k < 32, m.getLsbD k = true → bit (e.rd (Reg.LOOM.FAIL_PINS.pins n)) k = true) ∧
      (m ≠ 0 → s.dev.on (Reg.LOOM.FLOG_CTRL.log_en n) = true → s.dev.rd (Reg.LOOM.FLOG_CAP.cap n) = 0 → (s.dev.pat n).queue.length < 255 →
        (e.pat n).queue = (s.dev.pat n).queue ++ [⟨x.idx, m, x.seg, x.pass, x.rep, 0, (s.dev.pat n).serial⟩])) ∧
  (∀ (s : State) (n : LoomId) (b : Burst), (s.dev.pat n).burst = some b → b.ended = some 0 → (s.dev.pat n).sched = [] → b.mloop = false → b.blocking = true →
    b.flagged = false → b.early = false → (s.dev.ctx b.ctx).state = .waiting → (s.dev.ctx b.ctx).wait = .burst n → (s.dev.ctx b.ctx).rel = .none →
    Leads s (.burstEnd n) fun e => (e.pat n).burst = none ∧ e.rd (Reg.LOOM.SEL_STATUS.last_end n) = 0 ∧ e.rd (Reg.LOOM.IRQ_CAUSE.burst_end n) = 1 ∧
      e.ctx b.ctx = { s.dev.ctx b.ctx with rel := .burst b.fail false false none } ∧ bytesKept s.dev e) ∧
  (∀ (s : State) (n : LoomId) (stop : BitVec 48), let due := (s.dev.pat n).due stop.toNat
    stop.toNat = s.dev.windowEnd → (s.dev.pat n).winEnd ≠ some stop → s.dev.comes stop.toNat = true →
    Leads s (.serviceWindowEnd n stop) fun e => (e.pat n).arrived = 0 ∧ ((s.dev.pat n).arrived < min 250 due → e.rd (Reg.LOOM.IRQ_CAUSE.service_miss n) = 1 ∧
        e.rd (Reg.LOOM.SERVICE_MISS.count n) = min (s.dev.rd (Reg.LOOM.SERVICE_MISS.count n) + 1) (2 ^ 24 - 1)) ∧
      (min 250 due ≤ (s.dev.pat n).arrived → Keeps s.dev e [Reg.TH_PAUSED.ticks]) ∧
      Keeps s.dev e [Reg.LOOM.IRQ_CAUSE.service_miss n, Reg.LOOM.SERVICE_MISS.count n, Reg.TH_PAUSED.ticks])

/-- R227 to R230, R236, R237, R239, R243, R246 to R248: the locks of the selvedge, the timing sets and the fail log's control. A lost lock
clears its bit, holds the pattern path and halts its burst with cause 5, one whose last strobes are left too (log entry 104); the delay line locks after the PLL; a
commit takes the staged sets at once, or at the next vector; a staged slot takes what its mask lets through. -/
def Obligations.LocksAndTimingSets : Prop :=
  (∀ (s : State) (n : LoomId), ∀ p ∈ [(Instr.pllLockLoss n, Reg.LOOM.SELVEDGE.pll_lock n, Reg.LOOM.SELVEDGE.pll_lost n),
      (.dllLockLoss n, Reg.LOOM.SELVEDGE.dll_lock n, Reg.LOOM.SELVEDGE.dll_lost n)], s.dev.on p.2.1 = true →
    Leads s p.1 fun e => e.rd p.2.1 = 0 ∧ e.rd p.2.2 = 1 ∧ e.rd (Reg.LOOM.IRQ_CAUSE.lock_lost n) = 1 ∧ e.rd Reg.GLB_ERR_STATUS.loom_err = 1 ∧
      e.unit (kPattern n) = .held ∧ (∀ b, s.dev.plays n b → (e.pat n).burst = some { b with halt := some 5 }) ∧
      (∀ b, (s.dev.pat n).burst = some b → b.ended ≠ none → (e.pat n).burst = some { b with ended := some 5, early := true })) ∧
  (∀ (s : State) (n : LoomId) (w : BitVec 10), Leads s (.lockAcquired n false w) fun e => e.rd (Reg.LOOM.SELVEDGE.pll_lock n) = 1 ∧
      Keeps s.dev e [Reg.LOOM.SELVEDGE.pll_lock n] ∧ e = { s.dev with regs := e.regs }) ∧
  (∀ (s : State) (n : LoomId) (w : BitVec 10), s.dev.on (Reg.LOOM.SELVEDGE.pll_lock n) = true →
    Leads s (.lockAcquired n true w) fun e => e.rd (Reg.LOOM.SELVEDGE.dll_lock n) = 1 ∧ e.rd (Reg.LOOM.SELVEDGE.dll_ctrl n) = w.toNat ∧
      Keeps s.dev e [Reg.LOOM.SELVEDGE.dll_lock n, Reg.LOOM.SELVEDGE.dll_ctrl n]) ∧
  (∀ (s : State) (m : Master) (n : LoomId), s.dev.owns m (loomBlock n) = true → (s.dev.pat n).commit = none → tsReason (s.dev.pat n).staged = none →
    Leads s (.tsetCommit m n) fun e =>
      ((s.dev.pat n).burst = none → e.pat n = { s.dev.pat n with active := (s.dev.pat n).staged }) ∧
      (∀ b, (s.dev.pat n).burst = some b → e.pat n = { s.dev.pat n with commit := some (s.dev.pat n).staged } ∧
        e.rd (Reg.LOOM.TSET_COMMIT.pending n) = 1) ∧ Keeps s.dev e [Reg.LOOM.TSET_COMMIT.pending n]) ∧
  (∀ (s : State) (m : Master) (n : LoomId) (set pin r : Nat), s.dev.owns m (loomBlock n) = true → (s.dev.pat n).commit = none →
    tsReason (s.dev.pat n).staged = some (set, pin, r) →
    Leads s (.tsetCommit m n) fun e => e.rd (Reg.LOOM.TSET_COMMIT.commit_reject n) = 1 ∧ e.rd (Reg.LOOM.TSET_COMMIT.bad_set n) = set % 32 ∧
      e.rd (Reg.LOOM.TSET_COMMIT.bad_pin n) = pin % 32 ∧ e.rd (Reg.LOOM.TSET_COMMIT.reason n) = r % 8 ∧ e.pats = s.dev.pats) ∧
  (∀ (s : State) (m : Master) (slot : Fin 320) (v : BitVec 32), let k := masterCode m
    let n := s.dev.rd (Reg.TSET_SEL.loom k)
    let set := s.dev.rd (Reg.TSET_SEL.set k)
    s.dev.owns m (loomBlock n) = true → s.dev.on (Reg.TSET_SEL.view k) = false →
    Leads s (.tsetWindowWrite m slot v) fun e => tsGet (e.pat n).staged set slot = v &&& tsMask slot ∧ (e.pat n).active = (s.dev.pat n).active ∧
      (∀ j, j ≠ 320 * set + slot → Tab.get 0 (e.pat n).staged j = Tab.get 0 (s.dev.pat n).staged j) ∧ (∀ j, j ≠ n → e.pat j = s.dev.pat j) ∧ Keeps s.dev e []) ∧
  (∀ (s : State) (m : Master) (slot : Fin 320) (v : BitVec 32), let k := masterCode m
    let n := s.dev.rd (Reg.TSET_SEL.loom k)
    let set := s.dev.rd (Reg.TSET_SEL.set k)
    s.dev.on (Reg.TSET_SEL.view k) = true → tsGet (s.dev.pat n).active set slot ≠ v &&& tsMask slot →
    Leads s (.tsetWindowWrite m slot v) fun e => e.rd (Reg.TSET_SEL.write_reject k) = 1 ∧ e.pats = s.dev.pats ∧ Keeps s.dev e [Reg.TSET_SEL.write_reject k]) ∧
  (∀ (s : State) (m : Master) (n : LoomId) (v : BitVec 32), s.dev.owns m (loomBlock n) = true → s.dev.unit (kPattern n) = .off → 8 ≤ v.toNat % 32 →
    v.toNat % 32 ≤ 24 →
    Leads s (.flogCtrlWrite m n v) fun e => e.rd (Reg.LOOM.FLOG_CTRL.size_log2 n) = v.toNat % 32 ∧
      e.on (Reg.LOOM.FLOG_CTRL.stop_full n) = v.getLsbD 5 ∧ e.on (Reg.LOOM.FLOG_CTRL.log_en n) = v.getLsbD 6 ∧
      e.rd (Reg.LOOM.FLOG_WPTR.index n) = 0 ∧ e.rd (Reg.LOOM.FLOG_WPTR.lap n) = 1 ∧ e.rd (Reg.LOOM.FLOG_RPTR.index n) = 0 ∧
      e.rd (Reg.LOOM.FLOG_RPTR.lap n) = 1 ∧ Keeps s.dev e [Reg.LOOM.FLOG_CTRL.size_log2 n, Reg.LOOM.FLOG_CTRL.stop_full n, Reg.LOOM.FLOG_CTRL.log_en n,
        Reg.LOOM.FLOG_WPTR.index n, Reg.LOOM.FLOG_WPTR.lap n, Reg.LOOM.FLOG_RPTR.index n, Reg.LOOM.FLOG_RPTR.lap n])

/-- R48, R253 to R260, R266, R269, R272: segments, the bobbin and the loop window. A fetched descriptor joins the run, and one that the run no longer
awaits is discarded; a refill line joins its stream; a load brings a pinned segment into the loop window, where the entries that streamed it
find it resident, and waits where its partition has no credit free; a flush empties the window; an MLOOP takes its verdict; the Twill
window is written while no burst runs, a dmode of 3 alone being ignored. -/
def Obligations.SegmentsAndBobbin : Prop :=
  (∀ (s : State) (n : LoomId) (b : Burst) (g : Nat) (ds : List (Option Nat)), (s.dev.pat n).burst = some b → b.await = some g → (s.dev.pat n).descs = some g :: ds →
    s.dev.waiting (refillPart n) = [] → s.dev.segGood g = true → (s.dev.pat n).window = [] →
    s.dev.on (Reg.LOOM.SJMP_STATE.pending n) = false →
    Leads s (.descriptorFetchComplete n .good) fun e => (∃ b', (e.pat n).burst = some b' ∧ b'.ents.take b.ents.length = b.ents ∧
        ((b'.ents[b.ents.length]?).map fun x => (x.seg, x.desc)) = some (g, descOf (leVal (s.dev.bytesAt (s.dev.segBase + 16 * g) 16)))) ∧
      Keeps s.dev e (Reg.LOOM.PIN_STATUS.pin_full n :: accessPeaks (.refill n))) ∧
  (∀ (s : State) (n : LoomId) (ds : List (Option Nat)), (s.dev.pat n).burst = none → (s.dev.pat n).descs = none :: ds → s.dev.waiting (refillPart n) = [] →
    Leads s (.descriptorFetchComplete n .good) fun e => e.pat n = { s.dev.pat n with descs := ds } ∧ (∀ j, j ≠ n.val → e.pat j = s.dev.pat j) ∧ Keeps s.dev e (accessPeaks (.refill n))) ∧
  (∀ (s : State) (n : LoomId) (b : Burst) (g : Nat) (ds : List (Option Nat)) (x : Entry) (t : List Entry), let a := s.dev.segBase + 16 * g
    (s.dev.pat n).burst = some b → b.await = some g → (s.dev.pat n).descs = some g :: ds → s.dev.waiting (refillPart n) = [] → b.ents = x :: t → s.dev.ecc (a / 32) = .good → bit (leVal (s.dev.bytesAt a 16)) 104 = false →
    Leads s (.descriptorFetchComplete n .good) fun e => (e.pat n).burst = some { b with await := none, closed := true, descLost := false } ∧
      e.rd (Reg.LOOM.BOB_STATUS.bad_next n) = 1 ∧ Keeps s.dev e [Reg.LOOM.BOB_STATUS.bad_next n, Reg.LOOM.BOB_STATUS.bad_seg n]) ∧
  (∀ (s : State) (n : LoomId) (e1 : Ecc) (b : Burst) (x : Entry) (q : Req) (rest : List Req), let l := x.desc.start + x.got % max x.desc.passLines 1
    (s.dev.pat n).burst = some b → b.ents = [x] → x.full = false → x.hasLost = false → x.load = false → b.ended = none → b.pass = 0 → b.pos = 0 → s.dev.waiting (refillPart n) = [] →
    (s.dev.pat n).reqs = q :: rest → q.want = true → s.dev.ecc (2 * l) = .good → s.dev.ecc (2 * l + 1) = .good → e1 ≠ .corr →
    Leads s (.refillLineArrives n .good e1) fun e => (e.pat n).arrived = (s.dev.pat n).arrived + 1 ∧
      (((e.pat n).burst.bind fun b' => b'.ents.head?) = some { x with lines := x.lines ++ [if e1 = .good then .data (s.dev.lineAt l) else .lost] }) ∧
      ctxsKept s.dev e ∧ bytesKept s.dev e) ∧
  (∀ (s : State) (m : Master) (n : LoomId) (v : BitVec 32), let g := v.toNat % 2 ^ 15
    s.dev.busBlocked m = false → s.dev.owns m (loomBlock n) = true → s.dev.mayAccess (refillPart n) = true → v.getLsbD 15 = true → v.getLsbD 16 = false → (s.dev.pat n).loads.length ≤ 32 →
    (s.dev.pat n).window.any (·.seg == g) = false → s.dev.segGood g = true → bit (leVal (s.dev.bytesAt (s.dev.segBase + 16 * g) 16)) 105 = true →
    Leads s (.pinLoad m n v) fun e => e.pat n = { s.dev.pat n with loads := (s.dev.pat n).loads ++ [g] } ∧ Keeps s.dev e (accessPeaks (.refill n))) ∧
  (∀ (s : State) (m : Master) (n : LoomId) (v : BitVec 32), s.dev.busBlocked m = false → s.dev.owns m (loomBlock n) = true → s.dev.mayAccess (refillPart n) = false →
    v.getLsbD 15 = true →
    Leads s (.pinLoad m n v) fun e => (∃ h ∈ e.waiting (refillPart n), h.ask = .cmd (.pinLoad m n v) ∧ h.bus = some m) ∧ e.pats = s.dev.pats ∧ Keeps s.dev e []) ∧
  (∀ (s : State) (m : Master) (n : LoomId), s.dev.busBlocked m = false → s.dev.owns m (loomBlock n) = true →
    Leads s (.pinFlush m n) fun e =>
      ((s.dev.pat n).burst = none → e.pat n = { s.dev.pat n with window := [], loads := [] } ∧ e = { s.dev with pats := e.pats }) ∧
      (∀ b, (s.dev.pat n).burst = some b → e.rd (Reg.LOOM.PIN_STATUS.pin_reject n) = 1 ∧ e.pats = s.dev.pats ∧
        Keeps s.dev e [Reg.LOOM.PIN_STATUS.pin_reject n])) ∧
  (∀ (s : State) (n : LoomId) (g : Nat) (rest : List Nat), let x := descOf (leVal (s.dev.bytesAt (s.dev.segBase + 16 * g) 16))
    (s.dev.pat n).loads = g :: rest → (s.dev.pat n).window = [] → s.dev.mayAccess (refillPart n) = true → s.dev.segGood g = true → x.pinned = true →
    (s.dev.pat n).winOthers g + x.length ≤ 8192 →
    s.dev.clean (64 * x.start) (64 * x.passLines) = true → 0 < x.passLines →
    Leads s (.pinLoadComplete n .good) fun e => (e.pat n).window = [⟨g, x, (List.range x.passLines).map fun k => s.dev.lineAt (x.start + k)⟩] ∧
      (e.pat n).loads = rest ∧
      (e.pat n).burst = (s.dev.pat n).burst.map (·.nowResident g x ((List.range x.passLines).map fun k => s.dev.lineAt (x.start + k))) ∧ (e.pat n).arrived = (s.dev.pat n).arrived + x.passLines ∧
      Keeps s.dev e (accessPeaks (.refill n))) ∧
  (∀ (s : State) (n : LoomId) (b : Burst) (x : Entry) (t : List Entry), (s.dev.pat n).burst = some b → b.ents = x :: t → b.mloop = true → b.matched = false →
    (b.verdicts < b.pass ∨ (b.verdicts = b.pass ∧ b.pos = x.desc.length ∧ vecRepeat b.vec < b.rep)) → (s.dev.pat n).sched.any (·.pass == b.verdicts) = false →
    Leads s (.mloopVerdict n) fun e => (e.pat n).burst = some { b with verdicts := b.verdicts + 1, matched := !b.failPasses.contains b.verdicts, cut := !b.failPasses.contains b.verdicts } ∧ e = { s.dev with pats := e.pats }) ∧
  (∀ (s : State) (m : Master) (n : LoomId) (slot : Fin 256) (v : BitVec 32), s.dev.owns m (loomBlock n) = true → (s.dev.pat n).burst = none → slot.val ≠ 10 →
    ¬(16 ≤ slot.val ∧ slot.val < 32 ∧ bits v.toNat 7 2 = 3) →
    Leads s (.twillWindowWrite m n slot v) fun e => (∀ f ∈ twFields n slot, e.rd f = bits v.toNat f.lo f.w) ∧ Keeps s.dev e (twFields n slot)) ∧
  (∀ (s : State) (m : Master) (n : LoomId) (i : Fin 16) (v : BitVec 32), let slot : Fin 256 := ⟨16 + i.val, by omega⟩
    s.dev.owns m (loomBlock n) = true → (s.dev.pat n).burst = none → s.dev.rd (Reg.TW.OP.dmode n i) ≠ 3 → bits v.toNat 7 2 = 3 →
    Leads s (.twillWindowWrite m n slot v) fun e => (∀ f ∈ twFields n slot, f ≠ Reg.TW.OP.dmode n i → e.rd f = bits v.toNat f.lo f.w) ∧
      e.rd (Reg.TW.OP.dmode n i) = s.dev.rd (Reg.TW.OP.dmode n i) ∧ e.rd (Reg.TW.STATUS.cfg_reject n) = 1 ∧
      Keeps s.dev e (Reg.TW.STATUS.cfg_reject n :: twFields n slot)) ∧
  (∀ (s : State) (m : Master) (n : LoomId) (v : BitVec 32), s.dev.owns m (loomBlock n) = true → v.getLsbD 0 = true →
    Leads s (.twillWindowWrite m n 10 v) fun e => e.rd (Reg.TW.STATUS.cfg_reject n) = (if (s.dev.pat n).burst.isSome then 1 else 0) ∧
      Keeps s.dev e [Reg.TW.STATUS.cfg_reject n]) ∧
  (∀ (s : State) (m : Master) (n : LoomId) (slot : Fin 256) (v : BitVec 32) (b : Burst), (s.dev.pat n).burst = some b → slot.val ≠ 10 →
    (∃ f ∈ twFields n slot, s.dev.rd f ≠ bits v.toNat f.lo f.w) →
    Leads s (.twillWindowWrite m n slot v) fun e => e.rd (Reg.TW.STATUS.cfg_reject n) = 1 ∧ Keeps s.dev e [Reg.TW.STATUS.cfg_reject n])

/-- R316 to R326: the time measurement engines. An arm clears the results and leads to WAIT_START and RUN; a stop ends the run with cause 1; an
edge that ends a sample adds its time to the results; a gate's close adds its edges; an abandoned sample is counted; a
read of COUNT snaps the results for its port. -/
def Obligations.TimeMeasurement : Prop :=
  (∀ (s : State) (m : Master) (i : Fin 192), s.dev.tmeArmReason m i = none →
    Leads s (.tmeCmdArm m i false) fun e => (e.tme i).arming = true ∧ (e.tme i).sums = {} ∧ (e.tme i).start = none ∧
      (∀ f ∈ [Reg.TME.COUNT.n i, Reg.TME.MEAN.mean i, Reg.TME.STDEV.stdev i, Reg.TME.MIN.min i, Reg.TME.MAX.max i, Reg.TME.LAST.last i,
        Reg.TME.DISCARD.count i, Reg.TME.OVERRUN.count i], e.rd f = 0) ∧ (∀ k, k ≠ i.val → e.tme k = s.dev.tme k) ∧
      Keeps s.dev e [Reg.TME.COUNT.n i, Reg.TME.MEAN.mean i, Reg.TME.STDEV.stdev i, Reg.TME.MIN.min i, Reg.TME.MAX.max i, Reg.TME.LAST.last i,
        Reg.TME.DISCARD.count i, Reg.TME.OVERRUN.count i]) ∧
  (∀ (s : State) (m : Master) (i : Fin 192), s.dev.owns m (loomBlock (i / 8)) = true → s.dev.tmeBusy i = false → s.dev.unit (kTme (i / 8)) = .on →
    s.dev.on (Reg.LOOM.SELVEDGE.pll_lock (i / 8)) = true → s.dev.on (Reg.LOOM.SELVEDGE.dll_lock (i / 8)) = true → s.dev.tmeMode i = 1 →
    1 ≤ s.dev.tmeSrc i false → s.dev.tmeSrc i false ≤ 4 → s.dev.tmeSrc i true ≤ 4 → s.dev.rd (Reg.TME.N.n i) ≠ 0 → s.dev.tmeArmReason m i = none) ∧
  (∀ (s : State) (m : Master) (i : Fin 192), s.dev.owns m (loomBlock (i / 8)) = false → s.dev.tmeMode i = 1 →
    1 ≤ s.dev.tmeSrc i false → s.dev.tmeSrc i false ≤ 4 → s.dev.tmeSrc i true ≤ 4 → s.dev.rd (Reg.TME.N.n i) ≠ 0 →
    Leads s (.tmeCmdArm m i false) fun e => e.rd (Reg.TME.STATUS.arm_reject i) = 1 ∧ e.rd (Reg.TME.STATUS.reject_code i) = 2 ∧ e.tmes = s.dev.tmes ∧
      Keeps s.dev e [Reg.TME.STATUS.arm_reject i, Reg.TME.STATUS.reject_code i]) ∧
  (∀ (s : State) (m : Master) (i : Fin 192), s.dev.tmeBusy i = true →
    Leads s (.tmeCmdStop m i) fun e => e.tmeState i = 3 ∧ e.rd (Reg.TME.STATUS.end_cause i) = 1 ∧ e.rd (Reg.LOOM.IRQ_CAUSE.tme_done (i / 8)) = 1 ∧
      e.tme i = { s.dev.tme i with start := none, draining := false, arming := false } ∧ (∀ k, k ≠ i.val → e.tme k = s.dev.tme k) ∧
      regsKept s.dev e [Reg.TME.STATUS.state i, Reg.TME.STATUS.end_cause i, Reg.LOOM.IRQ_CAUSE.tme_done (i / 8)] ∧ bytesKept s.dev e) ∧
  (∀ (s : State) (i : Fin 192), (s.dev.tme i).arming = true → s.dev.tmeGated i = false →
    Leads s (.tmeArmComplete i) fun e => (e.tme i).arming = false ∧
      (s.dev.on (Reg.TME.CTRL.start_at i) = false → e.tmeState i = 2 ∧ (e.tme i).runFrom = 10240 * s.dev.now) ∧
      (s.dev.on (Reg.TME.CTRL.start_at i) = true → reached s.dev.now (s.dev.rd (Reg.TME.START.time i)) = false → e.tmeState i = 1) ∧
      Keeps s.dev e [Reg.TME.STATUS.state i]) ∧
  (∀ (s : State) (i : Fin 192), s.dev.tmeState i = 1 → s.dev.tmeGated i = false → s.dev.comesTo (BitVec.ofNat 48 (s.dev.rd (Reg.TME.START.time i))) = true →
    s.dev.rd (Reg.TME.START.time i) < 2 ^ 48 →
    Leads s (.tmeStartTime i) fun e => e.tmeState i = 2 ∧ e.now = s.dev.rd (Reg.TME.START.time i) ∧
      (e.tme i).runFrom = 10240 * s.dev.rd (Reg.TME.START.time i) ∧ Keeps s.dev e [Reg.TME.STATUS.state i, Reg.TH_PAUSED.ticks]) ∧
  (∀ (s : State) (i : Fin 192) (u t : Nat), let x := s.dev.tme i
    s.dev.tmeMode i = 1 → s.dev.tmeSrc i false = 1 → s.dev.rd (Reg.TME.SRC_A.edge i) = 1 → s.dev.evenOfPair (32 * (i / 8) + s.dev.tmeK i false) = false →
    s.dev.oddOfPair (32 * (i / 8) + s.dev.tmeK i false) = false → x.start = some u → x.tainted = false → x.feed = [⟨false, true, t⟩] → x.lastA = some u → x.exchA = none →
    615 ≤ since t u → atOrAfter t (s.dev.tmeLimit i u + 1) = false → x.sums.n + 1 < 2 ^ 24 →
    Leads s (.tmeTimestamp i false true t) fun e => e.rd (Reg.TME.COUNT.n i) = x.sums.n + 1 ∧ e.rd (Reg.TME.LAST.last i) = since t u % 2 ^ 40 ∧
      (e.tme i).sums = x.sums.add (Int.ofNat (since t u)) ∧ (e.tme i).lastA = some t ∧ (∀ k, k ≠ i.val → e.tme k = s.dev.tme k) ∧ bytesKept s.dev e) ∧
  (∀ (s : State) (i : Fin 192) (u : Nat), let x := s.dev.tme i
    s.dev.tmeMode i = 5 → s.dev.on (Reg.TME.CTRL.gate_src i) = false → s.dev.tmeState i = 2 → x.start = some u → x.tainted = false → x.sums.n + 1 < 2 ^ 24 →
    s.dev.tmeCloses i u = true → s.dev.comes (s.dev.tmeClose i u / 10240) = true →
    Leads s (.tmeGateClose i) fun e => e.rd (Reg.TME.COUNT.n i) = x.sums.n + 1 ∧ e.rd (Reg.TME.LAST.last i) = x.edges % 2 ^ 40 ∧
      (e.tme i).sums = x.sums.add x.edges ∧ (∀ k, k ≠ i.val → e.tme k = s.dev.tme k) ∧ bytesKept s.dev e) ∧
  (∀ (s : State) (i : Fin 192) (u : Nat), (s.dev.tme i).start = some u → (s.dev.tme i).draining = false → s.dev.tmeGated i = false →
    s.dev.comes ((s.dev.tmeLimit i u + 10239) / 10240 % 2 ^ 48) = true →
    Leads s (.tmeSampleTimeout i) fun e => (e.tme i).start = none ∧ (e.tme i).sums = (s.dev.tme i).sums ∧ e.rd (Reg.TME.STATUS.no_signal i) = 1 ∧
      e.rd (Reg.TME.DISCARD.count i) = min (s.dev.rd (Reg.TME.DISCARD.count i) + 1) (2 ^ 24 - 1) ∧
      Keeps s.dev e [Reg.TME.STATUS.no_signal i, Reg.TME.DISCARD.count i, Reg.TH_PAUSED.ticks]) ∧
  (∀ (s : State) (p : Port) (i : Fin 192),
    Leads s (.tmeCountSnapshotRead p i) fun e => (Tab.get {} e.ports (portKey p)).data = (BitVec.ofNat 24 (s.dev.rd (Reg.TME.COUNT.n i))).signExtend 32 ∧
      Tab.get [] (e.tme i).snaps (portKey p) = [s.dev.rd (Reg.TME.COUNT.n i), s.dev.rd (Reg.TME.MEAN.mean i), s.dev.rd (Reg.TME.STDEV.stdev i),
        s.dev.rd (Reg.TME.MIN.min i), s.dev.rd (Reg.TME.MAX.max i), s.dev.rd (Reg.TME.LAST.last i)] ∧
      e = { s.dev with tmes := e.tmes, ports := e.ports })

/-- R357, R359 to R367, R370, R371, R374: the Tapestry. A commit of the owner takes effect at once on an output that is OFF, and pends on one that is
ON; one that breaks a rule is refused; a slot gives each pin its bit of the background, or of BLANK outside the active
area; a line of pixel data joins its line buffer. -/
def Obligations.Tapestry : Prop :=
  (∀ (s : State) (m : Master) (o : Fin 2), let bad := [0x40, 0x44, 0x48, 0x4C].any fun a => Tab.get false (s.dev.rast o).rsv a
    s.dev.owns m tapBlock = true → timReason (s.dev.tapShadow o) bad = none →
    Leads s (.timCommit m o) fun e =>
      (s.dev.unit (kTap o) = .off → (e.rast o).act = s.dev.tapShadow o ∧ (e.rast o).pend = none ∧ e.rd (Reg.TAP.STATUS.tim_pending o) = 0) ∧
      (s.dev.unit (kTap o) ≠ .off → e.rast o = { s.dev.rast o with pend := some (s.dev.tapShadow o) } ∧ e.rd (Reg.TAP.STATUS.tim_pending o) = 1) ∧
      Keeps s.dev e [Reg.TAP.STATUS.tim_pending o]) ∧
  (∀ (s : State) (m : Master) (o : Fin 2) (k : Nat), let bad := [0x40, 0x44, 0x48, 0x4C].any fun a => Tab.get false (s.dev.rast o).rsv a
    s.dev.owns m tapBlock = true → timReason (s.dev.tapShadow o) bad = some k →
    Leads s (.timCommit m o) fun e => e.rd (Reg.TAP.STATUS.tim_reject o) = 1 ∧ e.rd (Reg.TAP.STATUS.reason o) = k ∧ e.rasts = s.dev.rasts ∧
      Keeps s.dev e [Reg.TAP.STATUS.tim_reject o, Reg.TAP.STATUS.reason o]) ∧
  (∀ (s : State) (m : Master) (o : Fin 2), s.dev.owns m tapBlock = true →
    (∀ l < 4, layerReason (s.dev.tapStaged o l) ((s.dev.rast o).layerRsv l) = none) →
    Leads s (.layerCommit m o) fun e =>
      (s.dev.unit (kTap o) = .off → (∀ l < 4, (e.rast o).layer l = s.dev.tapStaged o l) ∧ (e.rast o).pendL = none ∧ e.rd (Reg.TAP.STATUS.layer_pending o) = 0) ∧
      (s.dev.unit (kTap o) ≠ .off → (∃ p, (e.rast o).pendL = some p ∧ ∀ l < 4, Tab.get {} p l = s.dev.tapStaged o l) ∧
        (e.rast o).layers = (s.dev.rast o).layers ∧ e.rd (Reg.TAP.STATUS.layer_pending o) = 1 ∧ Keeps s.dev e [Reg.TAP.STATUS.layer_pending o]) ∧
      bytesKept s.dev e) ∧
  (∀ (s : State) (m : Master) (o : Fin 2), s.dev.owns m tapBlock = false → ∀ i ∈ [Instr.timCommit m o, .layerCommit m o],
    Leads s i fun e => e.rd (Reg.TAP.STATUS.cfg_reject o) = 1 ∧ e.rasts = s.dev.rasts ∧ Keeps s.dev e [Reg.TAP.STATUS.cfg_reject o]) ∧
  (∀ (s : State) (o : Fin 2), let r := s.dev.rast o
    let t := r.act
    let de := decide (t.vs + t.vb ≤ r.line) && decide (r.line < t.vs + t.vb + t.va) && decide (t.hs + t.hb ≤ r.slot) && decide (r.slot < t.hs + t.hb + t.ha)
    s.dev.tapRuns o = true → s.dev.tapAsked o = true → r.layers = [] → r.slot ≠ 0 → r.slot + 1 < t.slots → r.slot + 1 < 2 ^ 14 →
    Leads s (.rasterSlot o) fun e => (∃ b : BitVec 32, (e.rast o).bits = r.bits ++ [b] ∧ ∀ k < 32, s.dev.pinMap o k % 32 < 24 →
        b.getLsbD k = (bit (s.dev.rd (if de then Reg.TAP.BG.bg o else Reg.TAP.BLANK.blank o)) (s.dev.pinMap o k % 32) != bit (s.dev.pinMap o k) 5)) ∧
      (e.rast o).slot = r.slot + 1 ∧ (e.rast o).line = r.line ∧ e.rd (Reg.TAP.POS.slot o) = r.slot + 1 ∧
      Keeps s.dev e [Reg.TAP.POS.slot o, Reg.TAP.POS.line o]) ∧
  (∀ (s : State) (o : Fin 2) (l : Fin 4) (w : PixReq) (rest : List PixReq), let r := s.dev.rast o
    r.old = [] → r.want = w :: rest → r.retiring = [] → w.layer = l.val → s.dev.mayAccess (tapPart o) = true → s.dev.clean (64 * w.line) 64 = true →
    Leads s (.pixelLineArrives o l (.good, .good)) fun e => Tab.get none (e.rast o).lines (lineKey l w.row w.k) = some (s.dev.lineAt w.line) ∧ (e.rast o).want = rest ∧
      (∀ j, j ≠ lineKey l w.row w.k → Tab.get none (e.rast o).lines j = Tab.get none r.lines j) ∧ Keeps s.dev e (accessPeaks (tapPart o)))

/-- R402: a 1 written to bit b of GLB_IRQ_SW_SET, from any master, sets bit b of GLB_IRQ_SW, and where the bit rises it
signals the host on vector 40 + b: a message leaves, or the pending bit of the vector is set (R400). A shuttle context does
so through WRREG. The host clears the bit with W1C. -/
def Obligations.SoftwareInterrupts : Prop :=
  (∀ (s : State) (m : Master) (v : BitVec 32), Leads s (.irqSwSet m v) fun e => e = { s.dev with regs := e.regs, pcie := e.pcie } ∧
      Keeps s.dev e [Reg.GLB_IRQ_SW.cause] ∧ softSignals s.dev e v.toNat) ∧
  (∀ (s : State) (p : Port) (v : BitVec 32), s.dev.busBlocked p.master = false → Leads s (.registerWrite p 0x20 0 v 0xF) fun e =>
      Keeps s.dev e [Reg.GLB_IRQ_SW.cause] ∧ softSignals s.dev e v.toNat) ∧
  (∀ (s : State) (c : CtxId) (i : RRX), let x := s.dev.ctx c
    s.dev.runs c 2 = true → s.dev.busBlocked .core = false → i.x = true → x.regGrant = true → i.ext = 0x20 →
    Leads s (.wrreg c i) fun e => e.ctx c = (x.setC false).onward 2 ∧ softSignals s.dev e (x.rw i.d.toNat).toNat ∧
      regsKept s.dev e [Reg.GLB_IRQ_SW.cause] ∧ (∀ k, k ≠ c.val → e.ctx k = s.dev.ctx k) ∧ bytesKept s.dev e) ∧
  (∀ (s : State) (v : BitVec 32), s.dev.owns .host 0 = true → s.dev.busBlocked .host = false →
    Leads s (.registerWrite .host 0x1C 0 v 0xF) fun e =>
      (∀ i < 24, bit (e.rd Reg.GLB_IRQ_SW.cause) i = (bit (s.dev.rd Reg.GLB_IRQ_SW.cause) i && !bit v.toNat i)) ∧ Keeps s.dev e [Reg.GLB_IRQ_SW.cause])

/-- R377, R385, R386, R388 to R391, R400, R403, R609 to R611: what the host is given. BAR2 reads and writes the Granary once it is
ready and a credit of the host is free, which the peak of the pool may follow, and waits where none is; configuration answers after
cfg_commit, with the identifiers, the kinds of the two BARs and the serial number (their places: log entry 112, PRESUMED and the model's
choice), and a write takes the bits that it may write, MSI-X enable and bus mastering among them; each reset
clears the function's state and sets its flag; a message that could not leave waits in its pending bit. An attestation report,
or the public key, goes into the Granary. -/
def Obligations.HostInterface : Prop :=
  (∀ (s : State) (a : BitVec 33) (n : Nat), a.toNat + n ≤ 2 ^ 33 → s.dev.mayAccess .bar2 = true → s.dev.clean a.toNat n = true →
    Leads s (.bar2Read a n) fun e => e.pcie.bar2 = (List.range n).map (fun j => s.dev.byte (a.toNat + j)) ∧ e.pcie.poison = false ∧
      Keeps s.dev e (accessPeaks .bar2)) ∧
  (∀ (s : State) (a : BitVec 33) (n : Nat), a.toNat + n ≤ 2 ^ 33 → s.dev.granOpen = true → s.dev.mayAccess .bar2 = false →
    Leads s (.bar2Read a n) fun e => e.waiting .bar2 = s.dev.waiting .bar2 ++ [{ ask := .cmd (.bar2Read a n), q := .bar2 }] ∧ e = { s.dev with waitGran := e.waitGran }) ∧
  (∀ (s : State) (a : BitVec 33) (n : Nat), a.toNat + n ≤ 2 ^ 33 → s.dev.granOpen = false →
    Leads s (.bar2Read a n) fun e => e.pcie.bar2 = List.replicate n 0 ∧ e.rd Reg.GLB_STATUS.bar2_early = 1 ∧ Keeps s.dev e [Reg.GLB_STATUS.bar2_early]) ∧
  (∀ (s : State) (a : BitVec 33) (bs : List (BitVec 8)) (be : List Bool), a.toNat + bs.length ≤ 2 ^ 33 → be.length = bs.length → s.dev.mayAccess .bar2 = true →
    s.dev.clean a.toNat bs.length = true → s.dev.offTable a.toNat bs.length = true →
    Leads s (.bar2Write a bs be) fun e => (∀ j < bs.length, e.byte (a.toNat + j) = if be.getD j false then bs.getD j 0 else s.dev.byte (a.toNat + j)) ∧
      bytesKeptBut s.dev e a.toNat bs.length ∧ regsKept s.dev e (accessPeaks .bar2) ∧ ctxsKept s.dev e) ∧
  (∀ (s : State) (a : BitVec 33) (bs : List (BitVec 8)) (be : List Bool), a.toNat + bs.length ≤ 2 ^ 33 → be.length = bs.length → s.dev.granOpen = false →
    Leads s (.bar2Write a bs be) fun e => e.rd Reg.GLB_STATUS.bar2_early = 1 ∧ Keeps s.dev e [Reg.GLB_STATUS.bar2_early]) ∧
  (∀ (s : State) (w : Bool) (r : BitVec 10) (v : BitVec 32), Leads s (.pcieConfigRequest w r v) fun e =>
      (s.dev.on Reg.GLB_PCIE_CTRL.cfg_done = false → e.pcie = { s.dev.pcie with rsp := none }) ∧
      (s.dev.on Reg.GLB_PCIE_CTRL.cfg_done = true → (r = 0 → e.pcie.rsp = some 0x07681E5A) ∧
        (w = false → e.pcie = { s.dev.pcie with rsp := some (s.dev.cfgValue r.toNat) } ∧
          (r = 2 → e.pcie.rsp = some (0x118000#24 ++ Config.revision)) ∧
          (r = 85 → e.pcie.rsp = some (Config.serial.setWidth 32)) ∧ (r = 86 → e.pcie.rsp = some ((Config.serial >>> 32).setWidth 32)) ∧
          (r = 4 → (e.pcie.rsp.getD 0).setWidth 4 = 0x4#4) ∧ (r = 6 → e.pcie.rsp = some 0xC)) ∧
        (w = true → r ≠ 1 → r ≠ 17 → r ≠ 20 →
          e.cfgValue r.toNat = (v &&& cfgMask r.toNat) ||| (s.dev.cfgValue r.toNat &&& ~~~cfgMask r.toNat)) ∧
        (w = true → r = 1 → e.pcie.bme = v.getLsbD 2) ∧ (w = true → r = 17 → v.toNat % 4 = 3 → e.pcie.d3 = true) ∧
        (w = true → r = 17 → v.toNat % 4 = 0 → e.pcie.d3 = false) ∧
        (w = true → r = 20 → e.pcie.msixEn = v.getLsbD 31 ∧ e.pcie.msixMaskAll = v.getLsbD 30)) ∧
      ((r ≠ 1 ∧ r ≠ 17) ∨ w = false → e = { s.dev with pcie := e.pcie })) ∧
  (∀ (s : State) (m : Master), s.dev.owns m 0 = true →
    Leads s (.cfgCommit m) fun e => e.rd Reg.GLB_PCIE_CTRL.cfg_done = 1 ∧ Keeps s.dev e [Reg.GLB_PCIE_CTRL.cfg_done]) ∧
  (∀ (s : State) (speed : BitVec 4) (width : BitVec 6), 1 ≤ speed.toNat → speed.toNat ≤ s.dev.rd Reg.GLB_PCIE_CTRL.max_speed → speed.toNat ≤ 5 →
    (width = 1 ∨ width = 2 ∨ width = 4) →
    Leads s (.pcieLinkUp speed width) fun e => e.rd Reg.GLB_STATUS.link_up = 1 ∧ e.rd Reg.GLB_PCIE_LINK.speed = speed.toNat ∧
      e.rd Reg.GLB_PCIE_LINK.width = width.toNat ∧ Keeps s.dev e [Reg.GLB_STATUS.link_up, Reg.GLB_PCIE_LINK.speed, Reg.GLB_PCIE_LINK.width]) ∧
  (∀ (s : State), ∀ p ∈ [(Instr.pcieConventionalReset, Reg.GLB_PCIE_LINK.hot_reset_seen), (.hotReset, Reg.GLB_PCIE_LINK.hot_reset_seen),
      (.linkDown, Reg.GLB_PCIE_LINK.link_down_seen), (.functionLevelReset, Reg.GLB_PCIE_LINK.flr_seen)],
    Leads s p.1 fun e => e.rd p.2 = 1 ∧ e.pcie = { sent := e.pcie.sent } ∧ (p.1 ≠ .functionLevelReset → e.rd Reg.GLB_STATUS.link_up = 0) ∧
      (∀ i < 8, e.rd (Reg.DMA.HEAD.head i) = 0 ∧ e.rd (Reg.DMA.TAIL.tail i) = 0 ∧ (e.dma i).fetched = [] ∧ e.unit (kDma i) ≠ .on) ∧
      ctxsKept s.dev e ∧ bytesKept s.dev e) ∧
  (∀ (s : State) (b d3 : Bool), s.dev.pcie.pba = [] → (∀ i < 8, (s.dev.dma i).skips = []) →
    Leads s (.busMasterEnableChange b d3) fun e => e = { s.dev with pcie := { s.dev.pcie with bme := b, d3 := d3 }, dmas := e.dmas } ∧ ∀ i < 8, e.dma i = s.dev.dma i) ∧
  (∀ (s : State) (v : Fin 64), s.dev.pcie.pba = [(v.val, true)] → s.dev.pcie.bme = true → s.dev.pcie.d3 = false → s.dev.pcie.msixEn = true →
    s.dev.pcie.msixMaskAll = false →
    Leads s (.msixUnmask v) fun e => (Tab.get 1 e.pcie.table (4 * v + 3)).getLsbD 0 = false ∧ Tab.get 0 e.pcie.sent v = Tab.get 0 s.dev.pcie.sent v + 1 ∧
      Tab.get false e.pcie.pba v = false ∧ (∀ k, k ≠ v.val → Tab.get 0 e.pcie.sent k = Tab.get 0 s.dev.pcie.sent k) ∧ Keeps s.dev e []) ∧
  (∀ (s : State) (i l : Nat) (ch : Line), let report := s.dev.attHead ⟨some i, ch, l⟩ i
    let sign := leBytes 5236 (Config.hssSign i report).toNat
    s.dev.boot.att = some ⟨some i, ch, l⟩ →
    (s.dev.on Reg.CAL_STATUS.hash_busy = true → Leads s .attestComplete fun e => e = s.dev) ∧
    (s.dev.on Reg.CAL_STATUS.hash_busy = false → s.dev.mayAccess .security = true → s.dev.clean (64 * l) 5556 = true → s.dev.offTable (64 * l) 5556 = true → 64 * l + 5556 ≤ 2 ^ 33 →
      Leads s .attestComplete fun e => (∀ j < 320, e.byte (64 * l + j) = report.getD j 0) ∧ (∀ j < 5236, e.byte (64 * l + 320 + j) = sign.getD j 0) ∧
        bytesKeptBut s.dev e (64 * l) 5556 ∧ e.boot.att = none ∧ e.rd Reg.SEC_STATUS.att_busy = 0 ∧ e.rd Reg.SEC_STATUS.att_done = 1 ∧
        regsKept s.dev e ([Reg.SEC_STATUS.att_busy, Reg.SEC_STATUS.att_done, Reg.LOG_STATUS.lost] ++ accessPeaks .security) ∧ ctxsKept s.dev e)) ∧
  (∀ (s : State) (l : Nat) (ch : Line), let key := leBytes 60 Config.hssPublic.toNat ++ leBytes 6 Config.serial.toNat
    s.dev.boot.att = some ⟨none, ch, l⟩ → s.dev.mayAccess .security = true → s.dev.offTable (64 * l) 128 = true → 64 * l + 128 ≤ 2 ^ 33 →
    Leads s .pubkeyComplete fun e => e.boot.att = none ∧ e.rd Reg.SEC_STATUS.att_busy = 0 ∧ ctxsKept s.dev e ∧
      if sha256 key = s.dev.mramBytes 0x8000 32 then (∀ j < 98, e.byte (64 * l + j) = (key ++ sha256 key).getD j 0) ∧
        bytesKeptBut s.dev e (64 * l) 128 ∧ e.rd Reg.SEC_STATUS.att_done = 1
      else e.rd Reg.SEC_STATUS.att_code = 6 ∧ e.rd Reg.SEC_STATUS.att_reject = 1 ∧ bytesKept s.dev e)

/-- R390, R405 to R411: the DMA engines. The owner posts descriptors by TAIL; a fetched one joins the queue; data from the host goes
into the Granary, and bytes of the Granary to the host, where the Granary takes an access of the engine, whose credits the pool's
peak may follow; a descriptor that is done writes its status, moves HEAD on and may set done; a skip
does so with code 5, and waits while no request may leave to the host (R390); a ring reset starts over. -/
def Obligations.DmaEngines : Prop :=
  (∀ (s : State) (m : Master) (i : Fin 8) (v : BitVec 32), s.dev.owns m dmaBlock = true → v.toNat % 2 ^ 16 < s.dev.dmaSize i →
    Leads s (.dmaTailWrite m i v) fun e => e.rd (Reg.DMA.TAIL.tail i) = v.toNat % 2 ^ 16 ∧ Keeps s.dev e [Reg.DMA.TAIL.tail i]) ∧
  (∀ (s : State) (m : Master) (i : Fin 8) (v : BitVec 32), s.dev.owns m dmaBlock = false → v.toNat % 2 ^ 16 ≠ s.dev.rd (Reg.DMA.TAIL.tail i) →
    Leads s (.dmaTailWrite m i v) fun e => e.rd (Reg.DMA.CTRL_STAT.tail_reject i) = 1 ∧ Keeps s.dev e [Reg.DMA.CTRL_STAT.tail_reject i]) ∧
  (∀ (s : State) (i : Fin 8) (v : BitVec 256), s.dev.unit (kDma i) = .on → s.dev.dmaLocal i = false → s.dev.pcie.master = true →
    (s.dev.dma i).fetched.length < 9 → (s.dev.dma i).fetched.length < s.dev.dmaPosted i → (s.dev.dma i).fetched.any (·.isNone) = false →
    Leads s (.dmaDescriptorFetched i true v) fun e => e.dma i = { s.dev.dma i with fetched := (s.dev.dma i).fetched ++ [some v] } ∧ e = { s.dev with dmas := e.dmas }) ∧
  (∀ (s : State) (i : Fin 8) (v : BitVec 256) (rest : List (Option (BitVec 256))) (bs : List (BitVec 8)), let x := dmaDescOf v.toNat
    let p := s.dev.rd (Reg.DMA.PROGRESS.bytes i)
    (s.dev.dma i).fetched = some v :: rest → (s.dev.dma i).code = none → (s.dev.dma i).stale = false → x.refused = false → x.fill = false → x.toHost = false →
    s.dev.unit (kDma i) = .on → s.dev.pcie.master = true → 0 < bs.length → p + bs.length ≤ x.len → s.dev.mayAccess (.dma i) = true → s.dev.clean (x.gran + p) bs.length = true →
    s.dev.offTable (x.gran + p) bs.length = true →
    Leads s (.dmaHostCompletion i (.data bs)) fun e => (∀ j < bs.length, e.byte (x.gran + p + j) = bs.getD j 0) ∧
      bytesKeptBut s.dev e (x.gran + p) bs.length ∧ e.rd (Reg.DMA.PROGRESS.bytes i) = p + bs.length ∧ regsKept s.dev e (Reg.DMA.PROGRESS.bytes i :: accessPeaks (.dma i)) ∧ ctxsKept s.dev e) ∧
  (∀ (s : State) (i : Fin 8) (v : BitVec 256) (rest : List (Option (BitVec 256))) (n : Nat), let x := dmaDescOf v.toNat
    let p := s.dev.rd (Reg.DMA.PROGRESS.bytes i)
    (s.dev.dma i).fetched = some v :: rest → (s.dev.dma i).code = none → (s.dev.dma i).stale = false → x.refused = false → x.fill = false → x.toHost = true →
    s.dev.unit (kDma i) = .on → s.dev.pcie.master = true → 0 < n → p + n ≤ x.len → s.dev.mayAccess (.dma i) = true → s.dev.clean (x.gran + p) n = true →
    Leads s (.dmaHostCompletion i (.sent n)) fun e => (e.dma i).posted = (List.range n).map (fun j => (x.host + p + j, s.dev.byte (x.gran + p + j))) ∧
      e.rd (Reg.DMA.PROGRESS.bytes i) = p + n ∧ Keeps s.dev e (Reg.DMA.PROGRESS.bytes i :: accessPeaks (.dma i))) ∧
  (∀ (s : State) (i : Fin 8) (v : BitVec 256) (rest : List (Option (BitVec 256))), let x := dmaDescOf v.toNat
    let h := s.dev.rd (Reg.DMA.HEAD.head i)
    (s.dev.dma i).fetched = some v :: rest → rest.any (·.isNone) = false → (s.dev.dma i).code = none → (s.dev.dma i).stale = false → x.refused = false →
    s.dev.unit (kDma i) = .on → s.dev.dmaLocal i = false → s.dev.pcie.master = true → s.dev.rd (Reg.DMA.PROGRESS.bytes i) = x.len → s.dev.dmaSize i ≤ 2 ^ 16 →
    Leads s (.dmaDescriptorComplete i) fun e => e.rd (Reg.DMA.HEAD.head i) = (h + 1) % s.dev.dmaSize i ∧
      (e.dma i).posted = (List.range 4).map (fun j => (s.dev.rd (Reg.DMA.RING.ring i) + 32 * h + 28 + j, if j = 0 then 1 else 0)) ∧
      (e.dma i).fetched = rest ∧ e.rd (Reg.DMA.PROGRESS.bytes i) = 0 ∧ e.rd (Reg.DMA.CTRL_STAT.last_code i) = 0 ∧
      e.rd (Reg.DMA.CTRL_STAT.done i) = (if x.irq then 1 else s.dev.rd (Reg.DMA.CTRL_STAT.done i)) ∧
      Keeps s.dev e [Reg.DMA.HEAD.head i, Reg.DMA.PROGRESS.bytes i, Reg.DMA.CTRL_STAT.last_code i, Reg.DMA.CTRL_STAT.done i]) ∧
  (∀ (s : State) (m : Master) (i : Fin 8), let h := s.dev.rd (Reg.DMA.HEAD.head i)
    s.dev.owns m dmaBlock = true → s.dev.unit (kDma i) = .off → s.dev.dmaPosted i ≠ 0 → s.dev.dmaLocal i = false → s.dev.pcie.master = true → s.dev.dmaSize i ≤ 2 ^ 16 →
    Leads s (.dmaSkip m i) fun e => e.rd (Reg.DMA.HEAD.head i) = (h + 1) % s.dev.dmaSize i ∧
      (e.dma i).posted = (List.range 4).map (fun j => (s.dev.rd (Reg.DMA.RING.ring i) + 32 * h + 28 + j, if j = 0 then 11 else 0)) ∧
      e.rd (Reg.DMA.CTRL_STAT.last_code i) = 5 ∧
      Keeps s.dev e [Reg.DMA.HEAD.head i, Reg.DMA.PROGRESS.bytes i, Reg.DMA.CTRL_STAT.last_code i]) ∧
  (∀ (s : State) (m : Master) (i : Fin 8), s.dev.owns m dmaBlock = true → s.dev.unit (kDma i) = .off → s.dev.dmaPosted i ≠ 0 → s.dev.pcie.master = false →
    Leads s (.dmaSkip m i) fun e => e.dma i = { s.dev.dma i with skips := (s.dev.dma i).skips ++ [m] } ∧ (∀ j, j ≠ i.val → e.dma j = s.dev.dma j) ∧
      e = { s.dev with dmas := e.dmas }) ∧
  (∀ (s : State) (m : Master) (i : Fin 8), s.dev.owns m dmaBlock = true → s.dev.unit (kDma i) = .off →
    Leads s (.dmaResetRing m i) fun e => e.rd (Reg.DMA.HEAD.head i) = 0 ∧ e.rd (Reg.DMA.TAIL.tail i) = 0 ∧ e.rd (Reg.DMA.PROGRESS.bytes i) = 0 ∧
      (e.dma i).fetched = [] ∧ Keeps s.dev e [Reg.DMA.HEAD.head i, Reg.DMA.TAIL.tail i, Reg.DMA.PROGRESS.bytes i])

/-- R435 to R443, R445, R603: the flash port. An accepted command makes the port busy with its word, its address and, of a write,
the bytes of the buffer, which it reads once the Granary takes an access of the security block; one that is refused leaves its
code. One transaction runs at a time, a fill before a direct command: the opcode, the address bytes and the dummy cycles that it sends are in the
state (R435, R437). The transaction's end stores the bytes of a read. A page whose
digest matches enters the XIP cache; a first failure reads it again, and a second faults the access. A new window empties the
cache, unless boot has locked it. -/
def Obligations.FlashPort : Prop :=
  (∀ (s : State) (m : Master) (v : BitVec 32), let a := 64 * s.dev.rd Reg.FL_BUF.line
    let n := bits v.toNat 13 12
    v.getLsbD 25 = true → s.dev.flashReason m v.toNat = none → (v.getLsbD 10 = true → s.dev.clean a n = true ∧ (n = 0 ∨ s.dev.mayAccess .security = true)) →
    Leads s (.flashDirectCommand m v) fun e => e.rd Reg.FL_STATUS.busy = 1 ∧ (∀ f ∈ flCmdFields, e.rd f = bits v.toNat f.lo f.w) ∧
      (let bs := if v.getLsbD 10 then s.dev.bytesAt a n else []
       e.flash = { s.dev.flash with cmd := some (v, BitVec.ofNat 32 (s.dev.rd Reg.FL_ADDR.addr), a, bs), unread := false,
                                    run := s.dev.flash.run.or (some ((s.dev.flash.fills.head?.map fun f => s.dev.fillTx f.page).getD
                                      (s.dev.directTx v (BitVec.ofNat 32 (s.dev.rd Reg.FL_ADDR.addr)) bs))) }) ∧
      Keeps s.dev e (Reg.FL_STATUS.busy :: flCmdFields ++ accessPeaks .security)) ∧
  (∀ (s : State) (m : Master) (v : BitVec 32), let a := 64 * s.dev.rd Reg.FL_BUF.line
    v.getLsbD 25 = true → s.dev.flashReason m v.toNat = none → v.getLsbD 10 = true → 0 < bits v.toNat 13 12 → s.dev.mayAccess .security = false →
    Leads s (.flashDirectCommand m v) fun e => e.rd Reg.FL_STATUS.busy = 1 ∧ (∀ f ∈ flCmdFields, e.rd f = bits v.toNat f.lo f.w) ∧
      e.flash = { s.dev.flash with cmd := some (v, BitVec.ofNat 32 (s.dev.rd Reg.FL_ADDR.addr), a, []), unread := true,
                                   run := s.dev.flash.run.or (s.dev.flash.fills.head?.map fun f => s.dev.fillTx f.page) } ∧
      (∃ h ∈ e.waiting .security, h.ask = .cmd (.flashTransactionComplete [])) ∧
      Keeps s.dev e (Reg.FL_STATUS.busy :: flCmdFields)) ∧
  (∀ (s : State) (m : Master) (v : BitVec 32), s.dev.owns m flashBlock = true → s.dev.rd Reg.FL_STATUS.busy = 0 → bits v.toNat 8 2 ≠ 3 →
    s.dev.rd Reg.FL_CFG.mode = 0 → 64 * s.dev.rd Reg.FL_BUF.line + bits v.toNat 13 12 ≤ 2 ^ 33 → s.dev.flashReason m v.toNat = none) ∧
  (∀ (s : State) (m : Master) (v : BitVec 32) (k : Nat), v.getLsbD 25 = true → s.dev.flashReason m v.toNat = some k →
    Leads s (.flashDirectCommand m v) fun e => e.rd Reg.FL_STATUS.cmd_reject = 1 ∧ e.rd Reg.FL_STATUS.reject_code = k ∧ e.flash = s.dev.flash ∧
      Keeps s.dev e [Reg.FL_STATUS.cmd_reject, Reg.FL_STATUS.reject_code]) ∧
  (∀ (s : State) (m : Master) (v : BitVec 32), s.dev.owns m flashBlock = false → s.dev.flashReason m v.toNat = some 1) ∧
  (∀ (s : State) (w ad : BitVec 32) (a : Nat) (xs bs : List (BitVec 8)) (t : FlashTx), let next := s.dev.flash.fills.head?.map fun f => s.dev.fillTx f.page
    s.dev.flash.run = some t → t.fill = false → s.dev.flash.cmd = some (w, ad, a, xs) → w.getLsbD 10 = false →
    bs.length ≤ bits w.toNat 13 12 → s.dev.flash.unread = false → s.dev.mayAccess .security = true → s.dev.clean a bs.length = true → s.dev.offTable a bs.length = true → a + bs.length ≤ 2 ^ 33 →
    (bs.length = bits w.toNat 13 12 →
      Leads s (.flashTransactionComplete bs) fun e => (∀ j < bs.length, e.byte (a + j) = bs.getD j 0) ∧ bytesKeptBut s.dev e a bs.length ∧
        e.rd Reg.FL_STATUS.busy = 0 ∧ e.rd Reg.FL_STATUS.done = 1 ∧ e.flash = { s.dev.flash with cmd := none, run := next } ∧
        regsKept s.dev e ([Reg.FL_STATUS.busy, Reg.FL_STATUS.done] ++ accessPeaks .security) ∧ ctxsKept s.dev e) ∧
    (s.dev.on Reg.FL_CFG.mode = true → 0 < bits w.toNat 13 12 →
      Leads s (.flashDqsTimeout bs) fun e => (∀ j < bs.length, e.byte (a + j) = bs.getD j 0) ∧ bytesKeptBut s.dev e a bs.length ∧
        e.rd Reg.FL_STATUS.busy = 0 ∧ e.rd Reg.FL_STATUS.done = 1 ∧ e.rd Reg.FL_STATUS.dqs_err = 1 ∧ e.flash = { s.dev.flash with cmd := none, run := next } ∧
        regsKept s.dev e ([Reg.FL_STATUS.busy, Reg.FL_STATUS.done, Reg.FL_STATUS.dqs_err] ++ accessPeaks .security) ∧ ctxsKept s.dev e)) ∧
  (∀ (s : State) (raw : BitVec 32768) (dqs : Bool) (f : Fill) (rest : List Fill) (t : FlashTx), let p := s.dev.xipPlain f.page raw
    s.dev.flash.run = some t → t.fill = true → s.dev.flash.fills = f :: rest → f.second = false →
    Leads s (.xipCacheFillComplete raw dqs) fun e =>
      (if (dqs = true ∨ s.dev.rd Reg.FL_CFG.mode = 0) ∧ digestVal p = Tab.get 0 s.dev.flash.hash f.page
       then e.flash.page f.page = some (BitVec.ofNat 32768 (leVal p)) ∧ e.flash.fills = (f :: rest).filter (·.page != f.page)
       else e.flash = { s.dev.flash with fills := { f with second := true } :: rest, run := some (s.dev.fillTx f.page) }) ∧ Keeps s.dev e []) ∧
  (∀ (s : State) (raw : BitVec 32768) (f : Fill) (rest : List Fill) (t : FlashTx), s.dev.flash.run = some t → t.fill = true → s.dev.flash.fills = f :: rest → f.second = true → s.dev.on Reg.FL_CFG.mode = true →
    Leads s (.xipCacheFillComplete raw false) fun e => e.rd Reg.FL_STATUS.hash_fail = 1 ∧ e.flash.cache = s.dev.flash.cache ∧ e.flash.fills = rest ∧
      e.rd Reg.FL_STATUS.fails = satInc 8 (s.dev.rd Reg.FL_STATUS.fails) ∧
      ((s.dev.ctx f.ctx).slot = none → Keeps s.dev e [Reg.FL_STATUS.fails, Reg.FL_STATUS.hash_fail]) ∧
      ((s.dev.ctx f.ctx).state = .ready → (s.dev.ctx f.ctx).slot.isSome = true →
        (e.ctx f.ctx).state = .parked ∧ (e.ctx f.ctx).fault = if f.fetch then fFetch 1 else fData 1)) ∧
  (∀ (s : State) (m : Master) (v : BitVec 32), s.dev.owns m flashBlock = true → s.dev.xipLocked = false →
    (v.getLsbD 0 = true → s.dev.xipFits (v.getLsbD 1) (bits v.toNat 14 16) (bits v.toNat 2 12 + 1) = true) →
    Leads s (.flXipWrite m v) fun e => (∀ f ∈ flXipFields, e.rd f = bits v.toNat f.lo f.w) ∧ e.flash = { s.dev.flash with cache := [] } ∧
      Keeps s.dev e flXipFields) ∧
  (∀ (s : State) (m : Master) (v : BitVec 32), s.dev.holdsAll flXipFields v.toNat = false →
    Leads s (.flXipWrite m v) fun e => e.flash = s.dev.flash ∨ (s.dev.owns m flashBlock = true ∧ s.dev.xipLocked = false)) ∧
  (∀ (s : State) (m : Master) (v : BitVec 32), s.dev.holdsAll flXipFields v.toNat = false → s.dev.owns m flashBlock = true → s.dev.xipLocked = true →
    Leads s (.flXipWrite m v) fun e => e.rd Reg.GLB_STATUS.lock_reject = 1 ∧ e.flash = s.dev.flash ∧ Keeps s.dev e [Reg.GLB_STATUS.lock_reject])

/-- R446 to R454, R626: the board port. A frame opens with the status word, and turnaround words of zeros go before its data; a word that arrives in
time brings a slot's value, which goes out as its low and, in full, its high word, and what its RC fields are left with is kept for the end of
the frame, where it takes effect if every word of it was clocked; one that is late repeats the word before, and the first sends 0. A read may correct a word of a Mill that it shows (R333). A WRITE frame
leaves its writes to be applied one by one, each as a write of its slot, behind a command of CTX_CMD that the port has written; a
frame of a wrong length is rejected. -/
def Obligations.BoardPort : Prop :=
  (∀ (s : State) (h : Bool), s.dev.bpOpen = true →
    Leads s (.boardPortFrameStart h) fun e => e.bp = { s.dev.bp with active := true, startHigh := h, dout := [s.dev.bpStatus], reads := [], under := false } ∧
      e = { s.dev with bp := e.bp }) ∧
  (∀ (s : State) (w : BitVec 24) (a : Nat), s.dev.bp.active = true → bpOp w = 1 → s.dev.bp.writes = [] → bpSlot w s.dev.bp.reads.length = some a →
    slotThere .board a = true → s.dev.busBlocked .board = false →
    Leads s (.boardPortWordRead w true) fun e => let v := s.dev.value .board a
      (∃ t, e.bp = { s.dev.bp with dout := s.dev.bp.dout.take 1 ++ (if s.dev.bp.reads = [] then List.replicate (1 + bpLead w) 0 else s.dev.bp.dout.drop 1) ++
                                     (if bpFull w then [BitVec.ofNat 24 v, BitVec.ofNat 24 (v / 2 ^ 24 % 2 ^ 8)] else [BitVec.ofNat 24 v]),
                                   reads := s.dev.bp.reads ++ [⟨some a, BitVec.ofNat 32 v, true, t⟩] } ∧
        ∀ f ∈ narrowAt 2 a, f.acc = .rc → Tab.get 0 t f.key = s.dev.rcLeft f) ∧
      (Tab.get {} e.ports (portKey .board)).data = BitVec.ofNat 32 v ∧ Keeps s.dev e [Reg.LOOM.MILL_STATE.ecc_corr (s.dev.rd (Reg.GLB_MILL_SEL.loom 2))]) ∧
  (∀ (s : State) (w : BitVec 24), s.dev.bp.active = true → bpOp w = 1 → s.dev.bp.writes = [] →
    Leads s (.boardPortWordRead w false) fun e => e.rd Reg.BP_STATUS.underrun = 1 ∧ e.bp.under = true ∧
      e.bp.dout = s.dev.bp.dout.take 1 ++ (if s.dev.bp.reads = [] then List.replicate (1 + bpLead w) 0 else s.dev.bp.dout.drop 1) ++
        List.replicate (bpWords w) (if s.dev.bp.reads = [] then 0 else s.dev.bp.dout.getLast?.getD 0) ∧
      (s.dev.bp.under = false → e.rd Reg.BP_STATUS.underrun_word = min (2 + bpLead w + bpWords w * s.dev.bp.reads.length) 255) ∧
      Keeps s.dev e [Reg.BP_STATUS.underrun, Reg.BP_STATUS.underrun_word, Reg.LOOM.MILL_STATE.ecc_corr (s.dev.rd (Reg.GLB_MILL_SEL.loom 2))]) ∧
  (∀ (s : State) (w : BitVec 24) (xs : List (BitVec 24)) (r : BpRead) (a : Nat), s.dev.bp.active = true → s.dev.bp.startHigh = false → s.dev.bpOpen = true → bpOp w = 1 →
    s.dev.bp.reads = [r] → r.addr = some a → r.sent = true → slotThere .board a = true →
    (xs.length = 1 + bpLead w + bpWords w →
      Leads s (.boardPortFrameEnd (w :: xs) (24 * (xs.length + 1)) (24 * (xs.length + 1)) false) fun e => e.bp = { s.dev.bp with active := false, reads := [] } ∧
        (∀ f ∈ narrowAt 2 a, f.acc = .rc → e.rd f = Tab.get 0 r.since f.key % 2 ^ f.w) ∧ ctxsKept s.dev e ∧ bytesKept s.dev e) ∧
    (xs.length = 1 + bpLead w →
      Leads s (.boardPortFrameEnd (w :: xs) (24 * (xs.length + 1)) (24 * (xs.length + 1)) false) fun e => e.bp = { s.dev.bp with active := false, reads := [] } ∧
        Keeps s.dev e [Reg.BP_STATUS.frames])) ∧
  (∀ (s : State) (w x : BitVec 24), s.dev.bp.active = true → s.dev.bp.startHigh = false → s.dev.bpOpen = true → bpOp w = 2 → bpFull w = false →
    Leads s (.boardPortFrameEnd [w, x] 48 48 false) fun e =>
      e.bp = { s.dev.bp with active := false, reads := [], writes := s.dev.bp.writes ++ [(bpAddr w, BitVec.ofNat 32 x.toNat)] } ∧
        e.rd Reg.BP_STATUS.frames = (s.dev.rd Reg.BP_STATUS.frames + 1) % 2 ^ Reg.BP_STATUS.frames.w ∧ Keeps s.dev e [Reg.BP_STATUS.frames]) ∧
  (∀ (s : State) (w lo hi : BitVec 24), s.dev.bp.active = true → s.dev.bp.startHigh = false → s.dev.bpOpen = true → bpOp w = 2 → bpFull w = true →
    Leads s (.boardPortFrameEnd [w, lo, hi] 72 72 false) fun e =>
      e.bp.writes = s.dev.bp.writes ++ [(bpAddr w, BitVec.ofNat 32 (lo.toNat + 2 ^ 24 * (hi.toNat % 256)))] ∧ Keeps s.dev e [Reg.BP_STATUS.frames]) ∧
  (∀ (s : State) (din : List (BitVec 24)) (rising falling : Nat) (h : Bool), s.dev.bp.active = true → s.dev.bpOpen = true → din.length = rising / 24 →
    rising % 24 ≠ 0 →
    Leads s (.boardPortFrameEnd din rising falling h) fun e => e.rd Reg.BP_STATUS.frame_reject = 1 ∧ e.rd Reg.BP_STATUS.reason = 1 ∧
      e.bp = { s.dev.bp with active := false, reads := [] } ∧ Keeps s.dev e [Reg.BP_STATUS.frame_reject, Reg.BP_STATUS.reason]) ∧
  (∀ (s : State) (w : BitVec 24), s.dev.bp.active = true → s.dev.bp.startHigh = false → s.dev.bpOpen = true → bpOp w = 3 →
    Leads s (.boardPortFrameEnd [w] 24 24 false) fun e => e.rd Reg.BP_STATUS.frame_reject = 1 ∧ e.rd Reg.BP_STATUS.reason = 5 ∧
      e.bp = { s.dev.bp with active := false, reads := [] } ∧ Keeps s.dev e [Reg.BP_STATUS.frame_reject, Reg.BP_STATUS.reason]) ∧
  (∀ (s : State) (a : Nat) (v : BitVec 32) (rest : List (Nat × BitVec 32)), s.dev.bp.writes = (a, v) :: rest → a % 4 = 0 → a < 2 ^ 20 → s.dev.busBlocked .board = false →
    let d := { s.dev with bp := { s.dev.bp with writes := rest } }
    exec .boardPortWriteApply s = exec (.registerWrite .board (BitVec.ofNat 20 a) 0 v 15) ⟨d, s.pending⟩) ∧
  (∀ (s : State) (a : Nat) (v : BitVec 32) (rest : List (Nat × BitVec 32)), s.dev.bp.writes = (a, v) :: rest → implemented 2 a = false → s.dev.busBlocked .board = false →
    Leads s .boardPortWriteApply fun e => e.rd Reg.GLB_STATUS.void_access = 1 ∧ e.bp = { s.dev.bp with writes := rest } ∧
      Keeps s.dev e [Reg.GLB_STATUS.void_access]) ∧
  (∀ (s : State), s.dev.busBlocked .board = true → exec .boardPortWriteApply s = .next s)

/-- R465 to R469, R472, R475, R481, R482, R484, R486, R487: the commands of calibration. The owner starts a full calibration, a
dump or a load of an idle engine, commits or discards what is staged and writes staged slots; another master is
refused with code 1, and a busy engine answers code 2. -/
def Obligations.CalibrationCommands : Prop :=
  (∀ (s : State) (m : Master), s.dev.owns m calBlock = true → s.dev.calState = 0 → s.dev.cal.fullPend = none → s.dev.rd Reg.CAL_STATUS.staged_dirty = 0 →
    s.dev.log.queue.length < 32 →
    Leads s (.calFull m false) fun e => e.calState = 1 ∧ e.calPhase = 0 ∧ e.rd Reg.CAL_STATUS.loom = 0 ∧ e.rd Reg.CAL_STATUS.core = 32 ∧
      e.rd Reg.CAL_FAILS.cores = 0 ∧ e.rd Reg.CAL_FAILS.looms = 0 ∧
      e.log = { s.dev.log with queue := s.dev.log.queue ++ [⟨0x18, masterCode m, s.dev.reed.time⟩] } ∧
      Keeps s.dev e [Reg.CAL_STATUS.state, Reg.CAL_STATUS.phase, Reg.CAL_STATUS.loom, Reg.CAL_STATUS.core, Reg.CAL_FAILS.cores, Reg.CAL_FAILS.looms]) ∧
  (∀ (s : State) (m : Master), s.dev.owns m calBlock = false →
    ∀ i ∈ [Instr.calFull m false, .calCommit m, .calDiscard m, .calDump m, .calLoad m, .calTimeArm m, .calRollEnable m true],
    (i = .calRollEnable m true → s.dev.rd Reg.CAL_CTRL.roll_en = 0) →
    Leads s i fun e => e.rd Reg.CAL_CTRL.cmd_reject = 1 ∧ e.rd Reg.CAL_STATUS.reject_code = 1 ∧ e.cal = s.dev.cal ∧
      Keeps s.dev e [Reg.CAL_CTRL.cmd_reject, Reg.CAL_STATUS.reject_code]) ∧
  (∀ (s : State) (m : Master), s.dev.owns m calBlock = true → s.dev.calBusy = true →
    ∀ i ∈ [Instr.calFull m false, .calCommit m, .calDiscard m, .calDump m, .calLoad m],
    Leads s i fun e => e.rd Reg.CAL_CTRL.cmd_reject = 1 ∧ e.rd Reg.CAL_STATUS.reject_code = 2 ∧ e.cal = s.dev.cal ∧
      Keeps s.dev e [Reg.CAL_CTRL.cmd_reject, Reg.CAL_STATUS.reject_code]) ∧
  (∀ (s : State) (m : Master), s.dev.owns m calBlock = false → s.dev.calState = 0 → s.dev.cal.work = [] →
    Leads s (.calFull m true) fun e => e.rd Reg.CAL_CTRL.cmd_reject = 1 ∧ e.rd Reg.CAL_STATUS.reject_code = 1 ∧ e.cal = { s.dev.cal with fullPend := none } ∧
      Keeps s.dev e [Reg.CAL_CTRL.cmd_reject, Reg.CAL_STATUS.reject_code]) ∧
  (∀ (s : State) (m : Master), s.dev.calState = 1 → s.dev.cal.work = [] → s.dev.cal.stopping = false →
    ∀ i ∈ Instr.calStop m :: (if s.dev.owns m calBlock then [.calFull m true] else []),
    Leads s i fun e => e.calState = 0 ∧ e.rd Reg.CAL_STATUS.done = 1 ∧ e.rd Reg.CAL_STATUS.staged_dirty = 0 ∧ e.cal.coreS = s.dev.cal.coreA ∧
      e.cal.loomS = s.dev.cal.loomA ∧ e.cal.deskS = s.dev.cal.deskA ∧ e.cal.coreA = s.dev.cal.coreA ∧ e.cal.loomA = s.dev.cal.loomA ∧
      Keeps s.dev e [Reg.CAL_STATUS.state, Reg.CAL_STATUS.done, Reg.CAL_STATUS.staged_dirty, Reg.LOG_STATUS.lost]) ∧
  (∀ (s : State) (m : Master), s.dev.owns m calBlock = true → s.dev.calBusy = false → allCellsOk s.dev.cal.coreS = true → s.dev.cal.pendRef = none →
    Leads s (.calCommit m) fun e => e.cal.coreA = s.dev.cal.coreS ∧ e.cal.loomA = s.dev.cal.loomS ∧ e.cal.deskA = s.dev.cal.deskS ∧
      e.cal.coreS = s.dev.cal.coreS ∧ e.rd Reg.CAL_STATUS.staged_dirty = 0 ∧ e.rd Reg.CAL_STATUS.hash_busy = 1 ∧
      (∀ c < 768, e.rd (Reg.CHAN.STATUS.settled c) = if s.dev.forcing c && s.dev.coreChanged (34 * (c / 32) + s.dev.coreOf (c / 32) (c % 32)) then 0
        else s.dev.rd (Reg.CHAN.STATUS.settled c)) ∧
      Keeps s.dev e ([Reg.CAL_STATUS.staged_dirty, Reg.CAL_STATUS.hash_busy, Reg.LOG_STATUS.lost] ++ (List.range 768).map Reg.CHAN.STATUS.settled)) ∧
  (∀ (s : State) (m : Master) (v r : BitVec 32), s.dev.owns m calBlock = true → s.dev.calBusy = false → allCellsOk s.dev.cal.coreS = true →
    s.dev.cal.pendRef = some (v, r) →
    Leads s (.calCommit m) fun e => e.rd Reg.CAL_REF_V.v = v.toNat ∧ e.rd Reg.CAL_REF_R.r = r.toNat ∧ e.cal.refV = v ∧ e.cal.refR = r ∧ e.cal.pendRef = none) ∧
  (∀ (s : State) (m : Master), s.dev.owns m calBlock = true → s.dev.calBusy = false → allCellsOk s.dev.cal.coreS = false →
    Leads s (.calCommit m) fun e => e.rd Reg.CAL_CTRL.cmd_reject = 1 ∧ e.rd Reg.CAL_STATUS.reject_code = 5 ∧ e.cal = s.dev.cal ∧
      Keeps s.dev e [Reg.CAL_CTRL.cmd_reject, Reg.CAL_STATUS.reject_code]) ∧
  (∀ (s : State) (m : Master), s.dev.owns m calBlock = true → s.dev.calState = 0 →
    (Leads s (.calDiscard m) fun e => e.cal = { s.dev.cal with coreS := s.dev.cal.coreA, loomS := s.dev.cal.loomA, deskS := s.dev.cal.deskA, pendRef := none } ∧
      e.rd Reg.CAL_STATUS.staged_dirty = 0 ∧ Keeps s.dev e [Reg.CAL_STATUS.staged_dirty]) ∧
    (Leads s (.calDump m) fun e => e.calState = 3 ∧ e.cal = s.dev.cal ∧ Keeps s.dev e [Reg.CAL_STATUS.state]) ∧
    (Leads s (.calLoad m) fun e => e.calState = 4 ∧ e.cal = s.dev.cal ∧ Keeps s.dev e [Reg.CAL_STATUS.state])) ∧
  (∀ (s : State) (m : Master) (v : Bool), (s.dev.owns m calBlock = true ∨ v = false ∨ s.dev.rd Reg.CAL_CTRL.roll_en = 1) →
    Leads s (.calRollEnable m v) fun e => e.rd Reg.CAL_CTRL.roll_en = b2n v ∧ Keeps s.dev e [Reg.CAL_CTRL.roll_en]) ∧
  (∀ (s : State) (m : Master) (off : BitVec 12) (v : BitVec 32), let g := s.dev.rd (Reg.CAL_SEL.core (masterCode m))
    let i := off.toNat / 4
    off.toNat % 4 = 0 → off.toNat < 0x80 → s.dev.on (Reg.CAL_SEL.view (masterCode m)) = false → s.dev.owns m calBlock = true →
    s.dev.busHolds (g / 34) (g % 34) = false →
    Leads s (.calWindowWrite m off v) fun e => coreGet e.cal.coreS g i = v &&& coreMask i ∧
      (∀ h j, 64 * h + j ≠ 64 * g + i → coreGet e.cal.coreS h j = coreGet s.dev.cal.coreS h j) ∧ e.cal.coreA = s.dev.cal.coreA ∧
      (coreGet s.dev.cal.coreS g i ≠ v &&& coreMask i → e.rd Reg.CAL_STATUS.staged_dirty = 1) ∧ Keeps s.dev e [Reg.CAL_STATUS.staged_dirty])

/-- R458, R460, R463, R470 to R472, R475, R477, R479, R483 to R486, R551: calibration as it runs. The check of V_REF, the ladders and the
cores leave their results staged where they are inside their bounds; a rolling cycle takes a core that is due, a free spare that is due before a core that it is to stand in for; an exchange puts a ball pair on its new core; the hash
is shown once it is ready. -/
def Obligations.CalibrationRuns : Prop :=
  (∀ (s : State) (v : Nat), s.dev.calState = 1 → s.dev.cal.stopping = false → s.dev.calPhase = 0 → Leads s (.calPhaseComplete (.check v)) fun e => e.cal = s.dev.cal ∧
      (s.dev.refOk v = true → e.calPhase = 1 ∧ e.rd Reg.CAL_STATUS.loom = 0 ∧
        Keeps s.dev e [Reg.CAL_STATUS.phase, Reg.CAL_STATUS.loom, Reg.CAL_STATUS.core]) ∧
      (s.dev.refOk v = false → e.calState = 0 ∧ e.rd Reg.CAL_STATUS.fail = 1 ∧ e.rd Reg.CAL_STATUS.ref_bad = 1 ∧ e.rd Reg.CAL_STATUS.done = 1 ∧
        Keeps s.dev e [Reg.CAL_STATUS.state, Reg.CAL_STATUS.fail, Reg.CAL_STATUS.ref_bad, Reg.CAL_STATUS.done, Reg.LOG_STATUS.lost])) ∧
  (∀ (s : State) (n : LoomId) (ok : Bool) (r : List (BitVec 24)) (drop : Nat), let pass := ok && s.dev.ladderOk r drop
    s.dev.calState = 1 → s.dev.cal.stopping = false → s.dev.calPhase = 1 → s.dev.rd Reg.CAL_STATUS.loom = n.val →
    r.length = 6 → Leads s (.calPhaseComplete (.ladder n ok r drop)) fun e =>
      (n.val < 23 → e.calPhase = 1 ∧ e.rd Reg.CAL_STATUS.loom = n.val + 1) ∧ (n.val = 23 → e.calPhase = 2) ∧ e.cal.loomA = s.dev.cal.loomA ∧
      (pass = true → (∀ i < 6, loomGet e.cal.loomS n i = (r.getD i 0).setWidth 32 &&& loomMask i) ∧
        loomGet e.cal.loomS n 6 = BitVec.ofInt 32 (s.dev.refCurrent drop) ∧ loomGet e.cal.loomS n 10 = measured (s.dev.tLoom n) ∧
        (∀ k, k ∉ [0, 1, 2, 3, 4, 5, 6, 10].map (16 * n.val + ·) → loomGet e.cal.loomS 0 k = loomGet s.dev.cal.loomS 0 k) ∧
        Keeps s.dev e [Reg.CAL_STATUS.phase, Reg.CAL_STATUS.loom, Reg.CAL_STATUS.core]) ∧
      (pass = false → e.cal.loomS = s.dev.cal.loomS ∧ e.rd Reg.CAL_STATUS.fail = 1 ∧ n.val ∈ e.cal.ladderBad)) ∧
  (∀ (s : State) (n : LoomId) (ok : Bool) (r : List (BitVec 32)) (w : CalCore), let g := 34 * n.val + w.j
    s.dev.calWork n = some w → w.stage = 1 → w.stand = none → w.after = none → w.rolling = false → s.dev.cal.timingBad = false → s.dev.cal.stopping = false → coreRecWf ok r = true →
    Leads s (.coreCalibrationComplete n ok r) fun e => e.coreBad n w.j = !ok ∧ e.cal.coreA = s.dev.cal.coreA ∧
      (ok = true → (∀ i < 31, coreGet e.cal.coreS g i = r.getD i 0 &&& coreMask i) ∧ coreGet e.cal.coreS g 31 = measured (s.dev.tLoom n)) ∧
      (ok = false → e.rd Reg.CAL_STATUS.fail = 1 ∧ coreGet e.cal.coreS g 31 = (coreGet s.dev.cal.coreA g 31 ||| 0x20000) &&& coreMask 31) ∧
      ∀ h i, h ≠ g → i < 64 → coreGet e.cal.coreS h i = coreGet s.dev.cal.coreS h i) ∧
  (∀ (s : State) (n : LoomId) (k : Nat) (t : List Nat), s.dev.on Reg.CAL_CTRL.roll_en = true → s.dev.calBusy = false → s.dev.cal.fullPend = none →
    s.dev.rd Reg.CAL_STATUS.staged_dirty = 0 → s.dev.quar n = false → s.dev.calWork n = none → bit (s.dev.rd Reg.CAL_DUE.looms) n = true →
    Tab.get none s.dev.cal.lastCycle n = none → s.dev.freeSpares n = k :: t → s.dev.coreDue n k = true →
    (s.dev.box n).exch = [] → (s.dev.box n).moving = none →
    Leads s (.rollingCycleStart n) fun e => e.calState = 2 ∧ (∃ j < 34, ∃ after, e.calWork n = some ⟨j, none, 1, true, false, after⟩ ∧ s.dev.coreDue n j = true ∧
        (∀ i, after = some i → j = k ∧ s.dev.coreDue n i = true ∧ (s.dev.ballOf n i).isSome = true) ∧ s.dev.ballOf n j = none ∧ e.rd Reg.CAL_STATUS.core = j) ∧ e.rd Reg.CAL_STATUS.loom = n.val ∧ (∀ o : LoomId, o ≠ n → e.calWork o = s.dev.calWork o) ∧
      Keeps s.dev e [Reg.CAL_STATUS.state, Reg.CAL_STATUS.loom, Reg.CAL_STATUS.core, Reg.LOOM.SPARE.s32_ball n, Reg.LOOM.SPARE.s33_ball n]) ∧
  (∀ (s : State) (n : LoomId) (x : Exch), s.dev.quar n = false → (s.dev.box n).moving = none → (s.dev.box n).exch = [x] → s.dev.exchPoint n x.k = true →
    x.k < 32 → Leads s (.coreExchange n) fun e => e.box n = { s.dev.box n with exch := [], moving := some x } ∧
      e.rd (Reg.CHAN.STATUS.exchanging (32 * n.val + x.k)) = 1 ∧ ctxsKept s.dev e ∧ bytesKept s.dev e) ∧
  (∀ (s : State) (n : LoomId) (x : Exch), s.dev.calWork n = none → (s.dev.box n).moving = some x → x.k < 32 → (x.dest = 32 ∨ x.dest = 33) →
    s.dev.coreBad n x.dest = false →
    Leads s (.exchangeComplete n) fun e => (e.box n).moving = none ∧ e.rd (Reg.CHAN.STATUS.exchanging (32 * n.val + x.k)) = 0 ∧
      e.rd (Reg.CHAN.STATUS.core (32 * n.val + x.k)) = x.dest ∧ e.coreOf n x.k = x.dest ∧ bit (e.rd (Reg.LOOM.UNSPARED.pairs n)) x.k = false ∧
      (s.dev.coreOf n x.k = 65 - x.dest → e.rd (ballFld n (65 - x.dest)) = 63)) ∧
  (∀ s : State, s.dev.on Reg.CAL_STATUS.hash_busy = true →
    Leads s .calHashReady fun e => (∀ i < 8, e.rd (Reg.CAL_HASH.hash i) = leVal ((s.dev.calHash.drop (4 * i)).take 4)) ∧
      e.rd Reg.CAL_STATUS.hash_busy = 0 ∧ Keeps s.dev e (Reg.CAL_STATUS.hash_busy :: (List.range 8).map Reg.CAL_HASH.hash))

/-- R488, R489, R492, R496, R497, R499 to R502: temperature, power and the safe state. An update sets TEMP_MAX, warns and throttles at its
limits; a second reading at or above shutdown begins the shutdown; the governor moves one level at a time; safe drains the units and
ramps every forcing channel; THERMAL_HALT is left after an ack and a second below resume. -/
def Obligations.TemperatureAndPower : Prop :=
  (∀ (s : State) (t : Int), -320 ≤ t → t ≤ 1200 → (∀ i < 64, (s.dev.sensor i).faulty = false) → t < Int.ofNat (s.dev.rd Reg.TH_LIMIT_B.shutdown) →
    Leads s (.sensorUpdate (List.replicate 64 (some t))) fun e => e.rd Reg.TEMP_MAX.temp = toCode 16 t ∧ e.rd Reg.TEMP_MAX.sensor = 0 ∧
      (∀ i < 64, (e.sensor i).temp = t ∧ (e.sensor i).valid = true ∧ (e.sensor i).faulty = false ∧ (e.sensor i).isOver = false) ∧
      (s.dev.rd Reg.TH_STATUS.warn = 0 → e.rd Reg.TH_STATUS.warn = b2n (decide (Int.ofNat (s.dev.rd Reg.TH_LIMIT_A.warn) ≤ t))) ∧
      (s.dev.rd Reg.TH_STATUS.warn = 1 → e.rd Reg.TH_STATUS.warn = b2n (decide (Int.ofNat (s.dev.rd Reg.TH_LIMIT_A.warn) - 16 ≤ t))) ∧
      (Int.ofNat (s.dev.rd Reg.TH_LIMIT_A.throttle) ≤ t → e.rd Reg.TH_THROTTLED.shuttles = 2 ^ 25 - 1) ∧
      (t < Int.ofNat (s.dev.rd Reg.TH_LIMIT_A.throttle) - 16 → e.rd Reg.TH_THROTTLED.shuttles = 0) ∧
      Keeps s.dev e [Reg.TEMP_MAX.temp, Reg.TEMP_MAX.sensor, Reg.TH_STATUS.warn, Reg.TH_STATUS.warn_seen, Reg.TH_STATUS.throttle_seen,
        Reg.TH_THROTTLED.shuttles, Reg.CAL_DUE.looms, Reg.CAL_STATUS.due, Reg.CAL_STATUS.ladder_stale, Reg.LOG_STATUS.lost]) ∧
  (∀ (s : State) (t : Int), t ≤ 1200 → (∀ i < 64, (s.dev.sensor i).faulty = false) → Int.ofNat (s.dev.rd Reg.TH_LIMIT_B.shutdown) ≤ t →
    (s.dev.rd Reg.TH_STATUS.state = 0 ∨ s.dev.rd Reg.TH_STATUS.state = 1) →
    Leads s (.sensorUpdate (List.replicate 64 (some t))) fun e => (∀ i < 64, (e.sensor i).isOver = true) ∧
      ((∀ i < 64, (s.dev.sensor i).isOver = false) → e.rd Reg.TH_STATUS.state = s.dev.rd Reg.TH_STATUS.state) ∧
      ((s.dev.sensor 0).isOver = true → e.rd Reg.TH_STATUS.state = 2 ∧ e.therm.haltCause = 0)) ∧
  (∀ (s : State) (avg : Nat), let lv := s.dev.rd Reg.PWR_NOW.level
    let lim := s.dev.rd Reg.PWR_LIMIT.limit
    s.dev.rd Reg.PWR_LIMIT.trip_en = 0 → lv ≤ 16 →
    Leads s (.powerUpdate avg) fun e => e.rd Reg.PWR_NOW.power = min avg 0xFFFF ∧
      (s.dev.rd Reg.PWR_PEAK.peak < 2 ^ 16 → e.rd Reg.PWR_PEAK.peak = max (s.dev.rd Reg.PWR_PEAK.peak) (min avg 0xFFFF)) ∧
      (lim < avg → e.rd Reg.PWR_NOW.level = min (lv + 1) 16) ∧ (avg ≤ lim → lim ≤ avg + 200 → e.rd Reg.PWR_NOW.level = lv) ∧
      (avg + 200 < lim → e.rd Reg.PWR_NOW.level = lv - 1) ∧ (lim < avg → lv = 15 → e.rd Reg.TH_STATUS.gov_max = 1) ∧
      Keeps s.dev e [Reg.PWR_NOW.power, Reg.PWR_PEAK.peak, Reg.PWR_NOW.level, Reg.TH_STATUS.gov_max]) ∧
  (∀ (s : State) (m : Master), s.dev.rd Reg.TH_STATUS.state = 0 → Leads s (.safe m) fun e => e.rd Reg.TH_STATUS.state = 1 ∧
      (∀ u ∈ safeUnits, e.unit (unitKey u) ≠ .on) ∧ (∀ c < 768, s.dev.forcing c = true → s.dev.lead c = c → (e.chan c).ramp ≠ .none)) ∧
  (∀ (s : State) (m : Master), s.dev.rd Reg.TH_STATUS.state ≠ 0 → Leads s (.safe m) fun e => e = s.dev) ∧
  (∀ (s : State) (m : Master), s.dev.owns m thermBlock = true → s.dev.rd Reg.TH_STATUS.state = 1 →
    Leads s (.clearSafe m) fun e => e.rd Reg.TH_STATUS.state = 0 ∧ Keeps s.dev e [Reg.TH_STATUS.state]) ∧
  (∀ (s : State) (m : Master), s.dev.owns m thermBlock = false → ∀ i ∈ [Instr.clearSafe m, .thermalAck m],
    Leads s i fun e => e.rd Reg.TH_STATUS.cmd_reject = 1 ∧ Keeps s.dev e [Reg.TH_STATUS.cmd_reject]) ∧
  (∀ s : State, s.dev.rd Reg.TH_STATUS.state = 2 → s.dev.chans.any (fun e => e.2.ramp != .none) = false → s.dev.calState ≠ 1 →
    Leads s .safeStateRampsEnd fun e => e.rd Reg.TH_STATUS.state = 3 ∧ e.rd Reg.TH_STATUS.shutdown = 1 ∧
      e.log.life.halts = s.dev.log.life.halts + (if s.dev.therm.haltCause = 0 then 1 else 0) ∧
      Keeps s.dev e [Reg.TH_STATUS.state, Reg.TH_STATUS.shutdown]) ∧
  (∀ s : State, s.dev.rd Reg.TH_STATUS.state ≠ 2 → Leads s .safeStateRampsEnd fun e => e = s.dev) ∧
  (∀ (s : State) (m : Master), s.dev.owns m thermBlock = true → s.dev.rd Reg.TH_STATUS.state = 3 → s.dev.therm.coolSince = none →
    Leads s (.thermalAck m) fun e => e.rd Reg.TH_STATUS.ack_latched = 1 ∧ Keeps s.dev e [Reg.TH_STATUS.ack_latched]) ∧
  (∀ (s : State) (t : BitVec 48), let w : BitVec 48 := t + 100000000
    s.dev.rd Reg.TH_STATUS.state = 3 → s.dev.therm.coolSince = some t →
    Leads s .resumeTimer fun e => e.reed.time = (if s.dev.comesTo w = true then w else s.dev.reed.time) ∧
      (s.dev.on Reg.TH_STATUS.ack_latched = true → e.rd Reg.TH_STATUS.state = 0 ∧ e.rd Reg.TH_STATUS.ack_latched = 0) ∧
      (s.dev.on Reg.TH_STATUS.ack_latched = false → e.rd Reg.TH_STATUS.state = 3) ∧
      Keeps s.dev e [Reg.TH_STATUS.state, Reg.TH_STATUS.ack_latched, Reg.LOG_STATUS.lost, Reg.TH_PAUSED.ticks])

/-- R241 to R245, R503 to R508, R510: the logs. A host record of a permitted code joins the queue; a record is written to its slot of
the MRAM with its sequence number, time, code, data and check; each hour the lifetime counters go into the other of their two
copies, with the next generation. The fail log of a loom writes its 16-byte records to its ring, a line at a time, and the counts
of its records reach the result records of their sites. -/
def Obligations.LogRecords : Prop :=
  (∀ (s : State) (p : Port) (v : BitVec 32), let code := v.toNat % 256
    let low := s.dev.lowFor (portKey p) 0x348 (s.dev.rd Reg.LOG_HOST_LO.data)
    s.dev.owns p.master thermBlock = true → 0x40 ≤ code → code ≤ 0x7F → s.dev.log.queue.length < 32 →
    Leads s (.logHostRecord p v) fun e => e.log = { s.dev.log with queue := s.dev.log.queue ++ [⟨code, low % 2 ^ 24, s.dev.reed.time⟩] } ∧
      e.rd Reg.LOG_HOST_HI.code = code ∧ e.rd Reg.LOG_HOST_LO.data = low % 2 ^ 24 ∧ Keeps s.dev e [Reg.LOG_HOST_LO.data, Reg.LOG_HOST_HI.code]) ∧
  (∀ (s : State) (p : Port) (v : BitVec 32), let code := v.toNat % 256
    s.dev.owns p.master thermBlock = true → (code < 0x40 ∨ 0x7F < code) →
    Leads s (.logHostRecord p v) fun e => e.rd Reg.LOG_STATUS.write_reject = 1 ∧ e.log = s.dev.log ∧ Keeps s.dev e [Reg.LOG_STATUS.write_reject]) ∧
  (∀ (s : State) (p : Port) (v : BitVec 32), let code := v.toNat % 256
    s.dev.owns p.master thermBlock = true → 0x40 ≤ code → code ≤ 0x7F → 32 ≤ s.dev.log.queue.length →
    Leads s (.logHostRecord p v) fun e => e.log.queue = s.dev.log.queue ∧ e.log.life.dropped = s.dev.log.life.dropped + 1 ∧
      e.rd Reg.LOG_STATUS.lost = satInc 16 (s.dev.rd Reg.LOG_STATUS.lost) ∧
      Keeps s.dev e [Reg.LOG_HOST_LO.data, Reg.LOG_HOST_HI.code, Reg.LOG_STATUS.lost]) ∧
  (∀ (s : State) (x : LogEntry) (t : List LogEntry), let a := 16 * s.dev.log.slot
    s.dev.log.queue = x :: t → s.dev.log.waiting = [] → s.dev.log.slot < 2048 →
    Leads s .logRecordWrite fun e => leVal (e.mramBytes a 4) = s.dev.log.seq.toNat ∧ leVal (e.mramBytes (a + 4) 6) = x.time.toNat ∧
      leVal (e.mramBytes (a + 10) 1) = x.code % 256 ∧ leVal (e.mramBytes (a + 11) 3) = x.data % 2 ^ 24 ∧
      leVal (e.mramBytes (a + 14) 2) = crc16 (e.mramBytes a 14) % 2 ^ 16 ∧ (∀ k, ¬(a ≤ k ∧ k < a + 16) → e.mramByte k = s.dev.mramByte k) ∧
      e.log.queue = t ∧ e.log.slot = (s.dev.log.slot + 1) % 2048 ∧ e.log.seq = s.dev.log.seq + 1 ∧ Keeps s.dev e []) ∧
  (∀ s : State, s.dev.copyOf 0x8100 = none →
    Leads s .lifetimeHourUpdate fun e => e.copyOf 0x8100 = some 0x8140 ∧ e.copyGen 0x8140 = 1 ∧ e.copyField 0x8100 4 4 = 1 ∧
      e.log.life = { warn := s.dev.on Reg.TH_STATUS.warn } ∧ (∀ k, ¬(0x8140 ≤ k ∧ k < 0x8180) → e.mramByte k = s.dev.mramByte k) ∧ Keeps s.dev e []) ∧
  (∀ (s : State) (c : Nat), let b := 0x10240 - c
    s.dev.copyOf 0x8100 = some c → s.dev.copyGen c < 2 ^ 32 - 1 →
    Leads s .lifetimeHourUpdate fun e => e.copyOf 0x8100 = some b ∧ e.copyGen b = s.dev.copyGen c + 1 ∧
      e.copyField 0x8100 4 4 = (s.dev.copyField 0x8100 4 4 + 1) % 2 ^ 32 ∧
      e.copyField 0x8100 8 4 = (s.dev.copyField 0x8100 8 4 + s.dev.log.life.releases) % 2 ^ 32 ∧
      (∀ k, ¬(b ≤ k ∧ k < b + 64) → e.mramByte k = s.dev.mramByte k) ∧ Keeps s.dev e []) ∧
  (∀ (s : State) (n : LoomId) (b : Nat) (rest : List Nat), (s.dev.pat n).pendCount = b :: rest → (s.dev.pat n).queue.any (·.burst == b) = false →
    (∀ p ∈ (s.dev.pat n).siteFails, p.1 / 1024 ≠ b) →
    Leads s (.failCountUpdate n) fun e => e.pat n = { s.dev.pat n with pendCount := rest } ∧ e = { s.dev with pats := e.pats }) ∧
  (∀ (s : State) (n : LoomId) (b i k : Nat) (rest : List Nat), let a := (s.dev.site i).addr.toNat + 48
    (s.dev.pat n).pendCount = b :: rest → (s.dev.pat n).queue = [] → (s.dev.pat n).siteFails = [(b * 1024 + i, k)] → i < 1024 → (s.dev.site i).valid = true →
    a % 64 = 48 → s.dev.mayAccess (shuttlePart n) = true → s.dev.ecc (a / 32) = .good → s.dev.offTable a 16 = true →
    Leads s (.failCountUpdate n) fun e => leVal (e.bytesAt (a + 2) 3) = min (leVal (s.dev.bytesAt (a + 2) 3) + k) 0xFFFFFF ∧ bytesKeptBut s.dev e (a + 2) 3 ∧
      (e.pat n).pendCount = rest ∧ (e.pat n).siteFails = [] ∧ regsKept s.dev e (accessPeaks (shuttlePart n)) ∧ ctxsKept s.dev e) ∧
  (∀ (s : State) (n : LoomId) (r : LogRec) (i : Instr), let j := s.dev.rd (Reg.LOOM.FLOG_WPTR.index n)
    let a := 64 * s.dev.rd (Reg.LOOM.FLOG_BASE.line n) + 16 * j
    (i = .failLogLineWrite n ∧ r.kind = 2) ∨ (i = .failLogFlushTimeout n ∧ 1 ≤ r.kind) → (s.dev.pat n).queue = [r] → s.dev.ringBars n = false → j % 4 = 0 →
    j + 1 < 2 ^ s.dev.rd (Reg.LOOM.FLOG_CTRL.size_log2 n) → j + 1 < 2 ^ 24 → s.dev.mayAccess (flogPart n) = true → s.dev.offTable a 64 = true →
    Leads s i fun e => e.bytesAt a 64 = r.bytes (s.dev.rd (Reg.LOOM.FLOG_WPTR.lap n) == 1) ++ List.replicate 48 0 ∧ bytesKeptBut s.dev e a 64 ∧
      (e.pat n).queue = [] ∧ e.rd (Reg.LOOM.FLOG_WPTR.index n) = j + 1 ∧ regsKept s.dev e (Reg.LOOM.FLOG_WPTR.index n :: accessPeaks (flogPart n)) ∧
      ctxsKept s.dev e)

/-- R511 to R534: microcode. The owner loads an image while the state is IDLE; the image that passes every check fills a slot and every
shadow bank; a swap exchanges the banks of a pending shuttle at an instant that allows it, and is given up by an abort or at its
limit; sure mode follows the mask. -/
def Obligations.Microcode : Prop :=
  (∀ (s : State) (m : Master), s.dev.owns m secBlock = true → s.dev.rd Reg.UCODE_STATUS.state = 0 →
    Leads s (.ucodeLoad m) fun e => e.rd Reg.UCODE_STATUS.state = 1 ∧ e.ucode = s.dev.ucode ∧ Keeps s.dev e [Reg.UCODE_STATUS.state]) ∧
  (∀ (s : State) (m : Master), s.dev.owns m secBlock = false → ∀ i ∈ [Instr.ucodeLoad m, .ucodeSwap m, .sureExit m],
    Leads s i fun e => e.rd Reg.UCODE_CTRL.cmd_reject = 1 ∧ e.rd Reg.UCODE_STATUS.reject_code = 1 ∧ e.ucode = s.dev.ucode ∧
      Keeps s.dev e [Reg.UCODE_CTRL.cmd_reject, Reg.UCODE_STATUS.reject_code]) ∧
  (∀ (s : State) (m : Master), s.dev.owns m secBlock = true → s.dev.rd Reg.UCODE_STATUS.state = 1 → ∀ i ∈ [Instr.ucodeLoad m, .ucodeSwap m],
    Leads s i fun e => e.rd Reg.UCODE_CTRL.cmd_reject = 1 ∧ e.rd Reg.UCODE_STATUS.reject_code = 2 ∧ e.ucode = s.dev.ucode ∧
      Keeps s.dev e [Reg.UCODE_CTRL.cmd_reject, Reg.UCODE_STATUS.reject_code]) ∧
  (∀ s : State, let a := 64 * s.dev.rd Reg.UCODE_IMG.line
    let image := s.dev.bytesAt a imageBytes
    s.dev.rd Reg.UCODE_STATUS.state = 1 → s.dev.mayAccess .security = true → s.dev.clean a (min imageBytes (granSize - a)) = true →
    Leads s .ucodeLoadComplete fun e => e.rd Reg.UCODE_STATUS.state = 0 ∧
      match s.dev.imageCheck image (decide (a + imageBytes ≤ 2 ^ 33)) with
      | .error k => e.rd Reg.UCODE_STATUS.load_code = k ∧ e.rd Reg.UCODE_STATUS.load_reject = 1 ∧ e.ucode = s.dev.ucode ∧
          Keeps s.dev e ([Reg.UCODE_STATUS.state, Reg.UCODE_STATUS.load_code, Reg.UCODE_STATUS.load_reject, Reg.LOG_STATUS.lost] ++ accessPeaks .security)
      | .ok (k, p) => let v : BitVec 24 := BitVec.ofNat 24 (leVal ((image.drop 6).take 3))
          e.rd Reg.UCODE_STATUS.load_done = 1 ∧ (∀ j < 25, e.ustore j = { s.dev.ustore j with shd := ⟨k, v⟩ }) ∧
          (if k = 1 then e.ucode.slotA else e.ucode.slotB) = ⟨true, v, p⟩ ∧
          Keeps s.dev e ([Reg.UCODE_STATUS.state, Reg.UCODE_STATUS.load_done, Reg.LOG_STATUS.lost] ++ accessPeaks .security)) ∧
  (∀ (s : State) (m : Master), let mask := s.dev.rd Reg.UCODE_MASK.shuttles
    s.dev.owns m secBlock = true → (s.dev.rd Reg.UCODE_STATUS.state = 0 ∨ s.dev.rd Reg.UCODE_STATUS.state = 3) → mask ≠ 0 →
    (∀ k < 25, bit mask k = true → (s.dev.ustore k).shd.src ≠ 3) →
    Leads s (.ucodeSwap m) fun e => e.rd Reg.UCODE_STATUS.state = 3 ∧
      (∀ k < 25, (e.ustore k).pend = (bit mask k || (s.dev.ustore k).pend) ∧ (e.ustore k).act = (s.dev.ustore k).act ∧
        (e.ustore k).shd = (s.dev.ustore k).shd) ∧ Keeps s.dev e [Reg.UCODE_STATUS.state]) ∧
  (∀ (s : State) (m : Master), s.dev.owns m secBlock = true → s.dev.rd Reg.UCODE_STATUS.state = 0 → s.dev.rd Reg.UCODE_MASK.shuttles = 0 →
    Leads s (.ucodeSwap m) fun e => e.rd Reg.UCODE_CTRL.cmd_reject = 1 ∧ e.rd Reg.UCODE_STATUS.reject_code = 3 ∧ e.ucode = s.dev.ucode) ∧
  (∀ (s : State) (m : Master), s.dev.rd Reg.UCODE_STATUS.state = 3 →
    Leads s (.swapAbort m) fun e => (∀ k < 25, (e.ustore k).pend = false ∧ (e.ustore k).act = (s.dev.ustore k).act) ∧ e.rd Reg.UCODE_STATUS.state = 0 ∧
      e.rd Reg.UCODE_STATUS.swap_done = 1 ∧ Keeps s.dev e [Reg.UCODE_STATUS.state, Reg.UCODE_STATUS.swap_done]) ∧
  (∀ (s : State) (k : Fin 25) (n : Fin 3), let x := s.dev.ustore k
    x.pend = true →
    (n.val < 2 → s.dev.swapOpen k = true → Leads s (.shuttleSwap k n) fun e =>
      e.ustore k = { x with act := x.shd, shd := x.act, pend := false, limit := none } ∧ (∀ j, j ≠ k.val → e.ustore j = s.dev.ustore j) ∧
        Keeps s.dev e [Reg.UCODE_STATUS.state, Reg.UCODE_STATUS.swap_done, Reg.LOG_STATUS.lost]) ∧
    (n.val < 2 → s.dev.swapOpen k = false → Leads s (.shuttleSwap k n) fun e => e = s.dev) ∧
    (n.val = 2 → Leads s (.shuttleSwap k n) fun e => e.ustore k = { x with pend := false, limit := none } ∧ e.rd Reg.UCODE_STATUS.swap_fail = 1 ∧
        Keeps s.dev e [Reg.UCODE_STATUS.state, Reg.UCODE_STATUS.swap_done, Reg.UCODE_STATUS.swap_fail])) ∧
  (∀ (s : State) (k : Fin 25) (t : BitVec 48), (s.dev.ustore k).pend = true → (s.dev.ustore k).limit = some t →
    Leads s (.swapTimeout k) fun e => e.ustore k = { s.dev.ustore k with pend := false, limit := none } ∧ e.rd Reg.UCODE_STATUS.swap_timeout = 1 ∧
      e.reed.time = (if s.dev.comesTo t = true then t else s.dev.reed.time) ∧
      Keeps s.dev e [Reg.UCODE_STATUS.state, Reg.UCODE_STATUS.swap_done, Reg.UCODE_STATUS.swap_timeout, Reg.TH_PAUSED.ticks]) ∧
  (∀ (s : State) (m : Master), let mask := s.dev.rd Reg.UCODE_MASK.shuttles
    (Leads s (.sureEnter m) fun e => (∀ k < 25, e.ustore k = { s.dev.ustore k with sure := (s.dev.ustore k).sure || bit mask k }) ∧
      Keeps s.dev e [Reg.LOG_STATUS.lost]) ∧
    (s.dev.owns m secBlock = true → Leads s (.sureExit m) fun e =>
      (∀ k < 25, e.ustore k = { s.dev.ustore k with sure := (s.dev.ustore k).sure && !bit mask k }) ∧ Keeps s.dev e [Reg.LOG_STATUS.lost]))

/-- R535 to R555: authority, quarantine, and sparing. The owner of block 0 sets owners, and a permitted master seizes every block; a
quarantine holds the loom's units until its release, the pattern path once its burst has ended and the Mill once its posted
writes are done; spares take and return ball pairs. -/
def Obligations.OwnersQuarantineAndSparing : Prop :=
  (∀ (s : State) (m : Master) (slot : Fin 3) (v : BitVec 32), s.dev.owns m 0 = true →
    Leads s (.ownerWrite m slot v) fun e => (∀ i < ownerFields slot, e.rd (ownerFld (ownerField slot i)) = bits v.toNat (2 * i) 2) ∧
      Keeps s.dev e (Reg.LOG_STATUS.lost :: (List.range (ownerFields slot)).map fun i => ownerFld (ownerField slot i))) ∧
  (∀ (s : State) (m : Master) (slot : Fin 3) (v : BitVec 32), (∀ b ∈ allBlocks, s.dev.owns m b = false) →
    (∃ i < ownerFields slot, s.dev.rd (ownerFld (ownerField slot i)) ≠ bits v.toNat (2 * i) 2) →
    Leads s (.ownerWrite m slot v) fun e => e.rd Reg.GLB_OWNER_STATUS.owner_reject = 1 ∧ e.rd Reg.GLB_OWNER_STATUS.writer = masterCode m ∧
      Keeps s.dev e [Reg.GLB_OWNER_STATUS.owner_reject, Reg.GLB_OWNER_STATUS.writer, Reg.GLB_OWNER_STATUS.block]) ∧
  (∀ (s : State) (m : Master), let v := BitVec.ofNat 32 (1 + 2 * s.dev.rd Reg.GLB_TAKEOVER.bp_en + 4 * s.dev.rd Reg.GLB_TAKEOVER.cs_en)
    let may := m = .board ∧ s.dev.rd Reg.GLB_TAKEOVER.bp_en = 1 ∨ m = .core ∧ s.dev.rd Reg.GLB_TAKEOVER.cs_en = 1
    s.dev.rd Reg.GLB_TAKEOVER.bp_en < 2 → s.dev.rd Reg.GLB_TAKEOVER.cs_en < 2 →
    (may → Leads s (.seize m v) fun e => (∀ b ∈ allBlocks, e.owns m b = true) ∧ Keeps s.dev e (Reg.LOG_STATUS.lost :: allBlocks.map ownerFld)) ∧
    (¬may → Leads s (.seize m v) fun e => e.rd Reg.GLB_OWNER_STATUS.owner_reject = 1 ∧ e.rd Reg.GLB_OWNER_STATUS.block = 0 ∧
      Keeps s.dev e [Reg.GLB_OWNER_STATUS.owner_reject, Reg.GLB_OWNER_STATUS.writer, Reg.GLB_OWNER_STATUS.block])) ∧
  (∀ (s : State) (m : Master) (n : LoomId), s.dev.quar n = false →
    Leads s (.quarantineCommand m n) fun e => (e.box n).pend = some ((s.dev.box n).pend.getD 4) ∧ e = { s.dev with contain := e.contain }) ∧
  (∀ (s : State) (die : Fin 4), (∀ i < 6, s.dev.rd (Reg.LOOM.QUAR.hub_down (6 * die.val + i)) = 0) →
    Leads s (.dieHubLinkFailure die) fun e => (∀ i < 6, e.rd (Reg.LOOM.QUAR.hub_down (6 * die.val + i)) = 1 ∧
      (s.dev.quar (6 * die.val + i) = false → (e.box (6 * die.val + i)).pend = some ((s.dev.box (6 * die.val + i)).pend.getD 3))) ∧
      e.rd Reg.GLB_ERR_STATUS.loom_err = 1 ∧
      Keeps s.dev e ([Reg.GLB_ERR_STATUS.loom_err, Reg.LOG_STATUS.lost] ++ (List.range 6).map fun i => Reg.LOOM.QUAR.hub_down (6 * die.val + i))) ∧
  (∀ (s : State) (die : Fin 4), Leads s (.dieHubLinkRestored die) fun e => (∀ i < 6, e.rd (Reg.LOOM.QUAR.hub_down (6 * die.val + i)) = 0) ∧
      Keeps s.dev e ((List.range 6).map fun i => Reg.LOOM.QUAR.hub_down (6 * die.val + i))) ∧
  (∀ (s : State) (n : LoomId) (k : Nat), (s.dev.box n).pend = some k →
    Leads s (.quarantineBegin n) fun e => e.quar n = true ∧ e.rd (Reg.LOOM.QUAR.cause n) = k % 8 ∧ (e.box n).pend = none ∧
      e.rd Reg.GLB_ERR_STATUS.quar = 1 ∧ (∀ u ∈ [kShuttle n, kCapture n, kTme n], e.unit u = .held) ∧
      ((∀ b, ¬s.dev.plays n b) → e.unit (kPattern n) = .held) ∧ ((s.dev.mill n).live = false → (s.dev.mill n).ended = false → e.unit (kMill n) = .held) ∧
      ∀ b, s.dev.plays n b → (e.pat n).burst.map (·.halt) = some (some (b.halt.getD 4))) ∧
  (∀ (s : State) (m : Master) (n : LoomId), s.dev.owns m (loomBlock n) = true → s.dev.rd (Reg.LOOM.QUAR.hub_down n) = 0 → s.dev.quar n = true →
    Leads s (.quarantineRelease m n) fun e => e.quar n = false ∧ e.rd (Reg.LOOM.QUAR.cause n) = 0 ∧ (e.box n).errs = [] ∧
      (∀ u ∈ [kShuttle n, kPattern n, kMill n, kCapture n, kTme n], e.unit u = if s.dev.unit u = .held then .off else s.dev.unit u) ∧
      ctxsKept s.dev e ∧ bytesKept s.dev e) ∧
  (∀ (s : State) (m : Master) (n : LoomId), s.dev.owns m (loomBlock n) = true → s.dev.rd (Reg.LOOM.QUAR.hub_down n) = 1 →
    Leads s (.quarantineRelease m n) fun e => e.rd (Reg.LOOM.QUAR.release_reject n) = 1 ∧ Keeps s.dev e [Reg.LOOM.QUAR.release_reject n]) ∧
  (∀ (s : State) (m : Master) (n : LoomId) (k : Fin 32), s.dev.owns m (loomBlock n) = true → s.dev.quar n = false → s.dev.sparePend n k = false →
    s.dev.calWork n = none →
    (∀ j t, s.dev.freeSpares n = j :: t → Leads s (.spareOut m n k) fun e => (e.box n).exch = (s.dev.box n).exch ++ [⟨k, j, 2⟩] ∧ Keeps s.dev e []) ∧
    (s.dev.coreBad n k = false → s.dev.coreOf n k ≠ k.val →
      Leads s (.spareReturn m n k) fun e => (e.box n).exch = (s.dev.box n).exch ++ [⟨k, k, 2⟩] ∧ Keeps s.dev e [])) ∧
  (∀ (s : State) (m : Master) (n : LoomId) (k : Fin 32) (j : Fin 34), s.dev.owns m (loomBlock n) = false →
    ∀ i ∈ [Instr.spareOut m n k, .spareReturn m n k, .markFailed m n j],
    Leads s i fun e => e.rd (Reg.LOOM.SPARE.exch_reject n) = 1 ∧ e.rd (Reg.LOOM.SPARE.reject_code n) = 1 ∧ e.contain = s.dev.contain ∧
      Keeps s.dev e [Reg.LOOM.SPARE.exch_reject n, Reg.LOOM.SPARE.reject_code n]) ∧
  (∀ (s : State) (m : Master) (n : LoomId) (j : Fin 34), s.dev.coreBad n j = false →
    (s.dev.owns m (loomBlock n) = true → s.dev.quar n = false →
      Leads s (.markFailed m n j) fun e => e.coreBad n j = true ∧ e.rd Reg.GLB_ERR_STATUS.core_fail = 1) ∧
    (Leads s (.trimStoreError n j) fun e => e.coreBad n j = true ∧ e.rd Reg.GLB_ERR_STATUS.core_fail = 1))

/-- R556 to R558, R563, R574 to R578, R589 to R591: event counters, supplies and the TAP. A source write clears its counter; run starts at
once or at the next synchronous instant; an occurrence adds 1; a brown-out resets the device or opens the balls; VCORE moves in
steps; the TAP controls balls only while RESET_N is low. -/
def Obligations.EventsSuppliesAndTap : Prop :=
  (∀ (s : State) (m : Master) (i : Fin 16) (v : BitVec 32), let src := v.toNat % 256
    let loom := v.toNat / 256 % 32
    (s.dev.rd (Reg.EVC_SEL.src i) ≠ src ∨ s.dev.rd (Reg.EVC_SEL.loom i) ≠ loom) → s.dev.owns m evcBlock = true →
    (src < 0xA0 → (0x80 ≤ src ∨ loom < 24 ∨ loom = 31) → Leads s (.evcSourceWrite m none i v) fun e => e.rd (Reg.EVC_SEL.src i) = src ∧
      e.rd (Reg.EVC_SEL.loom i) = loom ∧ e.rd (Reg.EVC.count i) = 0 ∧ (∀ k < 16, k ≠ i.val → e.rd (Reg.EVC.count k) = s.dev.rd (Reg.EVC.count k)) ∧
      Keeps s.dev e [Reg.EVC_SEL.src i, Reg.EVC_SEL.loom i]) ∧
    ((0xA0 ≤ src ∨ src < 0x80 ∧ 24 ≤ loom ∧ loom ≤ 30) → Leads s (.evcSourceWrite m none i v) fun e => e.rd Reg.EVC_STATUS.sel_reject = 1 ∧
      Keeps s.dev e [Reg.EVC_STATUS.sel_reject])) ∧
  (∀ (s : State) (m : Master) (n : LoomId) (i : Fin 16) (v : BitVec 32), let src := v.toNat / 2 ^ (8 * i.val) % 256
    i.val < 4 → s.dev.rd (Reg.LOOM.EVC_SEL.src n i) ≠ src → s.dev.owns m (loomBlock n) = true →
    (src < 0x80 → Leads s (.evcSourceWrite m (some n) i v) fun e => e.rd (Reg.LOOM.EVC_SEL.src n i) = src ∧ e.rd (Reg.LOOM.EVC.count n i) = 0 ∧
      Keeps s.dev e [Reg.LOOM.EVC_SEL.src n i]) ∧
    (0x80 ≤ src → Leads s (.evcSourceWrite m (some n) i v) fun e => e.rd Reg.EVC_STATUS.sel_reject = 1 ∧ Keeps s.dev e [Reg.EVC_STATUS.sel_reject])) ∧
  (∀ (s : State) (m : Master) (v : BitVec 32), let run := v.toNat % 2 ^ 16
    s.dev.owns m evcBlock = true → s.dev.rd Reg.EVC_CTRL.run ≠ run →
    (v.getLsbD 16 = false → Leads s (.evcRunWrite m v) fun e => e.rd Reg.EVC_CTRL.run = run ∧ e.rd Reg.EVC_CTRL.sync = 0 ∧ e.evcRun = none ∧
      Keeps s.dev e [Reg.EVC_CTRL.run, Reg.EVC_CTRL.sync]) ∧
    (v.getLsbD 16 = true → Leads s (.evcRunWrite m v) fun e => e.rd Reg.EVC_CTRL.sync = 1 ∧ e.evcRun = some run ∧ Keeps s.dev e [Reg.EVC_CTRL.sync])) ∧
  (∀ (s : State) (run : Nat), let t : BitVec 48 := BitVec.ofNat 48 ((s.dev.now + 65535) / 65536 * 65536)
    s.dev.evcRun = some run → s.dev.comesTo t = true →
    Leads s .evcSyncStart fun e => e.reed.time = t ∧ e.rd Reg.EVC_CTRL.run = run % 2 ^ 16 ∧ e.evcRun = none ∧ Keeps s.dev e [Reg.EVC_CTRL.run, Reg.TH_PAUSED.ticks]) ∧
  (∀ (s : State) (m : Master), s.dev.owns m evcBlock = true →
    Leads s (.clearAll m) fun e => (∀ i < 16, e.rd (Reg.EVC.count i) = 0) ∧ Keeps s.dev e []) ∧
  (∀ (s : State) (i : Nat), let v := s.dev.rd (Reg.EVC.count i)
    s.dev.log.queue ≠ [] → i < 16 → bit (s.dev.rd Reg.EVC_CTRL.run) i = true → s.dev.rd (Reg.EVC_SEL.src i) = 0x98 →
    Leads s .logRecordWrite fun e => e.rd (Reg.EVC.count i) = (v + 1) % 2 ^ 48 ∧ (v + 1 = 2 ^ 48 → bit (e.rd Reg.EVC_STATUS.ovf) i = true)) ∧
  (∀ s : State, Leads s .powerGood fun e => e = { s.dev with supply := { s.dev.supply with good := true } }) ∧
  (∀ (s : State) (torn : Fin 16), Leads s (.brownOut torn) fun e => e.supply = { good := false, vcore := 750 } ∧ e.boot.held = true ∧
      (∀ f : Fld, f.key ≠ Reg.SEC_STATUS.reset_cause.key → e.rd f = f.rst) ∧ e.rd Reg.SEC_STATUS.reset_cause = 3 ∧
      (∀ k, (e.ctx k).state = .free) ∧ (∀ a, e.byte a = 0) ∧ ∀ u, e.unit u = .off) ∧
  (∀ s : State, Leads s .vhiVloBrownOut fun e => ∀ c < 768, e.rd (Reg.CHAN.STATUS.husk_over c) = 1 ∧ e.chMode c = 0 ∧ (e.chan c).opened = true ∧
      (e.chan c).ramp = .none) ∧
  (∀ (s : State) (mv : Nat) (ack : Bool),
    (ack = true → s.dev.boot.held = false → 650 ≤ mv → mv ≤ 850 → mv ≤ s.dev.supply.vcore + 10 → s.dev.supply.vcore ≤ mv + 10 →
      Leads s (.avsVcoreStep mv ack) fun e => e = { s.dev with supply := { s.dev.supply with vcore := mv } }) ∧
    ((ack = false ∨ s.dev.boot.held = true ∨ mv < 650 ∨ 850 < mv ∨ s.dev.supply.vcore + 10 < mv ∨ mv + 10 < s.dev.supply.vcore) →
      Leads s (.avsVcoreStep mv ack) fun e => e = s.dev)) ∧
  (∀ (s : State) (balls cells : BitVec 43),
    (Leads s (.extest balls cells) fun e => e = { s.dev with jtag := ⟨.extest, balls, cells⟩ } ∧
      (s.dev.boot.pinLow = true → e.ballDrive = .held cells)) ∧
    (Leads s (.samplePreload balls cells) fun e => e = { s.dev with jtag := ⟨.sample, balls, cells⟩ } ∧ e.ballDrive = .function)) ∧
  (∀ s : State,
    (∀ p ∈ [(Instr.tapReset, TapInstr.idcode), (.idcode, .idcode), (.bypass, .bypass)],
      Leads s p.1 fun e => e = { s.dev with jtag := { s.dev.jtag with instr := p.2 } } ∧ e.ballDrive = .function) ∧
    (Leads s .clamp fun e => e = { s.dev with jtag := { s.dev.jtag with instr := .clamp } } ∧
      e.ballDrive = if s.dev.boot.pinLow then .held s.dev.jtag.preload else .function) ∧
    (Leads s .highz fun e => e = { s.dev with jtag := { s.dev.jtag with instr := .highz } } ∧
      e.ballDrive = if s.dev.boot.pinLow then .floating else .function))

/-- R594 to R609, R611, R612: resets, start-up, the lock and the commands of attestation. Each reset leaves every register at its
reset value but the cause; VERIFY takes the first slot that passes; the watchdog bars the slot; the lock, ready, attest, pubkey and
dev_reset act as their rules say. -/
def Obligations.BootAndSecurity : Prop :=
  (∀ (s : State) (torn : Fin 16), let k := s.dev.rd Reg.SEC_STATUS.reset_cause
    Leads s (.pinReset torn) fun e => e.boot.pinLow = true ∧ e.boot.held = true ∧ e.boot.barredA = false ∧ e.boot.barredB = false ∧
      e.rd Reg.SEC_STATUS.reset_cause = (if s.dev.boot.held = true ∧ (k = 1 ∨ k = 3) then k else 2) ∧
      (∀ f : Fld, f.key ≠ Reg.SEC_STATUS.reset_cause.key → e.rd f = f.rst) ∧ (∀ j, (e.ctx j).state = .free) ∧ ∀ a, e.byte a = 0) ∧
  (∀ s : State, let k := s.dev.rd Reg.SEC_STATUS.reset_cause
    s.dev.boot.held = true → s.dev.supply.good = true →
    (k ≠ 4 → k ≠ 5 → Leads s .resetRelease fun e => e.stage = 1 ∧ e.boot = { s.dev.boot with held := false, pinLow := false } ∧
      e.log.life.releases = s.dev.log.life.releases + 1 ∧ Keeps s.dev e [Reg.SEC_STATUS.stage]) ∧
    (s.dev.boot.pinLow = false → (k = 4 ∨ k = 5) → Leads s .internalResetRelease fun e => e.stage = 1 ∧ e.boot = { s.dev.boot with held := false, pinLow := false } ∧
      e.log = s.dev.log ∧ Keeps s.dev e [Reg.SEC_STATUS.stage])) ∧
  (∀ (s : State) (f : BootFlash), let a := slotCode (bootDir f) f.manA f.dqsA s.dev.boot.barredA
    let b := slotCode (bootDir f) f.manB f.dqsB s.dev.boot.barredB
    s.dev.stage = 2 → Leads s (.bootVerifyComplete f) fun e => e.rd Reg.SEC_STATUS.code_a = a ∧
      (if a = 0 then e.stage = 3 ∧ e.rd Reg.SEC_STATUS.slot = 0 ∧ e.boot.fwDigest = digestVal (signedSpan f.manA) ∧ e.flash.hash = hashStore f.manA
       else if b = 0 then e.stage = 3 ∧ e.rd Reg.SEC_STATUS.slot = 1 ∧ e.rd Reg.SEC_STATUS.code_b = 0 ∧
         e.boot.fwDigest = digestVal (signedSpan f.manB) ∧ e.flash.hash = hashStore f.manB
       else e.stage = 5 ∧ e.rd Reg.SEC_STATUS.code_b = b ∧ e.rd Reg.SEC_STATUS.boot_fail = 1 ∧ ctxsKept s.dev e) ∧
      ((a = 0 ∨ b = 0) → (e.ctx 0).state = .ready ∧ (e.ctx 0).home = 24 ∧ (e.ctx 0).pc = 0 ∧ e.rd Reg.FL_XIP.en = 1 ∧ ∀ k, k ≠ 0 → e.ctx k = s.dev.ctx k)) ∧
  (∀ s : State, s.dev.stage = 3 → Leads s .bootWatchdogExpiry fun e => e.rd Reg.SEC_STATUS.reset_cause = 5 ∧ e.boot.held = true ∧
      e.boot.barredA = (s.dev.boot.barredA || !s.dev.on Reg.SEC_STATUS.slot) ∧ e.boot.barredB = (s.dev.boot.barredB || s.dev.on Reg.SEC_STATUS.slot) ∧
      (∀ f : Fld, f.key ≠ Reg.SEC_STATUS.reset_cause.key → e.rd f = f.rst) ∧ e.log.queue = []) ∧
  (∀ (s : State) (m : Master), s.dev.owns m bootBlock = true → (s.dev.stage = 3 ∨ s.dev.stage = 4) →
    Leads s (.lock m) fun e => e.secLocked = true ∧ Keeps s.dev e [Reg.SEC_STATUS.locked, Reg.LOG_STATUS.lost]) ∧
  (∀ (s : State) (m : Master), (s.dev.owns m bootBlock = false ∨ s.dev.stage < 3 ∨ s.dev.stage = 5) →
    Leads s (.lock m) fun e => e.rd Reg.SEC_CTRL.cmd_reject = 1 ∧ Keeps s.dev e [Reg.SEC_CTRL.cmd_reject]) ∧
  (∀ (s : State) (m : Master), (m = .core → s.dev.stage = 3 → Leads s (.ready m) fun e => e.stage = 4 ∧ Keeps s.dev e [Reg.SEC_STATUS.stage]) ∧
    ((m ≠ .core ∨ s.dev.stage ≠ 3) → Leads s (.ready m) fun e => e.rd Reg.SEC_CTRL.cmd_reject = 1 ∧ Keeps s.dev e [Reg.SEC_CTRL.cmd_reject])) ∧
  (∀ (s : State) (m : Master) (bad : Fin 3), let l := s.dev.rd Reg.SEC_ATT_ADDR.line
    let i := s.dev.hssNext
    s.dev.owns m bootBlock = true → 3 ≤ s.dev.stage → s.dev.boot.att = none → l + 87 ≤ 2 ^ 27 →
    (s.dev.mayAccess .security = true → s.dev.clean (64 * l) 32 = true → Leads s (.attest m bad) fun e =>
      (if 2 ^ 25 ≤ i then e.rd Reg.SEC_STATUS.att_code = 4 ∧ e.rd Reg.SEC_STATUS.att_reject = 1 ∧ e.boot.att = none
       else if Config.fuseOk = false then e.rd Reg.SEC_STATUS.att_code = 7 ∧ e.rd Reg.SEC_STATUS.att_reject = 1 ∧ e.boot.att = none
       else if bad.val = 2 then e.rd Reg.SEC_STATUS.att_code = 5 ∧ e.rd Reg.SEC_STATUS.att_reject = 1 ∧ e.boot.att = none
       else e.boot.att = some ⟨some i, lineOf (s.dev.bytesAt (64 * l) 32), l⟩ ∧ e.rd Reg.SEC_STATUS.att_busy = 1 ∧
         (s.dev.copyOf 0x8200 = none → e.hssNext = i + 1)) ∧
      Keeps s.dev e ([Reg.SEC_STATUS.att_code, Reg.SEC_STATUS.att_reject, Reg.SEC_STATUS.att_busy, Reg.LOG_STATUS.lost] ++ accessPeaks .security)) ∧
    (Leads s (.pubkey m) fun e =>
      (if Config.fuseOk = false then e.rd Reg.SEC_STATUS.att_code = 7 ∧ e.rd Reg.SEC_STATUS.att_reject = 1 ∧ e.boot.att = none
       else e.boot.att = some ⟨none, 0, l⟩ ∧ e.rd Reg.SEC_STATUS.att_busy = 1) ∧
      Keeps s.dev e [Reg.SEC_STATUS.att_code, Reg.SEC_STATUS.att_reject, Reg.SEC_STATUS.att_busy])) ∧
  (∀ (s : State) (m : Master) (bad : Fin 3), s.dev.owns m bootBlock = true → 3 ≤ s.dev.stage →
    (s.dev.boot.att.isSome = true ∨ 2 ^ 27 < s.dev.rd Reg.SEC_ATT_ADDR.line + 87) → ∀ i ∈ [Instr.attest m bad, .pubkey m],
    Leads s i fun e => e.rd Reg.SEC_STATUS.att_reject = 1 ∧ e.rd Reg.SEC_STATUS.att_code = (if s.dev.boot.att.isSome then 1 else 2) ∧ e.boot = s.dev.boot ∧
      Keeps s.dev e [Reg.SEC_STATUS.att_code, Reg.SEC_STATUS.att_reject]) ∧
  (∀ (s : State) (m : Master), s.dev.owns m bootBlock = true →
    Leads s (.devReset m 0xA508) fun e => e.rd Reg.SEC_STATUS.reset_cause = 4 ∧ e.boot.held = true ∧ e.boot.barredA = s.dev.boot.barredA ∧
      e.boot.barredB = s.dev.boot.barredB ∧ (∀ f : Fld, f.key ≠ Reg.SEC_STATUS.reset_cause.key → e.rd f = f.rst) ∧
      (∀ j, (e.ctx j).state = .free) ∧ ∀ a, e.byte a = 0) ∧
  (∀ (s : State) (m : Master), s.dev.rd Reg.SEC_CTRL.irq_en = 0 →
    Leads s (.devReset m 8) fun e => e.rd Reg.SEC_CTRL.cmd_reject = 1 ∧ Keeps s.dev e [Reg.SEC_CTRL.cmd_reject])
end

