-- ==== Sys2Proof/Laws/Tab.lean ====
section
/-! SUPPORT. The laws of sparse tables: what a read gives after a write, and that a write keeps the canonical form. -/
namespace Sys2Proof

variable {α : Type}

@[simp] theorem Tab.get_nil (d : α) (k : Nat) : Tab.get d [] k = d := rfl

theorem Tab.get_put_same (d : α) (k : Nat) (v : α) : ∀ t : Tab α, Tab.get d (t.put k v) k = v
  | [] => by simp [Tab.put, Tab.get]
  | (j, u) :: t => by
    simp only [Tab.put]
    split
    · simp [Tab.get]
    · split
      · simp [Tab.get]
      · simp only [Tab.get]; rw [if_neg (by omega)]; exact Tab.get_put_same d k v t

theorem Tab.get_put_other (d : α) (v : α) (k i : Nat) (h : i ≠ k) : ∀ t : Tab α, Tab.get d (t.put k v) i = Tab.get d t i
  | [] => by simp only [Tab.put, Tab.get]; rw [if_neg (Ne.symm h)]
  | (j, u) :: t => by
    simp only [Tab.put]
    split
    · rw [Tab.get, if_neg (Ne.symm h)]
    · split
      · rename_i _ hk
        simp only [Tab.get]; rw [if_neg (Ne.symm h), if_neg (by omega)]
      · simp only [Tab.get]; rw [Tab.get_put_other d v k i h t]

theorem Tab.get_erase_same (d : α) (k : Nat) : ∀ t : Tab α, Tab.get d (t.erase k) k = d
  | [] => rfl
  | (j, u) :: t => by
    simp only [Tab.erase]
    split
    · exact Tab.get_erase_same d k t
    · rename_i h
      simp only [Tab.get]; rw [if_neg h]; exact Tab.get_erase_same d k t

theorem Tab.get_erase_other (d : α) (k i : Nat) (h : i ≠ k) : ∀ t : Tab α, Tab.get d (t.erase k) i = Tab.get d t i
  | [] => rfl
  | (j, u) :: t => by
    simp only [Tab.erase]
    split
    · rename_i hj
      simp only [Tab.get]; rw [if_neg (by omega)]; exact Tab.get_erase_other d k i h t
    · simp only [Tab.get]; rw [Tab.get_erase_other d k i h t]

variable [DecidableEq α]

/-- A read of the key just written. -/
@[simp] theorem Tab.get_set_same (d : α) (t : Tab α) (k : Nat) (v : α) : Tab.get d (Tab.set d t k v) k = v := by
  unfold Tab.set
  split
  · rename_i h; rw [h]; exact Tab.get_erase_same d k t
  · exact Tab.get_put_same d k v t

/-- A read of another key, whatever it reads as unlisted. -/
theorem Tab.get_set_other (d e : α) (t : Tab α) (k i : Nat) (v : α) (h : i ≠ k) : Tab.get e (Tab.set d t k v) i = Tab.get e t i := by
  unfold Tab.set
  split
  · exact Tab.get_erase_other e k i h t
  · exact Tab.get_put_other e v k i h t

/-- A read of any key after a write. -/
theorem Tab.get_set (d : α) (t : Tab α) (k i : Nat) (v : α) : Tab.get d (Tab.set d t k v) i = if i = k then v else Tab.get d t i := by
  split
  · rename_i h; rw [h]; exact Tab.get_set_same d t k v
  · rename_i h; exact Tab.get_set_other d d t k i v h

/-- A table canonical above a bound is so above a lower one. -/
theorem Tab.wfFrom_weaken (d : α) : ∀ (t : Tab α) (hi lo : Nat), Tab.wfFrom d hi t = true → lo ≤ hi → Tab.wfFrom d lo t = true
  | [], _, _, _, _ => rfl
  | (j, u) :: t, hi, lo, h, hl => by
    simp only [Tab.wfFrom, Bool.and_eq_true, decide_eq_true_eq] at h ⊢
    exact ⟨⟨by omega, h.1.2⟩, h.2⟩

theorem Tab.wfFrom_put (d : α) (v : α) (hv : v ≠ d) : ∀ (t : Tab α) (lo k : Nat), Tab.wfFrom d lo t = true → lo ≤ k → Tab.wfFrom d lo (t.put k v) = true
  | [], lo, k, _, hk => by simp [Tab.put, Tab.wfFrom, hv, hk]
  | (j, u) :: t, lo, k, h, hk => by
    simp only [Tab.wfFrom, Bool.and_eq_true, decide_eq_true_eq] at h
    simp only [Tab.put]
    split
    · simp only [Tab.wfFrom, Bool.and_eq_true, decide_eq_true_eq]
      exact ⟨⟨hk, by simp [hv]⟩, ⟨by omega, h.1.2⟩, h.2⟩
    · split
      · rename_i _ he
        subst he
        simp only [Tab.wfFrom, Bool.and_eq_true, decide_eq_true_eq]
        exact ⟨⟨hk, by simp [hv]⟩, h.2⟩
      · simp only [Tab.wfFrom, Bool.and_eq_true, decide_eq_true_eq]
        exact ⟨h.1, Tab.wfFrom_put d v hv t (j + 1) k h.2 (by omega)⟩

theorem Tab.wfFrom_erase (d : α) : ∀ (t : Tab α) (lo k : Nat), Tab.wfFrom d lo t = true → Tab.wfFrom d lo (t.erase k) = true
  | [], _, _, _ => rfl
  | (j, u) :: t, lo, k, h => by
    simp only [Tab.wfFrom, Bool.and_eq_true, decide_eq_true_eq] at h
    simp only [Tab.erase]
    split
    · exact Tab.wfFrom_weaken d _ (j + 1) lo (Tab.wfFrom_erase d t (j + 1) k h.2) (by omega)
    · simp only [Tab.wfFrom, Bool.and_eq_true, decide_eq_true_eq]
      exact ⟨h.1, Tab.wfFrom_erase d t (j + 1) k h.2⟩

/-- A write keeps the canonical form. -/
theorem Tab.wf_set (d : α) (t : Tab α) (k : Nat) (v : α) (h : Tab.wf d t = true) : Tab.wf d (Tab.set d t k v) = true := by
  unfold Tab.set Tab.wf
  split
  · exact Tab.wfFrom_erase d t 0 k h
  · rename_i hv; exact Tab.wfFrom_put d v hv t 0 k h (Nat.zero_le k)

omit [DecidableEq α] in
theorem Tab.mem_put (k : Nat) (v : α) (p : Nat × α) : ∀ t : Tab α, p ∈ t.put k v → p = (k, v) ∨ p ∈ t
  | [], h => by simpa [Tab.put] using h
  | (j, u) :: t, h => by
    simp only [Tab.put] at h
    split at h
    · simpa using h
    · split at h
      · rcases List.mem_cons.1 h with h | h
        · exact .inl h
        · exact .inr (List.mem_cons_of_mem _ h)
      · rcases List.mem_cons.1 h with h | h
        · exact .inr (h ▸ List.mem_cons_self)
        · exact (Tab.mem_put k v p t h).imp id (List.mem_cons_of_mem _)

omit [DecidableEq α] in
theorem Tab.mem_erase (k : Nat) (p : Nat × α) : ∀ t : Tab α, p ∈ t.erase k → p ∈ t
  | [], h => h
  | (j, u) :: t, h => by
    simp only [Tab.erase] at h
    split at h
    · exact List.mem_cons_of_mem _ (Tab.mem_erase k p t h)
    · rcases List.mem_cons.1 h with h | h
      · exact h ▸ List.mem_cons_self
      · exact List.mem_cons_of_mem _ (Tab.mem_erase k p t h)

/-- Every entry of a table after a write is an old entry or the one written. -/
theorem Tab.mem_set (d : α) (t : Tab α) (k : Nat) (v : α) (p : Nat × α) (h : p ∈ Tab.set d t k v) : p = (k, v) ∨ p ∈ t := by
  unfold Tab.set at h
  split at h
  · exact .inr (Tab.mem_erase k p t h)
  · exact Tab.mem_put k v p t h

end Sys2Proof
end

