-- ==== Sys2Proof/Laws/State.lean ====
section
/-! SUPPORT. What each small update of the device leaves as it is: one lemma for each field and each update. -/
namespace Sys2Proof.Machine
open Sys2Proof

/-! Reading after writing. -/

@[simp] theorem Dev.rd_wr_same (d : Dev) (f : Fld) (v : Nat) : (d.wr f v).rd f = v % 2 ^ f.w := Tab.get_set_same _ _ _ _
theorem Dev.rd_wr_other (d : Dev) (f g : Fld) (v : Nat) (h : g.key ≠ f.key) : (d.wr f v).rd g = d.rd g := Tab.get_set_other _ _ _ _ _ _ h
theorem Dev.on_wr_other (d : Dev) (f g : Fld) (v : Nat) (h : g.key ≠ f.key) : (d.wr f v).on g = d.on g := by
  simp only [Dev.on, Dev.rd_wr_other d f g v h]
@[simp] theorem Dev.ctx_setCtx_same (d : Dev) (c : Nat) (x : Ctx) : (d.setCtx c x).ctx c = x := Tab.get_set_same _ _ _ _
theorem Dev.ctx_setCtx_other (d : Dev) (c k : Nat) (x : Ctx) (h : k ≠ c) : (d.setCtx c x).ctx k = d.ctx k := Tab.get_set_other _ _ _ _ _ _ h
@[simp] theorem Dev.chan_setChan_same (d : Dev) (c : Nat) (x : Chan) : (d.setChan c x).chan c = x := Tab.get_set_same _ _ _ _
theorem Dev.chan_setChan_other (d : Dev) (c k : Nat) (x : Chan) (h : k ≠ c) : (d.setChan c x).chan k = d.chan k := Tab.get_set_other _ _ _ _ _ _ h
@[simp] theorem Dev.pat_setPat_same (d : Dev) (c : Nat) (x : Pat) : (d.setPat c x).pat c = x := Tab.get_set_same _ _ _ _
theorem Dev.pat_setPat_other (d : Dev) (c k : Nat) (x : Pat) (h : k ≠ c) : (d.setPat c x).pat k = d.pat k := Tab.get_set_other _ _ _ _ _ _ h
@[simp] theorem Dev.wfm_setWfm_same (d : Dev) (c : Nat) (x : Wfm) : (d.setWfm c x).wfm c = x := Tab.get_set_same _ _ _ _
theorem Dev.wfm_setWfm_other (d : Dev) (c k : Nat) (x : Wfm) (h : k ≠ c) : (d.setWfm c x).wfm k = d.wfm k := Tab.get_set_other _ _ _ _ _ _ h
@[simp] theorem Dev.cap_setCap_same (d : Dev) (c : Nat) (x : Cap) : (d.setCap c x).cap c = x := Tab.get_set_same _ _ _ _
theorem Dev.cap_setCap_other (d : Dev) (c k : Nat) (x : Cap) (h : k ≠ c) : (d.setCap c x).cap k = d.cap k := Tab.get_set_other _ _ _ _ _ _ h
@[simp] theorem Dev.tme_setTme_same (d : Dev) (c : Nat) (x : Tme) : (d.setTme c x).tme c = x := Tab.get_set_same _ _ _ _
theorem Dev.tme_setTme_other (d : Dev) (c k : Nat) (x : Tme) (h : k ≠ c) : (d.setTme c x).tme k = d.tme k := Tab.get_set_other _ _ _ _ _ _ h
@[simp] theorem Dev.mill_setMill_same (d : Dev) (c : Nat) (x : Mill) : (d.setMill c x).mill c = x := Tab.get_set_same _ _ _ _
theorem Dev.mill_setMill_other (d : Dev) (c k : Nat) (x : Mill) (h : k ≠ c) : (d.setMill c x).mill k = d.mill k := Tab.get_set_other _ _ _ _ _ _ h
@[simp] theorem Dev.dma_setDma_same (d : Dev) (c : Nat) (x : Dma) : (d.setDma c x).dma c = x := Tab.get_set_same _ _ _ _
theorem Dev.dma_setDma_other (d : Dev) (c k : Nat) (x : Dma) (h : k ≠ c) : (d.setDma c x).dma k = d.dma k := Tab.get_set_other _ _ _ _ _ _ h
@[simp] theorem Dev.ctx_modCtx_same (d : Dev) (c : Nat) (h : Ctx → Ctx) : (d.modCtx c h).ctx c = h (d.ctx c) := Tab.get_set_same _ _ _ _
theorem Dev.ctx_modCtx_other (d : Dev) (c k : Nat) (h : Ctx → Ctx) (hk : k ≠ c) : (d.modCtx c h).ctx k = d.ctx k := Tab.get_set_other _ _ _ _ _ _ hk
@[simp] theorem Dev.chan_modChan_same (d : Dev) (c : Nat) (h : Chan → Chan) : (d.modChan c h).chan c = h (d.chan c) := Tab.get_set_same _ _ _ _
theorem Dev.chan_modChan_other (d : Dev) (c k : Nat) (h : Chan → Chan) (hk : k ≠ c) : (d.modChan c h).chan k = d.chan k := Tab.get_set_other _ _ _ _ _ _ hk
@[simp] theorem Dev.pat_modPat_same (d : Dev) (c : Nat) (h : Pat → Pat) : (d.modPat c h).pat c = h (d.pat c) := Tab.get_set_same _ _ _ _
theorem Dev.pat_modPat_other (d : Dev) (c k : Nat) (h : Pat → Pat) (hk : k ≠ c) : (d.modPat c h).pat k = d.pat k := Tab.get_set_other _ _ _ _ _ _ hk
@[simp] theorem Dev.wfm_modWfm_same (d : Dev) (c : Nat) (h : Wfm → Wfm) : (d.modWfm c h).wfm c = h (d.wfm c) := Tab.get_set_same _ _ _ _
theorem Dev.wfm_modWfm_other (d : Dev) (c k : Nat) (h : Wfm → Wfm) (hk : k ≠ c) : (d.modWfm c h).wfm k = d.wfm k := Tab.get_set_other _ _ _ _ _ _ hk
@[simp] theorem Dev.cap_modCap_same (d : Dev) (c : Nat) (h : Cap → Cap) : (d.modCap c h).cap c = h (d.cap c) := Tab.get_set_same _ _ _ _
theorem Dev.cap_modCap_other (d : Dev) (c k : Nat) (h : Cap → Cap) (hk : k ≠ c) : (d.modCap c h).cap k = d.cap k := Tab.get_set_other _ _ _ _ _ _ hk
@[simp] theorem Dev.tme_modTme_same (d : Dev) (c : Nat) (h : Tme → Tme) : (d.modTme c h).tme c = h (d.tme c) := Tab.get_set_same _ _ _ _
theorem Dev.tme_modTme_other (d : Dev) (c k : Nat) (h : Tme → Tme) (hk : k ≠ c) : (d.modTme c h).tme k = d.tme k := Tab.get_set_other _ _ _ _ _ _ hk
@[simp] theorem Dev.mill_modMill_same (d : Dev) (c : Nat) (h : Mill → Mill) : (d.modMill c h).mill c = h (d.mill c) := Tab.get_set_same _ _ _ _
theorem Dev.mill_modMill_other (d : Dev) (c k : Nat) (h : Mill → Mill) (hk : k ≠ c) : (d.modMill c h).mill k = d.mill k := Tab.get_set_other _ _ _ _ _ _ hk
@[simp] theorem Dev.dma_modDma_same (d : Dev) (c : Nat) (h : Dma → Dma) : (d.modDma c h).dma c = h (d.dma c) := Tab.get_set_same _ _ _ _
theorem Dev.dma_modDma_other (d : Dev) (c k : Nat) (h : Dma → Dma) (hk : k ≠ c) : (d.modDma c h).dma k = d.dma k := Tab.get_set_other _ _ _ _ _ _ hk
@[simp] theorem Dev.rast_modRast_same (d : Dev) (c : Nat) (h : Rast → Rast) : (d.modRast c h).rast c = h (d.rast c) := Tab.get_set_same _ _ _ _
theorem Dev.rast_modRast_other (d : Dev) (c k : Nat) (h : Rast → Rast) (hk : k ≠ c) : (d.modRast c h).rast k = d.rast k := Tab.get_set_other _ _ _ _ _ _ hk
@[simp] theorem Dev.box_modBox_same (d : Dev) (c : Nat) (h : Contain → Contain) : (d.modBox c h).box c = h (d.box c) := Tab.get_set_same _ _ _ _
theorem Dev.box_modBox_other (d : Dev) (c k : Nat) (h : Contain → Contain) (hk : k ≠ c) : (d.modBox c h).box k = d.box k := Tab.get_set_other _ _ _ _ _ _ hk
@[simp] theorem Dev.ustore_modUstore_same (d : Dev) (c : Nat) (h : Store → Store) : (d.modUstore c h).ustore c = h (d.ustore c) := Tab.get_set_same _ _ _ _
theorem Dev.ustore_modUstore_other (d : Dev) (c k : Nat) (h : Store → Store) (hk : k ≠ c) : (d.modUstore c h).ustore k = d.ustore k := Tab.get_set_other _ _ _ _ _ _ hk
@[simp] theorem Dev.unit_setUnit_same (d : Dev) (i : Nat) (u : UState) : (d.setUnit i u).unit i = u := Tab.get_set_same _ _ _ _
theorem Dev.unit_setUnit_other (d : Dev) (i k : Nat) (u : UState) (h : k ≠ i) : (d.setUnit i u).unit k = d.unit k := Tab.get_set_other _ _ _ _ _ _ h

/-! wr. -/

@[simp] theorem Dev.wr_units (d : Dev) (f : Fld) (v : Nat) : (d.wr f v).units = d.units := rfl
@[simp] theorem Dev.wr_inUse (d : Dev) (f : Fld) (v : Nat) : (d.wr f v).inUse = d.inUse := rfl
@[simp] theorem Dev.wr_waitGran (d : Dev) (f : Fld) (v : Nat) : (d.wr f v).waitGran = d.waitGran := rfl
@[simp] theorem Dev.wr_waitBus (d : Dev) (f : Fld) (v : Nat) : (d.wr f v).waitBus = d.waitBus := rfl
@[simp] theorem Dev.wr_serving (d : Dev) (f : Fld) (v : Nat) : (d.wr f v).serving = d.serving := rfl
@[simp] theorem Dev.wr_ports (d : Dev) (f : Fld) (v : Nat) : (d.wr f v).ports = d.ports := rfl
@[simp] theorem Dev.wr_gran (d : Dev) (f : Fld) (v : Nat) : (d.wr f v).gran = d.gran := rfl
@[simp] theorem Dev.wr_ctxs (d : Dev) (f : Fld) (v : Nat) : (d.wr f v).ctxs = d.ctxs := rfl
@[simp] theorem Dev.wr_sites (d : Dev) (f : Fld) (v : Nat) : (d.wr f v).sites = d.sites := rfl
@[simp] theorem Dev.wr_chmap (d : Dev) (f : Fld) (v : Nat) : (d.wr f v).chmap = d.chmap := rfl
@[simp] theorem Dev.wr_ctxCmd (d : Dev) (f : Fld) (v : Nat) : (d.wr f v).ctxCmd = d.ctxCmd := rfl
@[simp] theorem Dev.wr_icache (d : Dev) (f : Fld) (v : Nat) : (d.wr f v).icache = d.icache := rfl
@[simp] theorem Dev.wr_icacheBusy (d : Dev) (f : Fld) (v : Nat) : (d.wr f v).icacheBusy = d.icacheBusy := rfl
@[simp] theorem Dev.wr_chans (d : Dev) (f : Fld) (v : Nat) : (d.wr f v).chans = d.chans := rfl
@[simp] theorem Dev.wr_mons (d : Dev) (f : Fld) (v : Nat) : (d.wr f v).mons = d.mons := rfl
@[simp] theorem Dev.wr_pats (d : Dev) (f : Fld) (v : Nat) : (d.wr f v).pats = d.pats := rfl
@[simp] theorem Dev.wr_segw (d : Dev) (f : Fld) (v : Nat) : (d.wr f v).segw = d.segw := rfl
@[simp] theorem Dev.wr_wfms (d : Dev) (f : Fld) (v : Nat) : (d.wr f v).wfms = d.wfms := rfl
@[simp] theorem Dev.wr_caps (d : Dev) (f : Fld) (v : Nat) : (d.wr f v).caps = d.caps := rfl
@[simp] theorem Dev.wr_tmes (d : Dev) (f : Fld) (v : Nat) : (d.wr f v).tmes = d.tmes := rfl
@[simp] theorem Dev.wr_mills (d : Dev) (f : Fld) (v : Nat) : (d.wr f v).mills = d.mills := rfl
@[simp] theorem Dev.wr_rasts (d : Dev) (f : Fld) (v : Nat) : (d.wr f v).rasts = d.rasts := rfl
@[simp] theorem Dev.wr_dmas (d : Dev) (f : Fld) (v : Nat) : (d.wr f v).dmas = d.dmas := rfl
@[simp] theorem Dev.wr_pcie (d : Dev) (f : Fld) (v : Nat) : (d.wr f v).pcie = d.pcie := rfl
@[simp] theorem Dev.wr_reed (d : Dev) (f : Fld) (v : Nat) : (d.wr f v).reed = d.reed := rfl
@[simp] theorem Dev.wr_flash (d : Dev) (f : Fld) (v : Nat) : (d.wr f v).flash = d.flash := rfl
@[simp] theorem Dev.wr_bp (d : Dev) (f : Fld) (v : Nat) : (d.wr f v).bp = d.bp := rfl
@[simp] theorem Dev.wr_cal (d : Dev) (f : Fld) (v : Nat) : (d.wr f v).cal = d.cal := rfl
@[simp] theorem Dev.wr_therm (d : Dev) (f : Fld) (v : Nat) : (d.wr f v).therm = d.therm := rfl
@[simp] theorem Dev.wr_log (d : Dev) (f : Fld) (v : Nat) : (d.wr f v).log = d.log := rfl
@[simp] theorem Dev.wr_ucode (d : Dev) (f : Fld) (v : Nat) : (d.wr f v).ucode = d.ucode := rfl
@[simp] theorem Dev.wr_contain (d : Dev) (f : Fld) (v : Nat) : (d.wr f v).contain = d.contain := rfl
@[simp] theorem Dev.wr_supply (d : Dev) (f : Fld) (v : Nat) : (d.wr f v).supply = d.supply := rfl
@[simp] theorem Dev.wr_jtag (d : Dev) (f : Fld) (v : Nat) : (d.wr f v).jtag = d.jtag := rfl
@[simp] theorem Dev.wr_boot (d : Dev) (f : Fld) (v : Nat) : (d.wr f v).boot = d.boot := rfl
@[simp] theorem Dev.wr_evcRun (d : Dev) (f : Fld) (v : Nat) : (d.wr f v).evcRun = d.evcRun := rfl
@[simp] theorem Dev.wr_judging (d : Dev) (f : Fld) (v : Nat) : (d.wr f v).judging = d.judging := rfl
@[simp] theorem Dev.wr_freeCtr (d : Dev) (f : Fld) (v : Nat) : (d.wr f v).freeCtr = d.freeCtr := rfl
@[simp] theorem Dev.wr_ctx (d : Dev) (f : Fld) (v : Nat) (k : Nat) : (d.wr f v).ctx k = d.ctx k := rfl
@[simp] theorem Dev.wr_chan (d : Dev) (f : Fld) (v : Nat) (k : Nat) : (d.wr f v).chan k = d.chan k := rfl
@[simp] theorem Dev.wr_pat (d : Dev) (f : Fld) (v : Nat) (k : Nat) : (d.wr f v).pat k = d.pat k := rfl
@[simp] theorem Dev.wr_wfm (d : Dev) (f : Fld) (v : Nat) (k : Nat) : (d.wr f v).wfm k = d.wfm k := rfl
@[simp] theorem Dev.wr_cap (d : Dev) (f : Fld) (v : Nat) (k : Nat) : (d.wr f v).cap k = d.cap k := rfl
@[simp] theorem Dev.wr_tme (d : Dev) (f : Fld) (v : Nat) (k : Nat) : (d.wr f v).tme k = d.tme k := rfl
@[simp] theorem Dev.wr_mill (d : Dev) (f : Fld) (v : Nat) (k : Nat) : (d.wr f v).mill k = d.mill k := rfl
@[simp] theorem Dev.wr_dma (d : Dev) (f : Fld) (v : Nat) (k : Nat) : (d.wr f v).dma k = d.dma k := rfl
@[simp] theorem Dev.wr_rast (d : Dev) (f : Fld) (v : Nat) (k : Nat) : (d.wr f v).rast k = d.rast k := rfl
@[simp] theorem Dev.wr_box (d : Dev) (f : Fld) (v : Nat) (k : Nat) : (d.wr f v).box k = d.box k := rfl
@[simp] theorem Dev.wr_ustore (d : Dev) (f : Fld) (v : Nat) (k : Nat) : (d.wr f v).ustore k = d.ustore k := rfl
@[simp] theorem Dev.wr_unit (d : Dev) (f : Fld) (v : Nat) (k : Nat) : (d.wr f v).unit k = d.unit k := rfl
@[simp] theorem Dev.wr_byte (d : Dev) (f : Fld) (v : Nat) (k : Nat) : (d.wr f v).byte k = d.byte k := rfl
@[simp] theorem Dev.wr_site (d : Dev) (f : Fld) (v : Nat) (k : Nat) : (d.wr f v).site k = d.site k := rfl
@[simp] theorem Dev.wr_inSite (d : Dev) (f : Fld) (v : Nat) (k i : Nat) : (d.wr f v).inSite k i = d.inSite k i := rfl

/-! evc. -/

@[simp] theorem Dev.evc_units (d : Dev) (src n : Nat) : (d.evc src n).units = d.units := rfl
@[simp] theorem Dev.evc_inUse (d : Dev) (src n : Nat) : (d.evc src n).inUse = d.inUse := rfl
@[simp] theorem Dev.evc_waitGran (d : Dev) (src n : Nat) : (d.evc src n).waitGran = d.waitGran := rfl
@[simp] theorem Dev.evc_waitBus (d : Dev) (src n : Nat) : (d.evc src n).waitBus = d.waitBus := rfl
@[simp] theorem Dev.evc_serving (d : Dev) (src n : Nat) : (d.evc src n).serving = d.serving := rfl
@[simp] theorem Dev.evc_ports (d : Dev) (src n : Nat) : (d.evc src n).ports = d.ports := rfl
@[simp] theorem Dev.evc_gran (d : Dev) (src n : Nat) : (d.evc src n).gran = d.gran := rfl
@[simp] theorem Dev.evc_ctxs (d : Dev) (src n : Nat) : (d.evc src n).ctxs = d.ctxs := rfl
@[simp] theorem Dev.evc_sites (d : Dev) (src n : Nat) : (d.evc src n).sites = d.sites := rfl
@[simp] theorem Dev.evc_chmap (d : Dev) (src n : Nat) : (d.evc src n).chmap = d.chmap := rfl
@[simp] theorem Dev.evc_ctxCmd (d : Dev) (src n : Nat) : (d.evc src n).ctxCmd = d.ctxCmd := rfl
@[simp] theorem Dev.evc_icache (d : Dev) (src n : Nat) : (d.evc src n).icache = d.icache := rfl
@[simp] theorem Dev.evc_icacheBusy (d : Dev) (src n : Nat) : (d.evc src n).icacheBusy = d.icacheBusy := rfl
@[simp] theorem Dev.evc_chans (d : Dev) (src n : Nat) : (d.evc src n).chans = d.chans := rfl
@[simp] theorem Dev.evc_mons (d : Dev) (src n : Nat) : (d.evc src n).mons = d.mons := rfl
@[simp] theorem Dev.evc_pats (d : Dev) (src n : Nat) : (d.evc src n).pats = d.pats := rfl
@[simp] theorem Dev.evc_segw (d : Dev) (src n : Nat) : (d.evc src n).segw = d.segw := rfl
@[simp] theorem Dev.evc_wfms (d : Dev) (src n : Nat) : (d.evc src n).wfms = d.wfms := rfl
@[simp] theorem Dev.evc_caps (d : Dev) (src n : Nat) : (d.evc src n).caps = d.caps := rfl
@[simp] theorem Dev.evc_tmes (d : Dev) (src n : Nat) : (d.evc src n).tmes = d.tmes := rfl
@[simp] theorem Dev.evc_mills (d : Dev) (src n : Nat) : (d.evc src n).mills = d.mills := rfl
@[simp] theorem Dev.evc_rasts (d : Dev) (src n : Nat) : (d.evc src n).rasts = d.rasts := rfl
@[simp] theorem Dev.evc_dmas (d : Dev) (src n : Nat) : (d.evc src n).dmas = d.dmas := rfl
@[simp] theorem Dev.evc_pcie (d : Dev) (src n : Nat) : (d.evc src n).pcie = d.pcie := rfl
@[simp] theorem Dev.evc_reed (d : Dev) (src n : Nat) : (d.evc src n).reed = d.reed := rfl
@[simp] theorem Dev.evc_flash (d : Dev) (src n : Nat) : (d.evc src n).flash = d.flash := rfl
@[simp] theorem Dev.evc_bp (d : Dev) (src n : Nat) : (d.evc src n).bp = d.bp := rfl
@[simp] theorem Dev.evc_cal (d : Dev) (src n : Nat) : (d.evc src n).cal = d.cal := rfl
@[simp] theorem Dev.evc_therm (d : Dev) (src n : Nat) : (d.evc src n).therm = d.therm := rfl
@[simp] theorem Dev.evc_log (d : Dev) (src n : Nat) : (d.evc src n).log = d.log := rfl
@[simp] theorem Dev.evc_ucode (d : Dev) (src n : Nat) : (d.evc src n).ucode = d.ucode := rfl
@[simp] theorem Dev.evc_contain (d : Dev) (src n : Nat) : (d.evc src n).contain = d.contain := rfl
@[simp] theorem Dev.evc_supply (d : Dev) (src n : Nat) : (d.evc src n).supply = d.supply := rfl
@[simp] theorem Dev.evc_jtag (d : Dev) (src n : Nat) : (d.evc src n).jtag = d.jtag := rfl
@[simp] theorem Dev.evc_boot (d : Dev) (src n : Nat) : (d.evc src n).boot = d.boot := rfl
@[simp] theorem Dev.evc_evcRun (d : Dev) (src n : Nat) : (d.evc src n).evcRun = d.evcRun := rfl
@[simp] theorem Dev.evc_judging (d : Dev) (src n : Nat) : (d.evc src n).judging = d.judging := rfl
@[simp] theorem Dev.evc_freeCtr (d : Dev) (src n : Nat) : (d.evc src n).freeCtr = d.freeCtr := rfl
@[simp] theorem Dev.evc_ctx (d : Dev) (src n : Nat) (k : Nat) : (d.evc src n).ctx k = d.ctx k := rfl
@[simp] theorem Dev.evc_chan (d : Dev) (src n : Nat) (k : Nat) : (d.evc src n).chan k = d.chan k := rfl
@[simp] theorem Dev.evc_pat (d : Dev) (src n : Nat) (k : Nat) : (d.evc src n).pat k = d.pat k := rfl
@[simp] theorem Dev.evc_wfm (d : Dev) (src n : Nat) (k : Nat) : (d.evc src n).wfm k = d.wfm k := rfl
@[simp] theorem Dev.evc_cap (d : Dev) (src n : Nat) (k : Nat) : (d.evc src n).cap k = d.cap k := rfl
@[simp] theorem Dev.evc_tme (d : Dev) (src n : Nat) (k : Nat) : (d.evc src n).tme k = d.tme k := rfl
@[simp] theorem Dev.evc_mill (d : Dev) (src n : Nat) (k : Nat) : (d.evc src n).mill k = d.mill k := rfl
@[simp] theorem Dev.evc_dma (d : Dev) (src n : Nat) (k : Nat) : (d.evc src n).dma k = d.dma k := rfl
@[simp] theorem Dev.evc_rast (d : Dev) (src n : Nat) (k : Nat) : (d.evc src n).rast k = d.rast k := rfl
@[simp] theorem Dev.evc_box (d : Dev) (src n : Nat) (k : Nat) : (d.evc src n).box k = d.box k := rfl
@[simp] theorem Dev.evc_ustore (d : Dev) (src n : Nat) (k : Nat) : (d.evc src n).ustore k = d.ustore k := rfl
@[simp] theorem Dev.evc_unit (d : Dev) (src n : Nat) (k : Nat) : (d.evc src n).unit k = d.unit k := rfl
@[simp] theorem Dev.evc_byte (d : Dev) (src n : Nat) (k : Nat) : (d.evc src n).byte k = d.byte k := rfl
@[simp] theorem Dev.evc_site (d : Dev) (src n : Nat) (k : Nat) : (d.evc src n).site k = d.site k := rfl
@[simp] theorem Dev.evc_inSite (d : Dev) (src n : Nat) (k i : Nat) : (d.evc src n).inSite k i = d.inSite k i := rfl

/-! evcBy. -/

@[simp] theorem Dev.evcBy_units (d : Dev) (src n times : Nat) : (d.evcBy src n times).units = d.units := rfl
@[simp] theorem Dev.evcBy_inUse (d : Dev) (src n times : Nat) : (d.evcBy src n times).inUse = d.inUse := rfl
@[simp] theorem Dev.evcBy_waitGran (d : Dev) (src n times : Nat) : (d.evcBy src n times).waitGran = d.waitGran := rfl
@[simp] theorem Dev.evcBy_waitBus (d : Dev) (src n times : Nat) : (d.evcBy src n times).waitBus = d.waitBus := rfl
@[simp] theorem Dev.evcBy_serving (d : Dev) (src n times : Nat) : (d.evcBy src n times).serving = d.serving := rfl
@[simp] theorem Dev.evcBy_ports (d : Dev) (src n times : Nat) : (d.evcBy src n times).ports = d.ports := rfl
@[simp] theorem Dev.evcBy_gran (d : Dev) (src n times : Nat) : (d.evcBy src n times).gran = d.gran := rfl
@[simp] theorem Dev.evcBy_ctxs (d : Dev) (src n times : Nat) : (d.evcBy src n times).ctxs = d.ctxs := rfl
@[simp] theorem Dev.evcBy_sites (d : Dev) (src n times : Nat) : (d.evcBy src n times).sites = d.sites := rfl
@[simp] theorem Dev.evcBy_chmap (d : Dev) (src n times : Nat) : (d.evcBy src n times).chmap = d.chmap := rfl
@[simp] theorem Dev.evcBy_ctxCmd (d : Dev) (src n times : Nat) : (d.evcBy src n times).ctxCmd = d.ctxCmd := rfl
@[simp] theorem Dev.evcBy_icache (d : Dev) (src n times : Nat) : (d.evcBy src n times).icache = d.icache := rfl
@[simp] theorem Dev.evcBy_icacheBusy (d : Dev) (src n times : Nat) : (d.evcBy src n times).icacheBusy = d.icacheBusy := rfl
@[simp] theorem Dev.evcBy_chans (d : Dev) (src n times : Nat) : (d.evcBy src n times).chans = d.chans := rfl
@[simp] theorem Dev.evcBy_mons (d : Dev) (src n times : Nat) : (d.evcBy src n times).mons = d.mons := rfl
@[simp] theorem Dev.evcBy_pats (d : Dev) (src n times : Nat) : (d.evcBy src n times).pats = d.pats := rfl
@[simp] theorem Dev.evcBy_segw (d : Dev) (src n times : Nat) : (d.evcBy src n times).segw = d.segw := rfl
@[simp] theorem Dev.evcBy_wfms (d : Dev) (src n times : Nat) : (d.evcBy src n times).wfms = d.wfms := rfl
@[simp] theorem Dev.evcBy_caps (d : Dev) (src n times : Nat) : (d.evcBy src n times).caps = d.caps := rfl
@[simp] theorem Dev.evcBy_tmes (d : Dev) (src n times : Nat) : (d.evcBy src n times).tmes = d.tmes := rfl
@[simp] theorem Dev.evcBy_mills (d : Dev) (src n times : Nat) : (d.evcBy src n times).mills = d.mills := rfl
@[simp] theorem Dev.evcBy_rasts (d : Dev) (src n times : Nat) : (d.evcBy src n times).rasts = d.rasts := rfl
@[simp] theorem Dev.evcBy_dmas (d : Dev) (src n times : Nat) : (d.evcBy src n times).dmas = d.dmas := rfl
@[simp] theorem Dev.evcBy_pcie (d : Dev) (src n times : Nat) : (d.evcBy src n times).pcie = d.pcie := rfl
@[simp] theorem Dev.evcBy_reed (d : Dev) (src n times : Nat) : (d.evcBy src n times).reed = d.reed := rfl
@[simp] theorem Dev.evcBy_flash (d : Dev) (src n times : Nat) : (d.evcBy src n times).flash = d.flash := rfl
@[simp] theorem Dev.evcBy_bp (d : Dev) (src n times : Nat) : (d.evcBy src n times).bp = d.bp := rfl
@[simp] theorem Dev.evcBy_cal (d : Dev) (src n times : Nat) : (d.evcBy src n times).cal = d.cal := rfl
@[simp] theorem Dev.evcBy_therm (d : Dev) (src n times : Nat) : (d.evcBy src n times).therm = d.therm := rfl
@[simp] theorem Dev.evcBy_log (d : Dev) (src n times : Nat) : (d.evcBy src n times).log = d.log := rfl
@[simp] theorem Dev.evcBy_ucode (d : Dev) (src n times : Nat) : (d.evcBy src n times).ucode = d.ucode := rfl
@[simp] theorem Dev.evcBy_contain (d : Dev) (src n times : Nat) : (d.evcBy src n times).contain = d.contain := rfl
@[simp] theorem Dev.evcBy_supply (d : Dev) (src n times : Nat) : (d.evcBy src n times).supply = d.supply := rfl
@[simp] theorem Dev.evcBy_jtag (d : Dev) (src n times : Nat) : (d.evcBy src n times).jtag = d.jtag := rfl
@[simp] theorem Dev.evcBy_boot (d : Dev) (src n times : Nat) : (d.evcBy src n times).boot = d.boot := rfl
@[simp] theorem Dev.evcBy_evcRun (d : Dev) (src n times : Nat) : (d.evcBy src n times).evcRun = d.evcRun := rfl
@[simp] theorem Dev.evcBy_judging (d : Dev) (src n times : Nat) : (d.evcBy src n times).judging = d.judging := rfl
@[simp] theorem Dev.evcBy_freeCtr (d : Dev) (src n times : Nat) : (d.evcBy src n times).freeCtr = d.freeCtr := rfl
@[simp] theorem Dev.evcBy_ctx (d : Dev) (src n times : Nat) (k : Nat) : (d.evcBy src n times).ctx k = d.ctx k := rfl
@[simp] theorem Dev.evcBy_chan (d : Dev) (src n times : Nat) (k : Nat) : (d.evcBy src n times).chan k = d.chan k := rfl
@[simp] theorem Dev.evcBy_pat (d : Dev) (src n times : Nat) (k : Nat) : (d.evcBy src n times).pat k = d.pat k := rfl
@[simp] theorem Dev.evcBy_wfm (d : Dev) (src n times : Nat) (k : Nat) : (d.evcBy src n times).wfm k = d.wfm k := rfl
@[simp] theorem Dev.evcBy_cap (d : Dev) (src n times : Nat) (k : Nat) : (d.evcBy src n times).cap k = d.cap k := rfl
@[simp] theorem Dev.evcBy_tme (d : Dev) (src n times : Nat) (k : Nat) : (d.evcBy src n times).tme k = d.tme k := rfl
@[simp] theorem Dev.evcBy_mill (d : Dev) (src n times : Nat) (k : Nat) : (d.evcBy src n times).mill k = d.mill k := rfl
@[simp] theorem Dev.evcBy_dma (d : Dev) (src n times : Nat) (k : Nat) : (d.evcBy src n times).dma k = d.dma k := rfl
@[simp] theorem Dev.evcBy_rast (d : Dev) (src n times : Nat) (k : Nat) : (d.evcBy src n times).rast k = d.rast k := rfl
@[simp] theorem Dev.evcBy_box (d : Dev) (src n times : Nat) (k : Nat) : (d.evcBy src n times).box k = d.box k := rfl
@[simp] theorem Dev.evcBy_ustore (d : Dev) (src n times : Nat) (k : Nat) : (d.evcBy src n times).ustore k = d.ustore k := rfl
@[simp] theorem Dev.evcBy_unit (d : Dev) (src n times : Nat) (k : Nat) : (d.evcBy src n times).unit k = d.unit k := rfl
@[simp] theorem Dev.evcBy_byte (d : Dev) (src n times : Nat) (k : Nat) : (d.evcBy src n times).byte k = d.byte k := rfl
@[simp] theorem Dev.evcBy_site (d : Dev) (src n times : Nat) (k : Nat) : (d.evcBy src n times).site k = d.site k := rfl
@[simp] theorem Dev.evcBy_inSite (d : Dev) (src n times : Nat) (k i : Nat) : (d.evcBy src n times).inSite k i = d.inSite k i := rfl

/-! setUnit. -/

@[simp] theorem Dev.setUnit_regs (d : Dev) (j : Nat) (u : UState) : (d.setUnit j u).regs = d.regs := rfl
@[simp] theorem Dev.setUnit_inUse (d : Dev) (j : Nat) (u : UState) : (d.setUnit j u).inUse = d.inUse := rfl
@[simp] theorem Dev.setUnit_waitGran (d : Dev) (j : Nat) (u : UState) : (d.setUnit j u).waitGran = d.waitGran := rfl
@[simp] theorem Dev.setUnit_waitBus (d : Dev) (j : Nat) (u : UState) : (d.setUnit j u).waitBus = d.waitBus := rfl
@[simp] theorem Dev.setUnit_serving (d : Dev) (j : Nat) (u : UState) : (d.setUnit j u).serving = d.serving := rfl
@[simp] theorem Dev.setUnit_ports (d : Dev) (j : Nat) (u : UState) : (d.setUnit j u).ports = d.ports := rfl
@[simp] theorem Dev.setUnit_gran (d : Dev) (j : Nat) (u : UState) : (d.setUnit j u).gran = d.gran := rfl
@[simp] theorem Dev.setUnit_ctxs (d : Dev) (j : Nat) (u : UState) : (d.setUnit j u).ctxs = d.ctxs := rfl
@[simp] theorem Dev.setUnit_sites (d : Dev) (j : Nat) (u : UState) : (d.setUnit j u).sites = d.sites := rfl
@[simp] theorem Dev.setUnit_chmap (d : Dev) (j : Nat) (u : UState) : (d.setUnit j u).chmap = d.chmap := rfl
@[simp] theorem Dev.setUnit_ctxCmd (d : Dev) (j : Nat) (u : UState) : (d.setUnit j u).ctxCmd = d.ctxCmd := rfl
@[simp] theorem Dev.setUnit_icache (d : Dev) (j : Nat) (u : UState) : (d.setUnit j u).icache = d.icache := rfl
@[simp] theorem Dev.setUnit_icacheBusy (d : Dev) (j : Nat) (u : UState) : (d.setUnit j u).icacheBusy = d.icacheBusy := rfl
@[simp] theorem Dev.setUnit_chans (d : Dev) (j : Nat) (u : UState) : (d.setUnit j u).chans = d.chans := rfl
@[simp] theorem Dev.setUnit_mons (d : Dev) (j : Nat) (u : UState) : (d.setUnit j u).mons = d.mons := rfl
@[simp] theorem Dev.setUnit_pats (d : Dev) (j : Nat) (u : UState) : (d.setUnit j u).pats = d.pats := rfl
@[simp] theorem Dev.setUnit_segw (d : Dev) (j : Nat) (u : UState) : (d.setUnit j u).segw = d.segw := rfl
@[simp] theorem Dev.setUnit_wfms (d : Dev) (j : Nat) (u : UState) : (d.setUnit j u).wfms = d.wfms := rfl
@[simp] theorem Dev.setUnit_caps (d : Dev) (j : Nat) (u : UState) : (d.setUnit j u).caps = d.caps := rfl
@[simp] theorem Dev.setUnit_tmes (d : Dev) (j : Nat) (u : UState) : (d.setUnit j u).tmes = d.tmes := rfl
@[simp] theorem Dev.setUnit_mills (d : Dev) (j : Nat) (u : UState) : (d.setUnit j u).mills = d.mills := rfl
@[simp] theorem Dev.setUnit_rasts (d : Dev) (j : Nat) (u : UState) : (d.setUnit j u).rasts = d.rasts := rfl
@[simp] theorem Dev.setUnit_dmas (d : Dev) (j : Nat) (u : UState) : (d.setUnit j u).dmas = d.dmas := rfl
@[simp] theorem Dev.setUnit_pcie (d : Dev) (j : Nat) (u : UState) : (d.setUnit j u).pcie = d.pcie := rfl
@[simp] theorem Dev.setUnit_reed (d : Dev) (j : Nat) (u : UState) : (d.setUnit j u).reed = d.reed := rfl
@[simp] theorem Dev.setUnit_flash (d : Dev) (j : Nat) (u : UState) : (d.setUnit j u).flash = d.flash := rfl
@[simp] theorem Dev.setUnit_bp (d : Dev) (j : Nat) (u : UState) : (d.setUnit j u).bp = d.bp := rfl
@[simp] theorem Dev.setUnit_cal (d : Dev) (j : Nat) (u : UState) : (d.setUnit j u).cal = d.cal := rfl
@[simp] theorem Dev.setUnit_therm (d : Dev) (j : Nat) (u : UState) : (d.setUnit j u).therm = d.therm := rfl
@[simp] theorem Dev.setUnit_log (d : Dev) (j : Nat) (u : UState) : (d.setUnit j u).log = d.log := rfl
@[simp] theorem Dev.setUnit_ucode (d : Dev) (j : Nat) (u : UState) : (d.setUnit j u).ucode = d.ucode := rfl
@[simp] theorem Dev.setUnit_contain (d : Dev) (j : Nat) (u : UState) : (d.setUnit j u).contain = d.contain := rfl
@[simp] theorem Dev.setUnit_supply (d : Dev) (j : Nat) (u : UState) : (d.setUnit j u).supply = d.supply := rfl
@[simp] theorem Dev.setUnit_jtag (d : Dev) (j : Nat) (u : UState) : (d.setUnit j u).jtag = d.jtag := rfl
@[simp] theorem Dev.setUnit_boot (d : Dev) (j : Nat) (u : UState) : (d.setUnit j u).boot = d.boot := rfl
@[simp] theorem Dev.setUnit_evcRun (d : Dev) (j : Nat) (u : UState) : (d.setUnit j u).evcRun = d.evcRun := rfl
@[simp] theorem Dev.setUnit_judging (d : Dev) (j : Nat) (u : UState) : (d.setUnit j u).judging = d.judging := rfl
@[simp] theorem Dev.setUnit_freeCtr (d : Dev) (j : Nat) (u : UState) : (d.setUnit j u).freeCtr = d.freeCtr := rfl
@[simp] theorem Dev.setUnit_ctx (d : Dev) (j : Nat) (u : UState) (k : Nat) : (d.setUnit j u).ctx k = d.ctx k := rfl
@[simp] theorem Dev.setUnit_chan (d : Dev) (j : Nat) (u : UState) (k : Nat) : (d.setUnit j u).chan k = d.chan k := rfl
@[simp] theorem Dev.setUnit_pat (d : Dev) (j : Nat) (u : UState) (k : Nat) : (d.setUnit j u).pat k = d.pat k := rfl
@[simp] theorem Dev.setUnit_wfm (d : Dev) (j : Nat) (u : UState) (k : Nat) : (d.setUnit j u).wfm k = d.wfm k := rfl
@[simp] theorem Dev.setUnit_cap (d : Dev) (j : Nat) (u : UState) (k : Nat) : (d.setUnit j u).cap k = d.cap k := rfl
@[simp] theorem Dev.setUnit_tme (d : Dev) (j : Nat) (u : UState) (k : Nat) : (d.setUnit j u).tme k = d.tme k := rfl
@[simp] theorem Dev.setUnit_mill (d : Dev) (j : Nat) (u : UState) (k : Nat) : (d.setUnit j u).mill k = d.mill k := rfl
@[simp] theorem Dev.setUnit_dma (d : Dev) (j : Nat) (u : UState) (k : Nat) : (d.setUnit j u).dma k = d.dma k := rfl
@[simp] theorem Dev.setUnit_rast (d : Dev) (j : Nat) (u : UState) (k : Nat) : (d.setUnit j u).rast k = d.rast k := rfl
@[simp] theorem Dev.setUnit_box (d : Dev) (j : Nat) (u : UState) (k : Nat) : (d.setUnit j u).box k = d.box k := rfl
@[simp] theorem Dev.setUnit_ustore (d : Dev) (j : Nat) (u : UState) (k : Nat) : (d.setUnit j u).ustore k = d.ustore k := rfl
@[simp] theorem Dev.setUnit_rd (d : Dev) (j : Nat) (u : UState) (g : Fld) : (d.setUnit j u).rd g = d.rd g := rfl
@[simp] theorem Dev.setUnit_on (d : Dev) (j : Nat) (u : UState) (g : Fld) : (d.setUnit j u).on g = d.on g := rfl
@[simp] theorem Dev.setUnit_byte (d : Dev) (j : Nat) (u : UState) (k : Nat) : (d.setUnit j u).byte k = d.byte k := rfl
@[simp] theorem Dev.setUnit_site (d : Dev) (j : Nat) (u : UState) (k : Nat) : (d.setUnit j u).site k = d.site k := rfl
@[simp] theorem Dev.setUnit_owns (d : Dev) (j : Nat) (u : UState) (m : Master) (k : Nat) : (d.setUnit j u).owns m k = d.owns m k := rfl
@[simp] theorem Dev.setUnit_inSite (d : Dev) (j : Nat) (u : UState) (k i : Nat) : (d.setUnit j u).inSite k i = d.inSite k i := rfl

/-! setCtx. -/

@[simp] theorem Dev.setCtx_regs (d : Dev) (c : Nat) (x : Ctx) : (d.setCtx c x).regs = d.regs := rfl
@[simp] theorem Dev.setCtx_units (d : Dev) (c : Nat) (x : Ctx) : (d.setCtx c x).units = d.units := rfl
@[simp] theorem Dev.setCtx_inUse (d : Dev) (c : Nat) (x : Ctx) : (d.setCtx c x).inUse = d.inUse := rfl
@[simp] theorem Dev.setCtx_waitGran (d : Dev) (c : Nat) (x : Ctx) : (d.setCtx c x).waitGran = d.waitGran := rfl
@[simp] theorem Dev.setCtx_waitBus (d : Dev) (c : Nat) (x : Ctx) : (d.setCtx c x).waitBus = d.waitBus := rfl
@[simp] theorem Dev.setCtx_serving (d : Dev) (c : Nat) (x : Ctx) : (d.setCtx c x).serving = d.serving := rfl
@[simp] theorem Dev.setCtx_ports (d : Dev) (c : Nat) (x : Ctx) : (d.setCtx c x).ports = d.ports := rfl
@[simp] theorem Dev.setCtx_gran (d : Dev) (c : Nat) (x : Ctx) : (d.setCtx c x).gran = d.gran := rfl
@[simp] theorem Dev.setCtx_sites (d : Dev) (c : Nat) (x : Ctx) : (d.setCtx c x).sites = d.sites := rfl
@[simp] theorem Dev.setCtx_chmap (d : Dev) (c : Nat) (x : Ctx) : (d.setCtx c x).chmap = d.chmap := rfl
@[simp] theorem Dev.setCtx_ctxCmd (d : Dev) (c : Nat) (x : Ctx) : (d.setCtx c x).ctxCmd = d.ctxCmd := rfl
@[simp] theorem Dev.setCtx_icache (d : Dev) (c : Nat) (x : Ctx) : (d.setCtx c x).icache = d.icache := rfl
@[simp] theorem Dev.setCtx_icacheBusy (d : Dev) (c : Nat) (x : Ctx) : (d.setCtx c x).icacheBusy = d.icacheBusy := rfl
@[simp] theorem Dev.setCtx_chans (d : Dev) (c : Nat) (x : Ctx) : (d.setCtx c x).chans = d.chans := rfl
@[simp] theorem Dev.setCtx_mons (d : Dev) (c : Nat) (x : Ctx) : (d.setCtx c x).mons = d.mons := rfl
@[simp] theorem Dev.setCtx_pats (d : Dev) (c : Nat) (x : Ctx) : (d.setCtx c x).pats = d.pats := rfl
@[simp] theorem Dev.setCtx_segw (d : Dev) (c : Nat) (x : Ctx) : (d.setCtx c x).segw = d.segw := rfl
@[simp] theorem Dev.setCtx_wfms (d : Dev) (c : Nat) (x : Ctx) : (d.setCtx c x).wfms = d.wfms := rfl
@[simp] theorem Dev.setCtx_caps (d : Dev) (c : Nat) (x : Ctx) : (d.setCtx c x).caps = d.caps := rfl
@[simp] theorem Dev.setCtx_tmes (d : Dev) (c : Nat) (x : Ctx) : (d.setCtx c x).tmes = d.tmes := rfl
@[simp] theorem Dev.setCtx_mills (d : Dev) (c : Nat) (x : Ctx) : (d.setCtx c x).mills = d.mills := rfl
@[simp] theorem Dev.setCtx_rasts (d : Dev) (c : Nat) (x : Ctx) : (d.setCtx c x).rasts = d.rasts := rfl
@[simp] theorem Dev.setCtx_dmas (d : Dev) (c : Nat) (x : Ctx) : (d.setCtx c x).dmas = d.dmas := rfl
@[simp] theorem Dev.setCtx_pcie (d : Dev) (c : Nat) (x : Ctx) : (d.setCtx c x).pcie = d.pcie := rfl
@[simp] theorem Dev.setCtx_reed (d : Dev) (c : Nat) (x : Ctx) : (d.setCtx c x).reed = d.reed := rfl
@[simp] theorem Dev.setCtx_flash (d : Dev) (c : Nat) (x : Ctx) : (d.setCtx c x).flash = d.flash := rfl
@[simp] theorem Dev.setCtx_bp (d : Dev) (c : Nat) (x : Ctx) : (d.setCtx c x).bp = d.bp := rfl
@[simp] theorem Dev.setCtx_cal (d : Dev) (c : Nat) (x : Ctx) : (d.setCtx c x).cal = d.cal := rfl
@[simp] theorem Dev.setCtx_therm (d : Dev) (c : Nat) (x : Ctx) : (d.setCtx c x).therm = d.therm := rfl
@[simp] theorem Dev.setCtx_log (d : Dev) (c : Nat) (x : Ctx) : (d.setCtx c x).log = d.log := rfl
@[simp] theorem Dev.setCtx_ucode (d : Dev) (c : Nat) (x : Ctx) : (d.setCtx c x).ucode = d.ucode := rfl
@[simp] theorem Dev.setCtx_contain (d : Dev) (c : Nat) (x : Ctx) : (d.setCtx c x).contain = d.contain := rfl
@[simp] theorem Dev.setCtx_supply (d : Dev) (c : Nat) (x : Ctx) : (d.setCtx c x).supply = d.supply := rfl
@[simp] theorem Dev.setCtx_jtag (d : Dev) (c : Nat) (x : Ctx) : (d.setCtx c x).jtag = d.jtag := rfl
@[simp] theorem Dev.setCtx_boot (d : Dev) (c : Nat) (x : Ctx) : (d.setCtx c x).boot = d.boot := rfl
@[simp] theorem Dev.setCtx_evcRun (d : Dev) (c : Nat) (x : Ctx) : (d.setCtx c x).evcRun = d.evcRun := rfl
@[simp] theorem Dev.setCtx_judging (d : Dev) (c : Nat) (x : Ctx) : (d.setCtx c x).judging = d.judging := rfl
@[simp] theorem Dev.setCtx_freeCtr (d : Dev) (c : Nat) (x : Ctx) : (d.setCtx c x).freeCtr = d.freeCtr := rfl
@[simp] theorem Dev.setCtx_chan (d : Dev) (c : Nat) (x : Ctx) (k : Nat) : (d.setCtx c x).chan k = d.chan k := rfl
@[simp] theorem Dev.setCtx_pat (d : Dev) (c : Nat) (x : Ctx) (k : Nat) : (d.setCtx c x).pat k = d.pat k := rfl
@[simp] theorem Dev.setCtx_wfm (d : Dev) (c : Nat) (x : Ctx) (k : Nat) : (d.setCtx c x).wfm k = d.wfm k := rfl
@[simp] theorem Dev.setCtx_cap (d : Dev) (c : Nat) (x : Ctx) (k : Nat) : (d.setCtx c x).cap k = d.cap k := rfl
@[simp] theorem Dev.setCtx_tme (d : Dev) (c : Nat) (x : Ctx) (k : Nat) : (d.setCtx c x).tme k = d.tme k := rfl
@[simp] theorem Dev.setCtx_mill (d : Dev) (c : Nat) (x : Ctx) (k : Nat) : (d.setCtx c x).mill k = d.mill k := rfl
@[simp] theorem Dev.setCtx_dma (d : Dev) (c : Nat) (x : Ctx) (k : Nat) : (d.setCtx c x).dma k = d.dma k := rfl
@[simp] theorem Dev.setCtx_rast (d : Dev) (c : Nat) (x : Ctx) (k : Nat) : (d.setCtx c x).rast k = d.rast k := rfl
@[simp] theorem Dev.setCtx_box (d : Dev) (c : Nat) (x : Ctx) (k : Nat) : (d.setCtx c x).box k = d.box k := rfl
@[simp] theorem Dev.setCtx_ustore (d : Dev) (c : Nat) (x : Ctx) (k : Nat) : (d.setCtx c x).ustore k = d.ustore k := rfl
@[simp] theorem Dev.setCtx_unit (d : Dev) (c : Nat) (x : Ctx) (k : Nat) : (d.setCtx c x).unit k = d.unit k := rfl
@[simp] theorem Dev.setCtx_rd (d : Dev) (c : Nat) (x : Ctx) (g : Fld) : (d.setCtx c x).rd g = d.rd g := rfl
@[simp] theorem Dev.setCtx_on (d : Dev) (c : Nat) (x : Ctx) (g : Fld) : (d.setCtx c x).on g = d.on g := rfl
@[simp] theorem Dev.setCtx_byte (d : Dev) (c : Nat) (x : Ctx) (k : Nat) : (d.setCtx c x).byte k = d.byte k := rfl
@[simp] theorem Dev.setCtx_site (d : Dev) (c : Nat) (x : Ctx) (k : Nat) : (d.setCtx c x).site k = d.site k := rfl
@[simp] theorem Dev.setCtx_owns (d : Dev) (c : Nat) (x : Ctx) (m : Master) (k : Nat) : (d.setCtx c x).owns m k = d.owns m k := rfl
@[simp] theorem Dev.setCtx_inSite (d : Dev) (c : Nat) (x : Ctx) (k i : Nat) : (d.setCtx c x).inSite k i = d.inSite k i := rfl

/-! modCtx. -/

@[simp] theorem Dev.modCtx_regs (d : Dev) (c : Nat) (h : Ctx → Ctx) : (d.modCtx c h).regs = d.regs := rfl
@[simp] theorem Dev.modCtx_units (d : Dev) (c : Nat) (h : Ctx → Ctx) : (d.modCtx c h).units = d.units := rfl
@[simp] theorem Dev.modCtx_inUse (d : Dev) (c : Nat) (h : Ctx → Ctx) : (d.modCtx c h).inUse = d.inUse := rfl
@[simp] theorem Dev.modCtx_waitGran (d : Dev) (c : Nat) (h : Ctx → Ctx) : (d.modCtx c h).waitGran = d.waitGran := rfl
@[simp] theorem Dev.modCtx_waitBus (d : Dev) (c : Nat) (h : Ctx → Ctx) : (d.modCtx c h).waitBus = d.waitBus := rfl
@[simp] theorem Dev.modCtx_serving (d : Dev) (c : Nat) (h : Ctx → Ctx) : (d.modCtx c h).serving = d.serving := rfl
@[simp] theorem Dev.modCtx_ports (d : Dev) (c : Nat) (h : Ctx → Ctx) : (d.modCtx c h).ports = d.ports := rfl
@[simp] theorem Dev.modCtx_gran (d : Dev) (c : Nat) (h : Ctx → Ctx) : (d.modCtx c h).gran = d.gran := rfl
@[simp] theorem Dev.modCtx_sites (d : Dev) (c : Nat) (h : Ctx → Ctx) : (d.modCtx c h).sites = d.sites := rfl
@[simp] theorem Dev.modCtx_chmap (d : Dev) (c : Nat) (h : Ctx → Ctx) : (d.modCtx c h).chmap = d.chmap := rfl
@[simp] theorem Dev.modCtx_ctxCmd (d : Dev) (c : Nat) (h : Ctx → Ctx) : (d.modCtx c h).ctxCmd = d.ctxCmd := rfl
@[simp] theorem Dev.modCtx_icache (d : Dev) (c : Nat) (h : Ctx → Ctx) : (d.modCtx c h).icache = d.icache := rfl
@[simp] theorem Dev.modCtx_icacheBusy (d : Dev) (c : Nat) (h : Ctx → Ctx) : (d.modCtx c h).icacheBusy = d.icacheBusy := rfl
@[simp] theorem Dev.modCtx_chans (d : Dev) (c : Nat) (h : Ctx → Ctx) : (d.modCtx c h).chans = d.chans := rfl
@[simp] theorem Dev.modCtx_mons (d : Dev) (c : Nat) (h : Ctx → Ctx) : (d.modCtx c h).mons = d.mons := rfl
@[simp] theorem Dev.modCtx_pats (d : Dev) (c : Nat) (h : Ctx → Ctx) : (d.modCtx c h).pats = d.pats := rfl
@[simp] theorem Dev.modCtx_segw (d : Dev) (c : Nat) (h : Ctx → Ctx) : (d.modCtx c h).segw = d.segw := rfl
@[simp] theorem Dev.modCtx_wfms (d : Dev) (c : Nat) (h : Ctx → Ctx) : (d.modCtx c h).wfms = d.wfms := rfl
@[simp] theorem Dev.modCtx_caps (d : Dev) (c : Nat) (h : Ctx → Ctx) : (d.modCtx c h).caps = d.caps := rfl
@[simp] theorem Dev.modCtx_tmes (d : Dev) (c : Nat) (h : Ctx → Ctx) : (d.modCtx c h).tmes = d.tmes := rfl
@[simp] theorem Dev.modCtx_mills (d : Dev) (c : Nat) (h : Ctx → Ctx) : (d.modCtx c h).mills = d.mills := rfl
@[simp] theorem Dev.modCtx_rasts (d : Dev) (c : Nat) (h : Ctx → Ctx) : (d.modCtx c h).rasts = d.rasts := rfl
@[simp] theorem Dev.modCtx_dmas (d : Dev) (c : Nat) (h : Ctx → Ctx) : (d.modCtx c h).dmas = d.dmas := rfl
@[simp] theorem Dev.modCtx_pcie (d : Dev) (c : Nat) (h : Ctx → Ctx) : (d.modCtx c h).pcie = d.pcie := rfl
@[simp] theorem Dev.modCtx_reed (d : Dev) (c : Nat) (h : Ctx → Ctx) : (d.modCtx c h).reed = d.reed := rfl
@[simp] theorem Dev.modCtx_flash (d : Dev) (c : Nat) (h : Ctx → Ctx) : (d.modCtx c h).flash = d.flash := rfl
@[simp] theorem Dev.modCtx_bp (d : Dev) (c : Nat) (h : Ctx → Ctx) : (d.modCtx c h).bp = d.bp := rfl
@[simp] theorem Dev.modCtx_cal (d : Dev) (c : Nat) (h : Ctx → Ctx) : (d.modCtx c h).cal = d.cal := rfl
@[simp] theorem Dev.modCtx_therm (d : Dev) (c : Nat) (h : Ctx → Ctx) : (d.modCtx c h).therm = d.therm := rfl
@[simp] theorem Dev.modCtx_log (d : Dev) (c : Nat) (h : Ctx → Ctx) : (d.modCtx c h).log = d.log := rfl
@[simp] theorem Dev.modCtx_ucode (d : Dev) (c : Nat) (h : Ctx → Ctx) : (d.modCtx c h).ucode = d.ucode := rfl
@[simp] theorem Dev.modCtx_contain (d : Dev) (c : Nat) (h : Ctx → Ctx) : (d.modCtx c h).contain = d.contain := rfl
@[simp] theorem Dev.modCtx_supply (d : Dev) (c : Nat) (h : Ctx → Ctx) : (d.modCtx c h).supply = d.supply := rfl
@[simp] theorem Dev.modCtx_jtag (d : Dev) (c : Nat) (h : Ctx → Ctx) : (d.modCtx c h).jtag = d.jtag := rfl
@[simp] theorem Dev.modCtx_boot (d : Dev) (c : Nat) (h : Ctx → Ctx) : (d.modCtx c h).boot = d.boot := rfl
@[simp] theorem Dev.modCtx_evcRun (d : Dev) (c : Nat) (h : Ctx → Ctx) : (d.modCtx c h).evcRun = d.evcRun := rfl
@[simp] theorem Dev.modCtx_judging (d : Dev) (c : Nat) (h : Ctx → Ctx) : (d.modCtx c h).judging = d.judging := rfl
@[simp] theorem Dev.modCtx_freeCtr (d : Dev) (c : Nat) (h : Ctx → Ctx) : (d.modCtx c h).freeCtr = d.freeCtr := rfl
@[simp] theorem Dev.modCtx_chan (d : Dev) (c : Nat) (h : Ctx → Ctx) (k : Nat) : (d.modCtx c h).chan k = d.chan k := rfl
@[simp] theorem Dev.modCtx_pat (d : Dev) (c : Nat) (h : Ctx → Ctx) (k : Nat) : (d.modCtx c h).pat k = d.pat k := rfl
@[simp] theorem Dev.modCtx_wfm (d : Dev) (c : Nat) (h : Ctx → Ctx) (k : Nat) : (d.modCtx c h).wfm k = d.wfm k := rfl
@[simp] theorem Dev.modCtx_cap (d : Dev) (c : Nat) (h : Ctx → Ctx) (k : Nat) : (d.modCtx c h).cap k = d.cap k := rfl
@[simp] theorem Dev.modCtx_tme (d : Dev) (c : Nat) (h : Ctx → Ctx) (k : Nat) : (d.modCtx c h).tme k = d.tme k := rfl
@[simp] theorem Dev.modCtx_mill (d : Dev) (c : Nat) (h : Ctx → Ctx) (k : Nat) : (d.modCtx c h).mill k = d.mill k := rfl
@[simp] theorem Dev.modCtx_dma (d : Dev) (c : Nat) (h : Ctx → Ctx) (k : Nat) : (d.modCtx c h).dma k = d.dma k := rfl
@[simp] theorem Dev.modCtx_rast (d : Dev) (c : Nat) (h : Ctx → Ctx) (k : Nat) : (d.modCtx c h).rast k = d.rast k := rfl
@[simp] theorem Dev.modCtx_box (d : Dev) (c : Nat) (h : Ctx → Ctx) (k : Nat) : (d.modCtx c h).box k = d.box k := rfl
@[simp] theorem Dev.modCtx_ustore (d : Dev) (c : Nat) (h : Ctx → Ctx) (k : Nat) : (d.modCtx c h).ustore k = d.ustore k := rfl
@[simp] theorem Dev.modCtx_unit (d : Dev) (c : Nat) (h : Ctx → Ctx) (k : Nat) : (d.modCtx c h).unit k = d.unit k := rfl
@[simp] theorem Dev.modCtx_rd (d : Dev) (c : Nat) (h : Ctx → Ctx) (g : Fld) : (d.modCtx c h).rd g = d.rd g := rfl
@[simp] theorem Dev.modCtx_on (d : Dev) (c : Nat) (h : Ctx → Ctx) (g : Fld) : (d.modCtx c h).on g = d.on g := rfl
@[simp] theorem Dev.modCtx_byte (d : Dev) (c : Nat) (h : Ctx → Ctx) (k : Nat) : (d.modCtx c h).byte k = d.byte k := rfl
@[simp] theorem Dev.modCtx_site (d : Dev) (c : Nat) (h : Ctx → Ctx) (k : Nat) : (d.modCtx c h).site k = d.site k := rfl
@[simp] theorem Dev.modCtx_owns (d : Dev) (c : Nat) (h : Ctx → Ctx) (m : Master) (k : Nat) : (d.modCtx c h).owns m k = d.owns m k := rfl
@[simp] theorem Dev.modCtx_inSite (d : Dev) (c : Nat) (h : Ctx → Ctx) (k i : Nat) : (d.modCtx c h).inSite k i = d.inSite k i := rfl

/-! setChan. -/

@[simp] theorem Dev.setChan_regs (d : Dev) (c : Nat) (x : Chan) : (d.setChan c x).regs = d.regs := rfl
@[simp] theorem Dev.setChan_units (d : Dev) (c : Nat) (x : Chan) : (d.setChan c x).units = d.units := rfl
@[simp] theorem Dev.setChan_inUse (d : Dev) (c : Nat) (x : Chan) : (d.setChan c x).inUse = d.inUse := rfl
@[simp] theorem Dev.setChan_waitGran (d : Dev) (c : Nat) (x : Chan) : (d.setChan c x).waitGran = d.waitGran := rfl
@[simp] theorem Dev.setChan_waitBus (d : Dev) (c : Nat) (x : Chan) : (d.setChan c x).waitBus = d.waitBus := rfl
@[simp] theorem Dev.setChan_serving (d : Dev) (c : Nat) (x : Chan) : (d.setChan c x).serving = d.serving := rfl
@[simp] theorem Dev.setChan_ports (d : Dev) (c : Nat) (x : Chan) : (d.setChan c x).ports = d.ports := rfl
@[simp] theorem Dev.setChan_gran (d : Dev) (c : Nat) (x : Chan) : (d.setChan c x).gran = d.gran := rfl
@[simp] theorem Dev.setChan_ctxs (d : Dev) (c : Nat) (x : Chan) : (d.setChan c x).ctxs = d.ctxs := rfl
@[simp] theorem Dev.setChan_sites (d : Dev) (c : Nat) (x : Chan) : (d.setChan c x).sites = d.sites := rfl
@[simp] theorem Dev.setChan_chmap (d : Dev) (c : Nat) (x : Chan) : (d.setChan c x).chmap = d.chmap := rfl
@[simp] theorem Dev.setChan_ctxCmd (d : Dev) (c : Nat) (x : Chan) : (d.setChan c x).ctxCmd = d.ctxCmd := rfl
@[simp] theorem Dev.setChan_icache (d : Dev) (c : Nat) (x : Chan) : (d.setChan c x).icache = d.icache := rfl
@[simp] theorem Dev.setChan_icacheBusy (d : Dev) (c : Nat) (x : Chan) : (d.setChan c x).icacheBusy = d.icacheBusy := rfl
@[simp] theorem Dev.setChan_mons (d : Dev) (c : Nat) (x : Chan) : (d.setChan c x).mons = d.mons := rfl
@[simp] theorem Dev.setChan_pats (d : Dev) (c : Nat) (x : Chan) : (d.setChan c x).pats = d.pats := rfl
@[simp] theorem Dev.setChan_segw (d : Dev) (c : Nat) (x : Chan) : (d.setChan c x).segw = d.segw := rfl
@[simp] theorem Dev.setChan_wfms (d : Dev) (c : Nat) (x : Chan) : (d.setChan c x).wfms = d.wfms := rfl
@[simp] theorem Dev.setChan_caps (d : Dev) (c : Nat) (x : Chan) : (d.setChan c x).caps = d.caps := rfl
@[simp] theorem Dev.setChan_tmes (d : Dev) (c : Nat) (x : Chan) : (d.setChan c x).tmes = d.tmes := rfl
@[simp] theorem Dev.setChan_mills (d : Dev) (c : Nat) (x : Chan) : (d.setChan c x).mills = d.mills := rfl
@[simp] theorem Dev.setChan_rasts (d : Dev) (c : Nat) (x : Chan) : (d.setChan c x).rasts = d.rasts := rfl
@[simp] theorem Dev.setChan_dmas (d : Dev) (c : Nat) (x : Chan) : (d.setChan c x).dmas = d.dmas := rfl
@[simp] theorem Dev.setChan_pcie (d : Dev) (c : Nat) (x : Chan) : (d.setChan c x).pcie = d.pcie := rfl
@[simp] theorem Dev.setChan_reed (d : Dev) (c : Nat) (x : Chan) : (d.setChan c x).reed = d.reed := rfl
@[simp] theorem Dev.setChan_flash (d : Dev) (c : Nat) (x : Chan) : (d.setChan c x).flash = d.flash := rfl
@[simp] theorem Dev.setChan_bp (d : Dev) (c : Nat) (x : Chan) : (d.setChan c x).bp = d.bp := rfl
@[simp] theorem Dev.setChan_cal (d : Dev) (c : Nat) (x : Chan) : (d.setChan c x).cal = d.cal := rfl
@[simp] theorem Dev.setChan_therm (d : Dev) (c : Nat) (x : Chan) : (d.setChan c x).therm = d.therm := rfl
@[simp] theorem Dev.setChan_log (d : Dev) (c : Nat) (x : Chan) : (d.setChan c x).log = d.log := rfl
@[simp] theorem Dev.setChan_ucode (d : Dev) (c : Nat) (x : Chan) : (d.setChan c x).ucode = d.ucode := rfl
@[simp] theorem Dev.setChan_contain (d : Dev) (c : Nat) (x : Chan) : (d.setChan c x).contain = d.contain := rfl
@[simp] theorem Dev.setChan_supply (d : Dev) (c : Nat) (x : Chan) : (d.setChan c x).supply = d.supply := rfl
@[simp] theorem Dev.setChan_jtag (d : Dev) (c : Nat) (x : Chan) : (d.setChan c x).jtag = d.jtag := rfl
@[simp] theorem Dev.setChan_boot (d : Dev) (c : Nat) (x : Chan) : (d.setChan c x).boot = d.boot := rfl
@[simp] theorem Dev.setChan_evcRun (d : Dev) (c : Nat) (x : Chan) : (d.setChan c x).evcRun = d.evcRun := rfl
@[simp] theorem Dev.setChan_judging (d : Dev) (c : Nat) (x : Chan) : (d.setChan c x).judging = d.judging := rfl
@[simp] theorem Dev.setChan_freeCtr (d : Dev) (c : Nat) (x : Chan) : (d.setChan c x).freeCtr = d.freeCtr := rfl
@[simp] theorem Dev.setChan_ctx (d : Dev) (c : Nat) (x : Chan) (k : Nat) : (d.setChan c x).ctx k = d.ctx k := rfl
@[simp] theorem Dev.setChan_pat (d : Dev) (c : Nat) (x : Chan) (k : Nat) : (d.setChan c x).pat k = d.pat k := rfl
@[simp] theorem Dev.setChan_wfm (d : Dev) (c : Nat) (x : Chan) (k : Nat) : (d.setChan c x).wfm k = d.wfm k := rfl
@[simp] theorem Dev.setChan_cap (d : Dev) (c : Nat) (x : Chan) (k : Nat) : (d.setChan c x).cap k = d.cap k := rfl
@[simp] theorem Dev.setChan_tme (d : Dev) (c : Nat) (x : Chan) (k : Nat) : (d.setChan c x).tme k = d.tme k := rfl
@[simp] theorem Dev.setChan_mill (d : Dev) (c : Nat) (x : Chan) (k : Nat) : (d.setChan c x).mill k = d.mill k := rfl
@[simp] theorem Dev.setChan_dma (d : Dev) (c : Nat) (x : Chan) (k : Nat) : (d.setChan c x).dma k = d.dma k := rfl
@[simp] theorem Dev.setChan_rast (d : Dev) (c : Nat) (x : Chan) (k : Nat) : (d.setChan c x).rast k = d.rast k := rfl
@[simp] theorem Dev.setChan_box (d : Dev) (c : Nat) (x : Chan) (k : Nat) : (d.setChan c x).box k = d.box k := rfl
@[simp] theorem Dev.setChan_ustore (d : Dev) (c : Nat) (x : Chan) (k : Nat) : (d.setChan c x).ustore k = d.ustore k := rfl
@[simp] theorem Dev.setChan_unit (d : Dev) (c : Nat) (x : Chan) (k : Nat) : (d.setChan c x).unit k = d.unit k := rfl
@[simp] theorem Dev.setChan_rd (d : Dev) (c : Nat) (x : Chan) (g : Fld) : (d.setChan c x).rd g = d.rd g := rfl
@[simp] theorem Dev.setChan_on (d : Dev) (c : Nat) (x : Chan) (g : Fld) : (d.setChan c x).on g = d.on g := rfl
@[simp] theorem Dev.setChan_byte (d : Dev) (c : Nat) (x : Chan) (k : Nat) : (d.setChan c x).byte k = d.byte k := rfl
@[simp] theorem Dev.setChan_site (d : Dev) (c : Nat) (x : Chan) (k : Nat) : (d.setChan c x).site k = d.site k := rfl
@[simp] theorem Dev.setChan_owns (d : Dev) (c : Nat) (x : Chan) (m : Master) (k : Nat) : (d.setChan c x).owns m k = d.owns m k := rfl
@[simp] theorem Dev.setChan_inSite (d : Dev) (c : Nat) (x : Chan) (k i : Nat) : (d.setChan c x).inSite k i = d.inSite k i := rfl

/-! modChan. -/

@[simp] theorem Dev.modChan_regs (d : Dev) (c : Nat) (h : Chan → Chan) : (d.modChan c h).regs = d.regs := rfl
@[simp] theorem Dev.modChan_units (d : Dev) (c : Nat) (h : Chan → Chan) : (d.modChan c h).units = d.units := rfl
@[simp] theorem Dev.modChan_inUse (d : Dev) (c : Nat) (h : Chan → Chan) : (d.modChan c h).inUse = d.inUse := rfl
@[simp] theorem Dev.modChan_waitGran (d : Dev) (c : Nat) (h : Chan → Chan) : (d.modChan c h).waitGran = d.waitGran := rfl
@[simp] theorem Dev.modChan_waitBus (d : Dev) (c : Nat) (h : Chan → Chan) : (d.modChan c h).waitBus = d.waitBus := rfl
@[simp] theorem Dev.modChan_serving (d : Dev) (c : Nat) (h : Chan → Chan) : (d.modChan c h).serving = d.serving := rfl
@[simp] theorem Dev.modChan_ports (d : Dev) (c : Nat) (h : Chan → Chan) : (d.modChan c h).ports = d.ports := rfl
@[simp] theorem Dev.modChan_gran (d : Dev) (c : Nat) (h : Chan → Chan) : (d.modChan c h).gran = d.gran := rfl
@[simp] theorem Dev.modChan_ctxs (d : Dev) (c : Nat) (h : Chan → Chan) : (d.modChan c h).ctxs = d.ctxs := rfl
@[simp] theorem Dev.modChan_sites (d : Dev) (c : Nat) (h : Chan → Chan) : (d.modChan c h).sites = d.sites := rfl
@[simp] theorem Dev.modChan_chmap (d : Dev) (c : Nat) (h : Chan → Chan) : (d.modChan c h).chmap = d.chmap := rfl
@[simp] theorem Dev.modChan_ctxCmd (d : Dev) (c : Nat) (h : Chan → Chan) : (d.modChan c h).ctxCmd = d.ctxCmd := rfl
@[simp] theorem Dev.modChan_icache (d : Dev) (c : Nat) (h : Chan → Chan) : (d.modChan c h).icache = d.icache := rfl
@[simp] theorem Dev.modChan_icacheBusy (d : Dev) (c : Nat) (h : Chan → Chan) : (d.modChan c h).icacheBusy = d.icacheBusy := rfl
@[simp] theorem Dev.modChan_mons (d : Dev) (c : Nat) (h : Chan → Chan) : (d.modChan c h).mons = d.mons := rfl
@[simp] theorem Dev.modChan_pats (d : Dev) (c : Nat) (h : Chan → Chan) : (d.modChan c h).pats = d.pats := rfl
@[simp] theorem Dev.modChan_segw (d : Dev) (c : Nat) (h : Chan → Chan) : (d.modChan c h).segw = d.segw := rfl
@[simp] theorem Dev.modChan_wfms (d : Dev) (c : Nat) (h : Chan → Chan) : (d.modChan c h).wfms = d.wfms := rfl
@[simp] theorem Dev.modChan_caps (d : Dev) (c : Nat) (h : Chan → Chan) : (d.modChan c h).caps = d.caps := rfl
@[simp] theorem Dev.modChan_tmes (d : Dev) (c : Nat) (h : Chan → Chan) : (d.modChan c h).tmes = d.tmes := rfl
@[simp] theorem Dev.modChan_mills (d : Dev) (c : Nat) (h : Chan → Chan) : (d.modChan c h).mills = d.mills := rfl
@[simp] theorem Dev.modChan_rasts (d : Dev) (c : Nat) (h : Chan → Chan) : (d.modChan c h).rasts = d.rasts := rfl
@[simp] theorem Dev.modChan_dmas (d : Dev) (c : Nat) (h : Chan → Chan) : (d.modChan c h).dmas = d.dmas := rfl
@[simp] theorem Dev.modChan_pcie (d : Dev) (c : Nat) (h : Chan → Chan) : (d.modChan c h).pcie = d.pcie := rfl
@[simp] theorem Dev.modChan_reed (d : Dev) (c : Nat) (h : Chan → Chan) : (d.modChan c h).reed = d.reed := rfl
@[simp] theorem Dev.modChan_flash (d : Dev) (c : Nat) (h : Chan → Chan) : (d.modChan c h).flash = d.flash := rfl
@[simp] theorem Dev.modChan_bp (d : Dev) (c : Nat) (h : Chan → Chan) : (d.modChan c h).bp = d.bp := rfl
@[simp] theorem Dev.modChan_cal (d : Dev) (c : Nat) (h : Chan → Chan) : (d.modChan c h).cal = d.cal := rfl
@[simp] theorem Dev.modChan_therm (d : Dev) (c : Nat) (h : Chan → Chan) : (d.modChan c h).therm = d.therm := rfl
@[simp] theorem Dev.modChan_log (d : Dev) (c : Nat) (h : Chan → Chan) : (d.modChan c h).log = d.log := rfl
@[simp] theorem Dev.modChan_ucode (d : Dev) (c : Nat) (h : Chan → Chan) : (d.modChan c h).ucode = d.ucode := rfl
@[simp] theorem Dev.modChan_contain (d : Dev) (c : Nat) (h : Chan → Chan) : (d.modChan c h).contain = d.contain := rfl
@[simp] theorem Dev.modChan_supply (d : Dev) (c : Nat) (h : Chan → Chan) : (d.modChan c h).supply = d.supply := rfl
@[simp] theorem Dev.modChan_jtag (d : Dev) (c : Nat) (h : Chan → Chan) : (d.modChan c h).jtag = d.jtag := rfl
@[simp] theorem Dev.modChan_boot (d : Dev) (c : Nat) (h : Chan → Chan) : (d.modChan c h).boot = d.boot := rfl
@[simp] theorem Dev.modChan_evcRun (d : Dev) (c : Nat) (h : Chan → Chan) : (d.modChan c h).evcRun = d.evcRun := rfl
@[simp] theorem Dev.modChan_judging (d : Dev) (c : Nat) (h : Chan → Chan) : (d.modChan c h).judging = d.judging := rfl
@[simp] theorem Dev.modChan_freeCtr (d : Dev) (c : Nat) (h : Chan → Chan) : (d.modChan c h).freeCtr = d.freeCtr := rfl
@[simp] theorem Dev.modChan_ctx (d : Dev) (c : Nat) (h : Chan → Chan) (k : Nat) : (d.modChan c h).ctx k = d.ctx k := rfl
@[simp] theorem Dev.modChan_pat (d : Dev) (c : Nat) (h : Chan → Chan) (k : Nat) : (d.modChan c h).pat k = d.pat k := rfl
@[simp] theorem Dev.modChan_wfm (d : Dev) (c : Nat) (h : Chan → Chan) (k : Nat) : (d.modChan c h).wfm k = d.wfm k := rfl
@[simp] theorem Dev.modChan_cap (d : Dev) (c : Nat) (h : Chan → Chan) (k : Nat) : (d.modChan c h).cap k = d.cap k := rfl
@[simp] theorem Dev.modChan_tme (d : Dev) (c : Nat) (h : Chan → Chan) (k : Nat) : (d.modChan c h).tme k = d.tme k := rfl
@[simp] theorem Dev.modChan_mill (d : Dev) (c : Nat) (h : Chan → Chan) (k : Nat) : (d.modChan c h).mill k = d.mill k := rfl
@[simp] theorem Dev.modChan_dma (d : Dev) (c : Nat) (h : Chan → Chan) (k : Nat) : (d.modChan c h).dma k = d.dma k := rfl
@[simp] theorem Dev.modChan_rast (d : Dev) (c : Nat) (h : Chan → Chan) (k : Nat) : (d.modChan c h).rast k = d.rast k := rfl
@[simp] theorem Dev.modChan_box (d : Dev) (c : Nat) (h : Chan → Chan) (k : Nat) : (d.modChan c h).box k = d.box k := rfl
@[simp] theorem Dev.modChan_ustore (d : Dev) (c : Nat) (h : Chan → Chan) (k : Nat) : (d.modChan c h).ustore k = d.ustore k := rfl
@[simp] theorem Dev.modChan_unit (d : Dev) (c : Nat) (h : Chan → Chan) (k : Nat) : (d.modChan c h).unit k = d.unit k := rfl
@[simp] theorem Dev.modChan_rd (d : Dev) (c : Nat) (h : Chan → Chan) (g : Fld) : (d.modChan c h).rd g = d.rd g := rfl
@[simp] theorem Dev.modChan_on (d : Dev) (c : Nat) (h : Chan → Chan) (g : Fld) : (d.modChan c h).on g = d.on g := rfl
@[simp] theorem Dev.modChan_byte (d : Dev) (c : Nat) (h : Chan → Chan) (k : Nat) : (d.modChan c h).byte k = d.byte k := rfl
@[simp] theorem Dev.modChan_site (d : Dev) (c : Nat) (h : Chan → Chan) (k : Nat) : (d.modChan c h).site k = d.site k := rfl
@[simp] theorem Dev.modChan_owns (d : Dev) (c : Nat) (h : Chan → Chan) (m : Master) (k : Nat) : (d.modChan c h).owns m k = d.owns m k := rfl
@[simp] theorem Dev.modChan_inSite (d : Dev) (c : Nat) (h : Chan → Chan) (k i : Nat) : (d.modChan c h).inSite k i = d.inSite k i := rfl

/-! setPat. -/

@[simp] theorem Dev.setPat_regs (d : Dev) (n : Nat) (x : Pat) : (d.setPat n x).regs = d.regs := rfl
@[simp] theorem Dev.setPat_units (d : Dev) (n : Nat) (x : Pat) : (d.setPat n x).units = d.units := rfl
@[simp] theorem Dev.setPat_inUse (d : Dev) (n : Nat) (x : Pat) : (d.setPat n x).inUse = d.inUse := rfl
@[simp] theorem Dev.setPat_waitGran (d : Dev) (n : Nat) (x : Pat) : (d.setPat n x).waitGran = d.waitGran := rfl
@[simp] theorem Dev.setPat_waitBus (d : Dev) (n : Nat) (x : Pat) : (d.setPat n x).waitBus = d.waitBus := rfl
@[simp] theorem Dev.setPat_serving (d : Dev) (n : Nat) (x : Pat) : (d.setPat n x).serving = d.serving := rfl
@[simp] theorem Dev.setPat_ports (d : Dev) (n : Nat) (x : Pat) : (d.setPat n x).ports = d.ports := rfl
@[simp] theorem Dev.setPat_gran (d : Dev) (n : Nat) (x : Pat) : (d.setPat n x).gran = d.gran := rfl
@[simp] theorem Dev.setPat_ctxs (d : Dev) (n : Nat) (x : Pat) : (d.setPat n x).ctxs = d.ctxs := rfl
@[simp] theorem Dev.setPat_sites (d : Dev) (n : Nat) (x : Pat) : (d.setPat n x).sites = d.sites := rfl
@[simp] theorem Dev.setPat_chmap (d : Dev) (n : Nat) (x : Pat) : (d.setPat n x).chmap = d.chmap := rfl
@[simp] theorem Dev.setPat_ctxCmd (d : Dev) (n : Nat) (x : Pat) : (d.setPat n x).ctxCmd = d.ctxCmd := rfl
@[simp] theorem Dev.setPat_icache (d : Dev) (n : Nat) (x : Pat) : (d.setPat n x).icache = d.icache := rfl
@[simp] theorem Dev.setPat_icacheBusy (d : Dev) (n : Nat) (x : Pat) : (d.setPat n x).icacheBusy = d.icacheBusy := rfl
@[simp] theorem Dev.setPat_chans (d : Dev) (n : Nat) (x : Pat) : (d.setPat n x).chans = d.chans := rfl
@[simp] theorem Dev.setPat_mons (d : Dev) (n : Nat) (x : Pat) : (d.setPat n x).mons = d.mons := rfl
@[simp] theorem Dev.setPat_segw (d : Dev) (n : Nat) (x : Pat) : (d.setPat n x).segw = d.segw := rfl
@[simp] theorem Dev.setPat_wfms (d : Dev) (n : Nat) (x : Pat) : (d.setPat n x).wfms = d.wfms := rfl
@[simp] theorem Dev.setPat_caps (d : Dev) (n : Nat) (x : Pat) : (d.setPat n x).caps = d.caps := rfl
@[simp] theorem Dev.setPat_tmes (d : Dev) (n : Nat) (x : Pat) : (d.setPat n x).tmes = d.tmes := rfl
@[simp] theorem Dev.setPat_mills (d : Dev) (n : Nat) (x : Pat) : (d.setPat n x).mills = d.mills := rfl
@[simp] theorem Dev.setPat_rasts (d : Dev) (n : Nat) (x : Pat) : (d.setPat n x).rasts = d.rasts := rfl
@[simp] theorem Dev.setPat_dmas (d : Dev) (n : Nat) (x : Pat) : (d.setPat n x).dmas = d.dmas := rfl
@[simp] theorem Dev.setPat_pcie (d : Dev) (n : Nat) (x : Pat) : (d.setPat n x).pcie = d.pcie := rfl
@[simp] theorem Dev.setPat_reed (d : Dev) (n : Nat) (x : Pat) : (d.setPat n x).reed = d.reed := rfl
@[simp] theorem Dev.setPat_flash (d : Dev) (n : Nat) (x : Pat) : (d.setPat n x).flash = d.flash := rfl
@[simp] theorem Dev.setPat_bp (d : Dev) (n : Nat) (x : Pat) : (d.setPat n x).bp = d.bp := rfl
@[simp] theorem Dev.setPat_cal (d : Dev) (n : Nat) (x : Pat) : (d.setPat n x).cal = d.cal := rfl
@[simp] theorem Dev.setPat_therm (d : Dev) (n : Nat) (x : Pat) : (d.setPat n x).therm = d.therm := rfl
@[simp] theorem Dev.setPat_log (d : Dev) (n : Nat) (x : Pat) : (d.setPat n x).log = d.log := rfl
@[simp] theorem Dev.setPat_ucode (d : Dev) (n : Nat) (x : Pat) : (d.setPat n x).ucode = d.ucode := rfl
@[simp] theorem Dev.setPat_contain (d : Dev) (n : Nat) (x : Pat) : (d.setPat n x).contain = d.contain := rfl
@[simp] theorem Dev.setPat_supply (d : Dev) (n : Nat) (x : Pat) : (d.setPat n x).supply = d.supply := rfl
@[simp] theorem Dev.setPat_jtag (d : Dev) (n : Nat) (x : Pat) : (d.setPat n x).jtag = d.jtag := rfl
@[simp] theorem Dev.setPat_boot (d : Dev) (n : Nat) (x : Pat) : (d.setPat n x).boot = d.boot := rfl
@[simp] theorem Dev.setPat_evcRun (d : Dev) (n : Nat) (x : Pat) : (d.setPat n x).evcRun = d.evcRun := rfl
@[simp] theorem Dev.setPat_judging (d : Dev) (n : Nat) (x : Pat) : (d.setPat n x).judging = d.judging := rfl
@[simp] theorem Dev.setPat_freeCtr (d : Dev) (n : Nat) (x : Pat) : (d.setPat n x).freeCtr = d.freeCtr := rfl
@[simp] theorem Dev.setPat_ctx (d : Dev) (n : Nat) (x : Pat) (k : Nat) : (d.setPat n x).ctx k = d.ctx k := rfl
@[simp] theorem Dev.setPat_chan (d : Dev) (n : Nat) (x : Pat) (k : Nat) : (d.setPat n x).chan k = d.chan k := rfl
@[simp] theorem Dev.setPat_wfm (d : Dev) (n : Nat) (x : Pat) (k : Nat) : (d.setPat n x).wfm k = d.wfm k := rfl
@[simp] theorem Dev.setPat_cap (d : Dev) (n : Nat) (x : Pat) (k : Nat) : (d.setPat n x).cap k = d.cap k := rfl
@[simp] theorem Dev.setPat_tme (d : Dev) (n : Nat) (x : Pat) (k : Nat) : (d.setPat n x).tme k = d.tme k := rfl
@[simp] theorem Dev.setPat_mill (d : Dev) (n : Nat) (x : Pat) (k : Nat) : (d.setPat n x).mill k = d.mill k := rfl
@[simp] theorem Dev.setPat_dma (d : Dev) (n : Nat) (x : Pat) (k : Nat) : (d.setPat n x).dma k = d.dma k := rfl
@[simp] theorem Dev.setPat_rast (d : Dev) (n : Nat) (x : Pat) (k : Nat) : (d.setPat n x).rast k = d.rast k := rfl
@[simp] theorem Dev.setPat_box (d : Dev) (n : Nat) (x : Pat) (k : Nat) : (d.setPat n x).box k = d.box k := rfl
@[simp] theorem Dev.setPat_ustore (d : Dev) (n : Nat) (x : Pat) (k : Nat) : (d.setPat n x).ustore k = d.ustore k := rfl
@[simp] theorem Dev.setPat_unit (d : Dev) (n : Nat) (x : Pat) (k : Nat) : (d.setPat n x).unit k = d.unit k := rfl
@[simp] theorem Dev.setPat_rd (d : Dev) (n : Nat) (x : Pat) (g : Fld) : (d.setPat n x).rd g = d.rd g := rfl
@[simp] theorem Dev.setPat_on (d : Dev) (n : Nat) (x : Pat) (g : Fld) : (d.setPat n x).on g = d.on g := rfl
@[simp] theorem Dev.setPat_byte (d : Dev) (n : Nat) (x : Pat) (k : Nat) : (d.setPat n x).byte k = d.byte k := rfl
@[simp] theorem Dev.setPat_site (d : Dev) (n : Nat) (x : Pat) (k : Nat) : (d.setPat n x).site k = d.site k := rfl
@[simp] theorem Dev.setPat_owns (d : Dev) (n : Nat) (x : Pat) (m : Master) (k : Nat) : (d.setPat n x).owns m k = d.owns m k := rfl
@[simp] theorem Dev.setPat_inSite (d : Dev) (n : Nat) (x : Pat) (k i : Nat) : (d.setPat n x).inSite k i = d.inSite k i := rfl

/-! modPat. -/

@[simp] theorem Dev.modPat_regs (d : Dev) (n : Nat) (h : Pat → Pat) : (d.modPat n h).regs = d.regs := rfl
@[simp] theorem Dev.modPat_units (d : Dev) (n : Nat) (h : Pat → Pat) : (d.modPat n h).units = d.units := rfl
@[simp] theorem Dev.modPat_inUse (d : Dev) (n : Nat) (h : Pat → Pat) : (d.modPat n h).inUse = d.inUse := rfl
@[simp] theorem Dev.modPat_waitGran (d : Dev) (n : Nat) (h : Pat → Pat) : (d.modPat n h).waitGran = d.waitGran := rfl
@[simp] theorem Dev.modPat_waitBus (d : Dev) (n : Nat) (h : Pat → Pat) : (d.modPat n h).waitBus = d.waitBus := rfl
@[simp] theorem Dev.modPat_serving (d : Dev) (n : Nat) (h : Pat → Pat) : (d.modPat n h).serving = d.serving := rfl
@[simp] theorem Dev.modPat_ports (d : Dev) (n : Nat) (h : Pat → Pat) : (d.modPat n h).ports = d.ports := rfl
@[simp] theorem Dev.modPat_gran (d : Dev) (n : Nat) (h : Pat → Pat) : (d.modPat n h).gran = d.gran := rfl
@[simp] theorem Dev.modPat_ctxs (d : Dev) (n : Nat) (h : Pat → Pat) : (d.modPat n h).ctxs = d.ctxs := rfl
@[simp] theorem Dev.modPat_sites (d : Dev) (n : Nat) (h : Pat → Pat) : (d.modPat n h).sites = d.sites := rfl
@[simp] theorem Dev.modPat_chmap (d : Dev) (n : Nat) (h : Pat → Pat) : (d.modPat n h).chmap = d.chmap := rfl
@[simp] theorem Dev.modPat_ctxCmd (d : Dev) (n : Nat) (h : Pat → Pat) : (d.modPat n h).ctxCmd = d.ctxCmd := rfl
@[simp] theorem Dev.modPat_icache (d : Dev) (n : Nat) (h : Pat → Pat) : (d.modPat n h).icache = d.icache := rfl
@[simp] theorem Dev.modPat_icacheBusy (d : Dev) (n : Nat) (h : Pat → Pat) : (d.modPat n h).icacheBusy = d.icacheBusy := rfl
@[simp] theorem Dev.modPat_chans (d : Dev) (n : Nat) (h : Pat → Pat) : (d.modPat n h).chans = d.chans := rfl
@[simp] theorem Dev.modPat_mons (d : Dev) (n : Nat) (h : Pat → Pat) : (d.modPat n h).mons = d.mons := rfl
@[simp] theorem Dev.modPat_segw (d : Dev) (n : Nat) (h : Pat → Pat) : (d.modPat n h).segw = d.segw := rfl
@[simp] theorem Dev.modPat_wfms (d : Dev) (n : Nat) (h : Pat → Pat) : (d.modPat n h).wfms = d.wfms := rfl
@[simp] theorem Dev.modPat_caps (d : Dev) (n : Nat) (h : Pat → Pat) : (d.modPat n h).caps = d.caps := rfl
@[simp] theorem Dev.modPat_tmes (d : Dev) (n : Nat) (h : Pat → Pat) : (d.modPat n h).tmes = d.tmes := rfl
@[simp] theorem Dev.modPat_mills (d : Dev) (n : Nat) (h : Pat → Pat) : (d.modPat n h).mills = d.mills := rfl
@[simp] theorem Dev.modPat_rasts (d : Dev) (n : Nat) (h : Pat → Pat) : (d.modPat n h).rasts = d.rasts := rfl
@[simp] theorem Dev.modPat_dmas (d : Dev) (n : Nat) (h : Pat → Pat) : (d.modPat n h).dmas = d.dmas := rfl
@[simp] theorem Dev.modPat_pcie (d : Dev) (n : Nat) (h : Pat → Pat) : (d.modPat n h).pcie = d.pcie := rfl
@[simp] theorem Dev.modPat_reed (d : Dev) (n : Nat) (h : Pat → Pat) : (d.modPat n h).reed = d.reed := rfl
@[simp] theorem Dev.modPat_flash (d : Dev) (n : Nat) (h : Pat → Pat) : (d.modPat n h).flash = d.flash := rfl
@[simp] theorem Dev.modPat_bp (d : Dev) (n : Nat) (h : Pat → Pat) : (d.modPat n h).bp = d.bp := rfl
@[simp] theorem Dev.modPat_cal (d : Dev) (n : Nat) (h : Pat → Pat) : (d.modPat n h).cal = d.cal := rfl
@[simp] theorem Dev.modPat_therm (d : Dev) (n : Nat) (h : Pat → Pat) : (d.modPat n h).therm = d.therm := rfl
@[simp] theorem Dev.modPat_log (d : Dev) (n : Nat) (h : Pat → Pat) : (d.modPat n h).log = d.log := rfl
@[simp] theorem Dev.modPat_ucode (d : Dev) (n : Nat) (h : Pat → Pat) : (d.modPat n h).ucode = d.ucode := rfl
@[simp] theorem Dev.modPat_contain (d : Dev) (n : Nat) (h : Pat → Pat) : (d.modPat n h).contain = d.contain := rfl
@[simp] theorem Dev.modPat_supply (d : Dev) (n : Nat) (h : Pat → Pat) : (d.modPat n h).supply = d.supply := rfl
@[simp] theorem Dev.modPat_jtag (d : Dev) (n : Nat) (h : Pat → Pat) : (d.modPat n h).jtag = d.jtag := rfl
@[simp] theorem Dev.modPat_boot (d : Dev) (n : Nat) (h : Pat → Pat) : (d.modPat n h).boot = d.boot := rfl
@[simp] theorem Dev.modPat_evcRun (d : Dev) (n : Nat) (h : Pat → Pat) : (d.modPat n h).evcRun = d.evcRun := rfl
@[simp] theorem Dev.modPat_judging (d : Dev) (n : Nat) (h : Pat → Pat) : (d.modPat n h).judging = d.judging := rfl
@[simp] theorem Dev.modPat_freeCtr (d : Dev) (n : Nat) (h : Pat → Pat) : (d.modPat n h).freeCtr = d.freeCtr := rfl
@[simp] theorem Dev.modPat_ctx (d : Dev) (n : Nat) (h : Pat → Pat) (k : Nat) : (d.modPat n h).ctx k = d.ctx k := rfl
@[simp] theorem Dev.modPat_chan (d : Dev) (n : Nat) (h : Pat → Pat) (k : Nat) : (d.modPat n h).chan k = d.chan k := rfl
@[simp] theorem Dev.modPat_wfm (d : Dev) (n : Nat) (h : Pat → Pat) (k : Nat) : (d.modPat n h).wfm k = d.wfm k := rfl
@[simp] theorem Dev.modPat_cap (d : Dev) (n : Nat) (h : Pat → Pat) (k : Nat) : (d.modPat n h).cap k = d.cap k := rfl
@[simp] theorem Dev.modPat_tme (d : Dev) (n : Nat) (h : Pat → Pat) (k : Nat) : (d.modPat n h).tme k = d.tme k := rfl
@[simp] theorem Dev.modPat_mill (d : Dev) (n : Nat) (h : Pat → Pat) (k : Nat) : (d.modPat n h).mill k = d.mill k := rfl
@[simp] theorem Dev.modPat_dma (d : Dev) (n : Nat) (h : Pat → Pat) (k : Nat) : (d.modPat n h).dma k = d.dma k := rfl
@[simp] theorem Dev.modPat_rast (d : Dev) (n : Nat) (h : Pat → Pat) (k : Nat) : (d.modPat n h).rast k = d.rast k := rfl
@[simp] theorem Dev.modPat_box (d : Dev) (n : Nat) (h : Pat → Pat) (k : Nat) : (d.modPat n h).box k = d.box k := rfl
@[simp] theorem Dev.modPat_ustore (d : Dev) (n : Nat) (h : Pat → Pat) (k : Nat) : (d.modPat n h).ustore k = d.ustore k := rfl
@[simp] theorem Dev.modPat_unit (d : Dev) (n : Nat) (h : Pat → Pat) (k : Nat) : (d.modPat n h).unit k = d.unit k := rfl
@[simp] theorem Dev.modPat_rd (d : Dev) (n : Nat) (h : Pat → Pat) (g : Fld) : (d.modPat n h).rd g = d.rd g := rfl
@[simp] theorem Dev.modPat_on (d : Dev) (n : Nat) (h : Pat → Pat) (g : Fld) : (d.modPat n h).on g = d.on g := rfl
@[simp] theorem Dev.modPat_byte (d : Dev) (n : Nat) (h : Pat → Pat) (k : Nat) : (d.modPat n h).byte k = d.byte k := rfl
@[simp] theorem Dev.modPat_site (d : Dev) (n : Nat) (h : Pat → Pat) (k : Nat) : (d.modPat n h).site k = d.site k := rfl
@[simp] theorem Dev.modPat_owns (d : Dev) (n : Nat) (h : Pat → Pat) (m : Master) (k : Nat) : (d.modPat n h).owns m k = d.owns m k := rfl
@[simp] theorem Dev.modPat_inSite (d : Dev) (n : Nat) (h : Pat → Pat) (k i : Nat) : (d.modPat n h).inSite k i = d.inSite k i := rfl

/-! modBurst. -/

@[simp] theorem Dev.modBurst_regs (d : Dev) (n : Nat) (h : Burst → Burst) : (d.modBurst n h).regs = d.regs := rfl
@[simp] theorem Dev.modBurst_units (d : Dev) (n : Nat) (h : Burst → Burst) : (d.modBurst n h).units = d.units := rfl
@[simp] theorem Dev.modBurst_inUse (d : Dev) (n : Nat) (h : Burst → Burst) : (d.modBurst n h).inUse = d.inUse := rfl
@[simp] theorem Dev.modBurst_waitGran (d : Dev) (n : Nat) (h : Burst → Burst) : (d.modBurst n h).waitGran = d.waitGran := rfl
@[simp] theorem Dev.modBurst_waitBus (d : Dev) (n : Nat) (h : Burst → Burst) : (d.modBurst n h).waitBus = d.waitBus := rfl
@[simp] theorem Dev.modBurst_serving (d : Dev) (n : Nat) (h : Burst → Burst) : (d.modBurst n h).serving = d.serving := rfl
@[simp] theorem Dev.modBurst_ports (d : Dev) (n : Nat) (h : Burst → Burst) : (d.modBurst n h).ports = d.ports := rfl
@[simp] theorem Dev.modBurst_gran (d : Dev) (n : Nat) (h : Burst → Burst) : (d.modBurst n h).gran = d.gran := rfl
@[simp] theorem Dev.modBurst_ctxs (d : Dev) (n : Nat) (h : Burst → Burst) : (d.modBurst n h).ctxs = d.ctxs := rfl
@[simp] theorem Dev.modBurst_sites (d : Dev) (n : Nat) (h : Burst → Burst) : (d.modBurst n h).sites = d.sites := rfl
@[simp] theorem Dev.modBurst_chmap (d : Dev) (n : Nat) (h : Burst → Burst) : (d.modBurst n h).chmap = d.chmap := rfl
@[simp] theorem Dev.modBurst_ctxCmd (d : Dev) (n : Nat) (h : Burst → Burst) : (d.modBurst n h).ctxCmd = d.ctxCmd := rfl
@[simp] theorem Dev.modBurst_icache (d : Dev) (n : Nat) (h : Burst → Burst) : (d.modBurst n h).icache = d.icache := rfl
@[simp] theorem Dev.modBurst_icacheBusy (d : Dev) (n : Nat) (h : Burst → Burst) : (d.modBurst n h).icacheBusy = d.icacheBusy := rfl
@[simp] theorem Dev.modBurst_chans (d : Dev) (n : Nat) (h : Burst → Burst) : (d.modBurst n h).chans = d.chans := rfl
@[simp] theorem Dev.modBurst_mons (d : Dev) (n : Nat) (h : Burst → Burst) : (d.modBurst n h).mons = d.mons := rfl
@[simp] theorem Dev.modBurst_segw (d : Dev) (n : Nat) (h : Burst → Burst) : (d.modBurst n h).segw = d.segw := rfl
@[simp] theorem Dev.modBurst_wfms (d : Dev) (n : Nat) (h : Burst → Burst) : (d.modBurst n h).wfms = d.wfms := rfl
@[simp] theorem Dev.modBurst_caps (d : Dev) (n : Nat) (h : Burst → Burst) : (d.modBurst n h).caps = d.caps := rfl
@[simp] theorem Dev.modBurst_tmes (d : Dev) (n : Nat) (h : Burst → Burst) : (d.modBurst n h).tmes = d.tmes := rfl
@[simp] theorem Dev.modBurst_mills (d : Dev) (n : Nat) (h : Burst → Burst) : (d.modBurst n h).mills = d.mills := rfl
@[simp] theorem Dev.modBurst_rasts (d : Dev) (n : Nat) (h : Burst → Burst) : (d.modBurst n h).rasts = d.rasts := rfl
@[simp] theorem Dev.modBurst_dmas (d : Dev) (n : Nat) (h : Burst → Burst) : (d.modBurst n h).dmas = d.dmas := rfl
@[simp] theorem Dev.modBurst_pcie (d : Dev) (n : Nat) (h : Burst → Burst) : (d.modBurst n h).pcie = d.pcie := rfl
@[simp] theorem Dev.modBurst_reed (d : Dev) (n : Nat) (h : Burst → Burst) : (d.modBurst n h).reed = d.reed := rfl
@[simp] theorem Dev.modBurst_flash (d : Dev) (n : Nat) (h : Burst → Burst) : (d.modBurst n h).flash = d.flash := rfl
@[simp] theorem Dev.modBurst_bp (d : Dev) (n : Nat) (h : Burst → Burst) : (d.modBurst n h).bp = d.bp := rfl
@[simp] theorem Dev.modBurst_cal (d : Dev) (n : Nat) (h : Burst → Burst) : (d.modBurst n h).cal = d.cal := rfl
@[simp] theorem Dev.modBurst_therm (d : Dev) (n : Nat) (h : Burst → Burst) : (d.modBurst n h).therm = d.therm := rfl
@[simp] theorem Dev.modBurst_log (d : Dev) (n : Nat) (h : Burst → Burst) : (d.modBurst n h).log = d.log := rfl
@[simp] theorem Dev.modBurst_ucode (d : Dev) (n : Nat) (h : Burst → Burst) : (d.modBurst n h).ucode = d.ucode := rfl
@[simp] theorem Dev.modBurst_contain (d : Dev) (n : Nat) (h : Burst → Burst) : (d.modBurst n h).contain = d.contain := rfl
@[simp] theorem Dev.modBurst_supply (d : Dev) (n : Nat) (h : Burst → Burst) : (d.modBurst n h).supply = d.supply := rfl
@[simp] theorem Dev.modBurst_jtag (d : Dev) (n : Nat) (h : Burst → Burst) : (d.modBurst n h).jtag = d.jtag := rfl
@[simp] theorem Dev.modBurst_boot (d : Dev) (n : Nat) (h : Burst → Burst) : (d.modBurst n h).boot = d.boot := rfl
@[simp] theorem Dev.modBurst_evcRun (d : Dev) (n : Nat) (h : Burst → Burst) : (d.modBurst n h).evcRun = d.evcRun := rfl
@[simp] theorem Dev.modBurst_judging (d : Dev) (n : Nat) (h : Burst → Burst) : (d.modBurst n h).judging = d.judging := rfl
@[simp] theorem Dev.modBurst_freeCtr (d : Dev) (n : Nat) (h : Burst → Burst) : (d.modBurst n h).freeCtr = d.freeCtr := rfl
@[simp] theorem Dev.modBurst_ctx (d : Dev) (n : Nat) (h : Burst → Burst) (k : Nat) : (d.modBurst n h).ctx k = d.ctx k := rfl
@[simp] theorem Dev.modBurst_chan (d : Dev) (n : Nat) (h : Burst → Burst) (k : Nat) : (d.modBurst n h).chan k = d.chan k := rfl
@[simp] theorem Dev.modBurst_wfm (d : Dev) (n : Nat) (h : Burst → Burst) (k : Nat) : (d.modBurst n h).wfm k = d.wfm k := rfl
@[simp] theorem Dev.modBurst_cap (d : Dev) (n : Nat) (h : Burst → Burst) (k : Nat) : (d.modBurst n h).cap k = d.cap k := rfl
@[simp] theorem Dev.modBurst_tme (d : Dev) (n : Nat) (h : Burst → Burst) (k : Nat) : (d.modBurst n h).tme k = d.tme k := rfl
@[simp] theorem Dev.modBurst_mill (d : Dev) (n : Nat) (h : Burst → Burst) (k : Nat) : (d.modBurst n h).mill k = d.mill k := rfl
@[simp] theorem Dev.modBurst_dma (d : Dev) (n : Nat) (h : Burst → Burst) (k : Nat) : (d.modBurst n h).dma k = d.dma k := rfl
@[simp] theorem Dev.modBurst_rast (d : Dev) (n : Nat) (h : Burst → Burst) (k : Nat) : (d.modBurst n h).rast k = d.rast k := rfl
@[simp] theorem Dev.modBurst_box (d : Dev) (n : Nat) (h : Burst → Burst) (k : Nat) : (d.modBurst n h).box k = d.box k := rfl
@[simp] theorem Dev.modBurst_ustore (d : Dev) (n : Nat) (h : Burst → Burst) (k : Nat) : (d.modBurst n h).ustore k = d.ustore k := rfl
@[simp] theorem Dev.modBurst_unit (d : Dev) (n : Nat) (h : Burst → Burst) (k : Nat) : (d.modBurst n h).unit k = d.unit k := rfl
@[simp] theorem Dev.modBurst_rd (d : Dev) (n : Nat) (h : Burst → Burst) (g : Fld) : (d.modBurst n h).rd g = d.rd g := rfl
@[simp] theorem Dev.modBurst_on (d : Dev) (n : Nat) (h : Burst → Burst) (g : Fld) : (d.modBurst n h).on g = d.on g := rfl
@[simp] theorem Dev.modBurst_byte (d : Dev) (n : Nat) (h : Burst → Burst) (k : Nat) : (d.modBurst n h).byte k = d.byte k := rfl
@[simp] theorem Dev.modBurst_site (d : Dev) (n : Nat) (h : Burst → Burst) (k : Nat) : (d.modBurst n h).site k = d.site k := rfl
@[simp] theorem Dev.modBurst_owns (d : Dev) (n : Nat) (h : Burst → Burst) (m : Master) (k : Nat) : (d.modBurst n h).owns m k = d.owns m k := rfl
@[simp] theorem Dev.modBurst_inSite (d : Dev) (n : Nat) (h : Burst → Burst) (k i : Nat) : (d.modBurst n h).inSite k i = d.inSite k i := rfl

/-! setWfm. -/

@[simp] theorem Dev.setWfm_regs (d : Dev) (n : Nat) (x : Wfm) : (d.setWfm n x).regs = d.regs := rfl
@[simp] theorem Dev.setWfm_units (d : Dev) (n : Nat) (x : Wfm) : (d.setWfm n x).units = d.units := rfl
@[simp] theorem Dev.setWfm_inUse (d : Dev) (n : Nat) (x : Wfm) : (d.setWfm n x).inUse = d.inUse := rfl
@[simp] theorem Dev.setWfm_waitGran (d : Dev) (n : Nat) (x : Wfm) : (d.setWfm n x).waitGran = d.waitGran := rfl
@[simp] theorem Dev.setWfm_waitBus (d : Dev) (n : Nat) (x : Wfm) : (d.setWfm n x).waitBus = d.waitBus := rfl
@[simp] theorem Dev.setWfm_serving (d : Dev) (n : Nat) (x : Wfm) : (d.setWfm n x).serving = d.serving := rfl
@[simp] theorem Dev.setWfm_ports (d : Dev) (n : Nat) (x : Wfm) : (d.setWfm n x).ports = d.ports := rfl
@[simp] theorem Dev.setWfm_gran (d : Dev) (n : Nat) (x : Wfm) : (d.setWfm n x).gran = d.gran := rfl
@[simp] theorem Dev.setWfm_ctxs (d : Dev) (n : Nat) (x : Wfm) : (d.setWfm n x).ctxs = d.ctxs := rfl
@[simp] theorem Dev.setWfm_sites (d : Dev) (n : Nat) (x : Wfm) : (d.setWfm n x).sites = d.sites := rfl
@[simp] theorem Dev.setWfm_chmap (d : Dev) (n : Nat) (x : Wfm) : (d.setWfm n x).chmap = d.chmap := rfl
@[simp] theorem Dev.setWfm_ctxCmd (d : Dev) (n : Nat) (x : Wfm) : (d.setWfm n x).ctxCmd = d.ctxCmd := rfl
@[simp] theorem Dev.setWfm_icache (d : Dev) (n : Nat) (x : Wfm) : (d.setWfm n x).icache = d.icache := rfl
@[simp] theorem Dev.setWfm_icacheBusy (d : Dev) (n : Nat) (x : Wfm) : (d.setWfm n x).icacheBusy = d.icacheBusy := rfl
@[simp] theorem Dev.setWfm_chans (d : Dev) (n : Nat) (x : Wfm) : (d.setWfm n x).chans = d.chans := rfl
@[simp] theorem Dev.setWfm_mons (d : Dev) (n : Nat) (x : Wfm) : (d.setWfm n x).mons = d.mons := rfl
@[simp] theorem Dev.setWfm_pats (d : Dev) (n : Nat) (x : Wfm) : (d.setWfm n x).pats = d.pats := rfl
@[simp] theorem Dev.setWfm_segw (d : Dev) (n : Nat) (x : Wfm) : (d.setWfm n x).segw = d.segw := rfl
@[simp] theorem Dev.setWfm_caps (d : Dev) (n : Nat) (x : Wfm) : (d.setWfm n x).caps = d.caps := rfl
@[simp] theorem Dev.setWfm_tmes (d : Dev) (n : Nat) (x : Wfm) : (d.setWfm n x).tmes = d.tmes := rfl
@[simp] theorem Dev.setWfm_mills (d : Dev) (n : Nat) (x : Wfm) : (d.setWfm n x).mills = d.mills := rfl
@[simp] theorem Dev.setWfm_rasts (d : Dev) (n : Nat) (x : Wfm) : (d.setWfm n x).rasts = d.rasts := rfl
@[simp] theorem Dev.setWfm_dmas (d : Dev) (n : Nat) (x : Wfm) : (d.setWfm n x).dmas = d.dmas := rfl
@[simp] theorem Dev.setWfm_pcie (d : Dev) (n : Nat) (x : Wfm) : (d.setWfm n x).pcie = d.pcie := rfl
@[simp] theorem Dev.setWfm_reed (d : Dev) (n : Nat) (x : Wfm) : (d.setWfm n x).reed = d.reed := rfl
@[simp] theorem Dev.setWfm_flash (d : Dev) (n : Nat) (x : Wfm) : (d.setWfm n x).flash = d.flash := rfl
@[simp] theorem Dev.setWfm_bp (d : Dev) (n : Nat) (x : Wfm) : (d.setWfm n x).bp = d.bp := rfl
@[simp] theorem Dev.setWfm_cal (d : Dev) (n : Nat) (x : Wfm) : (d.setWfm n x).cal = d.cal := rfl
@[simp] theorem Dev.setWfm_therm (d : Dev) (n : Nat) (x : Wfm) : (d.setWfm n x).therm = d.therm := rfl
@[simp] theorem Dev.setWfm_log (d : Dev) (n : Nat) (x : Wfm) : (d.setWfm n x).log = d.log := rfl
@[simp] theorem Dev.setWfm_ucode (d : Dev) (n : Nat) (x : Wfm) : (d.setWfm n x).ucode = d.ucode := rfl
@[simp] theorem Dev.setWfm_contain (d : Dev) (n : Nat) (x : Wfm) : (d.setWfm n x).contain = d.contain := rfl
@[simp] theorem Dev.setWfm_supply (d : Dev) (n : Nat) (x : Wfm) : (d.setWfm n x).supply = d.supply := rfl
@[simp] theorem Dev.setWfm_jtag (d : Dev) (n : Nat) (x : Wfm) : (d.setWfm n x).jtag = d.jtag := rfl
@[simp] theorem Dev.setWfm_boot (d : Dev) (n : Nat) (x : Wfm) : (d.setWfm n x).boot = d.boot := rfl
@[simp] theorem Dev.setWfm_evcRun (d : Dev) (n : Nat) (x : Wfm) : (d.setWfm n x).evcRun = d.evcRun := rfl
@[simp] theorem Dev.setWfm_judging (d : Dev) (n : Nat) (x : Wfm) : (d.setWfm n x).judging = d.judging := rfl
@[simp] theorem Dev.setWfm_freeCtr (d : Dev) (n : Nat) (x : Wfm) : (d.setWfm n x).freeCtr = d.freeCtr := rfl
@[simp] theorem Dev.setWfm_ctx (d : Dev) (n : Nat) (x : Wfm) (k : Nat) : (d.setWfm n x).ctx k = d.ctx k := rfl
@[simp] theorem Dev.setWfm_chan (d : Dev) (n : Nat) (x : Wfm) (k : Nat) : (d.setWfm n x).chan k = d.chan k := rfl
@[simp] theorem Dev.setWfm_pat (d : Dev) (n : Nat) (x : Wfm) (k : Nat) : (d.setWfm n x).pat k = d.pat k := rfl
@[simp] theorem Dev.setWfm_cap (d : Dev) (n : Nat) (x : Wfm) (k : Nat) : (d.setWfm n x).cap k = d.cap k := rfl
@[simp] theorem Dev.setWfm_tme (d : Dev) (n : Nat) (x : Wfm) (k : Nat) : (d.setWfm n x).tme k = d.tme k := rfl
@[simp] theorem Dev.setWfm_mill (d : Dev) (n : Nat) (x : Wfm) (k : Nat) : (d.setWfm n x).mill k = d.mill k := rfl
@[simp] theorem Dev.setWfm_dma (d : Dev) (n : Nat) (x : Wfm) (k : Nat) : (d.setWfm n x).dma k = d.dma k := rfl
@[simp] theorem Dev.setWfm_rast (d : Dev) (n : Nat) (x : Wfm) (k : Nat) : (d.setWfm n x).rast k = d.rast k := rfl
@[simp] theorem Dev.setWfm_box (d : Dev) (n : Nat) (x : Wfm) (k : Nat) : (d.setWfm n x).box k = d.box k := rfl
@[simp] theorem Dev.setWfm_ustore (d : Dev) (n : Nat) (x : Wfm) (k : Nat) : (d.setWfm n x).ustore k = d.ustore k := rfl
@[simp] theorem Dev.setWfm_unit (d : Dev) (n : Nat) (x : Wfm) (k : Nat) : (d.setWfm n x).unit k = d.unit k := rfl
@[simp] theorem Dev.setWfm_rd (d : Dev) (n : Nat) (x : Wfm) (g : Fld) : (d.setWfm n x).rd g = d.rd g := rfl
@[simp] theorem Dev.setWfm_on (d : Dev) (n : Nat) (x : Wfm) (g : Fld) : (d.setWfm n x).on g = d.on g := rfl
@[simp] theorem Dev.setWfm_byte (d : Dev) (n : Nat) (x : Wfm) (k : Nat) : (d.setWfm n x).byte k = d.byte k := rfl
@[simp] theorem Dev.setWfm_site (d : Dev) (n : Nat) (x : Wfm) (k : Nat) : (d.setWfm n x).site k = d.site k := rfl
@[simp] theorem Dev.setWfm_owns (d : Dev) (n : Nat) (x : Wfm) (m : Master) (k : Nat) : (d.setWfm n x).owns m k = d.owns m k := rfl
@[simp] theorem Dev.setWfm_inSite (d : Dev) (n : Nat) (x : Wfm) (k i : Nat) : (d.setWfm n x).inSite k i = d.inSite k i := rfl

/-! modWfm. -/

@[simp] theorem Dev.modWfm_regs (d : Dev) (n : Nat) (h : Wfm → Wfm) : (d.modWfm n h).regs = d.regs := rfl
@[simp] theorem Dev.modWfm_units (d : Dev) (n : Nat) (h : Wfm → Wfm) : (d.modWfm n h).units = d.units := rfl
@[simp] theorem Dev.modWfm_inUse (d : Dev) (n : Nat) (h : Wfm → Wfm) : (d.modWfm n h).inUse = d.inUse := rfl
@[simp] theorem Dev.modWfm_waitGran (d : Dev) (n : Nat) (h : Wfm → Wfm) : (d.modWfm n h).waitGran = d.waitGran := rfl
@[simp] theorem Dev.modWfm_waitBus (d : Dev) (n : Nat) (h : Wfm → Wfm) : (d.modWfm n h).waitBus = d.waitBus := rfl
@[simp] theorem Dev.modWfm_serving (d : Dev) (n : Nat) (h : Wfm → Wfm) : (d.modWfm n h).serving = d.serving := rfl
@[simp] theorem Dev.modWfm_ports (d : Dev) (n : Nat) (h : Wfm → Wfm) : (d.modWfm n h).ports = d.ports := rfl
@[simp] theorem Dev.modWfm_gran (d : Dev) (n : Nat) (h : Wfm → Wfm) : (d.modWfm n h).gran = d.gran := rfl
@[simp] theorem Dev.modWfm_ctxs (d : Dev) (n : Nat) (h : Wfm → Wfm) : (d.modWfm n h).ctxs = d.ctxs := rfl
@[simp] theorem Dev.modWfm_sites (d : Dev) (n : Nat) (h : Wfm → Wfm) : (d.modWfm n h).sites = d.sites := rfl
@[simp] theorem Dev.modWfm_chmap (d : Dev) (n : Nat) (h : Wfm → Wfm) : (d.modWfm n h).chmap = d.chmap := rfl
@[simp] theorem Dev.modWfm_ctxCmd (d : Dev) (n : Nat) (h : Wfm → Wfm) : (d.modWfm n h).ctxCmd = d.ctxCmd := rfl
@[simp] theorem Dev.modWfm_icache (d : Dev) (n : Nat) (h : Wfm → Wfm) : (d.modWfm n h).icache = d.icache := rfl
@[simp] theorem Dev.modWfm_icacheBusy (d : Dev) (n : Nat) (h : Wfm → Wfm) : (d.modWfm n h).icacheBusy = d.icacheBusy := rfl
@[simp] theorem Dev.modWfm_chans (d : Dev) (n : Nat) (h : Wfm → Wfm) : (d.modWfm n h).chans = d.chans := rfl
@[simp] theorem Dev.modWfm_mons (d : Dev) (n : Nat) (h : Wfm → Wfm) : (d.modWfm n h).mons = d.mons := rfl
@[simp] theorem Dev.modWfm_pats (d : Dev) (n : Nat) (h : Wfm → Wfm) : (d.modWfm n h).pats = d.pats := rfl
@[simp] theorem Dev.modWfm_segw (d : Dev) (n : Nat) (h : Wfm → Wfm) : (d.modWfm n h).segw = d.segw := rfl
@[simp] theorem Dev.modWfm_caps (d : Dev) (n : Nat) (h : Wfm → Wfm) : (d.modWfm n h).caps = d.caps := rfl
@[simp] theorem Dev.modWfm_tmes (d : Dev) (n : Nat) (h : Wfm → Wfm) : (d.modWfm n h).tmes = d.tmes := rfl
@[simp] theorem Dev.modWfm_mills (d : Dev) (n : Nat) (h : Wfm → Wfm) : (d.modWfm n h).mills = d.mills := rfl
@[simp] theorem Dev.modWfm_rasts (d : Dev) (n : Nat) (h : Wfm → Wfm) : (d.modWfm n h).rasts = d.rasts := rfl
@[simp] theorem Dev.modWfm_dmas (d : Dev) (n : Nat) (h : Wfm → Wfm) : (d.modWfm n h).dmas = d.dmas := rfl
@[simp] theorem Dev.modWfm_pcie (d : Dev) (n : Nat) (h : Wfm → Wfm) : (d.modWfm n h).pcie = d.pcie := rfl
@[simp] theorem Dev.modWfm_reed (d : Dev) (n : Nat) (h : Wfm → Wfm) : (d.modWfm n h).reed = d.reed := rfl
@[simp] theorem Dev.modWfm_flash (d : Dev) (n : Nat) (h : Wfm → Wfm) : (d.modWfm n h).flash = d.flash := rfl
@[simp] theorem Dev.modWfm_bp (d : Dev) (n : Nat) (h : Wfm → Wfm) : (d.modWfm n h).bp = d.bp := rfl
@[simp] theorem Dev.modWfm_cal (d : Dev) (n : Nat) (h : Wfm → Wfm) : (d.modWfm n h).cal = d.cal := rfl
@[simp] theorem Dev.modWfm_therm (d : Dev) (n : Nat) (h : Wfm → Wfm) : (d.modWfm n h).therm = d.therm := rfl
@[simp] theorem Dev.modWfm_log (d : Dev) (n : Nat) (h : Wfm → Wfm) : (d.modWfm n h).log = d.log := rfl
@[simp] theorem Dev.modWfm_ucode (d : Dev) (n : Nat) (h : Wfm → Wfm) : (d.modWfm n h).ucode = d.ucode := rfl
@[simp] theorem Dev.modWfm_contain (d : Dev) (n : Nat) (h : Wfm → Wfm) : (d.modWfm n h).contain = d.contain := rfl
@[simp] theorem Dev.modWfm_supply (d : Dev) (n : Nat) (h : Wfm → Wfm) : (d.modWfm n h).supply = d.supply := rfl
@[simp] theorem Dev.modWfm_jtag (d : Dev) (n : Nat) (h : Wfm → Wfm) : (d.modWfm n h).jtag = d.jtag := rfl
@[simp] theorem Dev.modWfm_boot (d : Dev) (n : Nat) (h : Wfm → Wfm) : (d.modWfm n h).boot = d.boot := rfl
@[simp] theorem Dev.modWfm_evcRun (d : Dev) (n : Nat) (h : Wfm → Wfm) : (d.modWfm n h).evcRun = d.evcRun := rfl
@[simp] theorem Dev.modWfm_judging (d : Dev) (n : Nat) (h : Wfm → Wfm) : (d.modWfm n h).judging = d.judging := rfl
@[simp] theorem Dev.modWfm_freeCtr (d : Dev) (n : Nat) (h : Wfm → Wfm) : (d.modWfm n h).freeCtr = d.freeCtr := rfl
@[simp] theorem Dev.modWfm_ctx (d : Dev) (n : Nat) (h : Wfm → Wfm) (k : Nat) : (d.modWfm n h).ctx k = d.ctx k := rfl
@[simp] theorem Dev.modWfm_chan (d : Dev) (n : Nat) (h : Wfm → Wfm) (k : Nat) : (d.modWfm n h).chan k = d.chan k := rfl
@[simp] theorem Dev.modWfm_pat (d : Dev) (n : Nat) (h : Wfm → Wfm) (k : Nat) : (d.modWfm n h).pat k = d.pat k := rfl
@[simp] theorem Dev.modWfm_cap (d : Dev) (n : Nat) (h : Wfm → Wfm) (k : Nat) : (d.modWfm n h).cap k = d.cap k := rfl
@[simp] theorem Dev.modWfm_tme (d : Dev) (n : Nat) (h : Wfm → Wfm) (k : Nat) : (d.modWfm n h).tme k = d.tme k := rfl
@[simp] theorem Dev.modWfm_mill (d : Dev) (n : Nat) (h : Wfm → Wfm) (k : Nat) : (d.modWfm n h).mill k = d.mill k := rfl
@[simp] theorem Dev.modWfm_dma (d : Dev) (n : Nat) (h : Wfm → Wfm) (k : Nat) : (d.modWfm n h).dma k = d.dma k := rfl
@[simp] theorem Dev.modWfm_rast (d : Dev) (n : Nat) (h : Wfm → Wfm) (k : Nat) : (d.modWfm n h).rast k = d.rast k := rfl
@[simp] theorem Dev.modWfm_box (d : Dev) (n : Nat) (h : Wfm → Wfm) (k : Nat) : (d.modWfm n h).box k = d.box k := rfl
@[simp] theorem Dev.modWfm_ustore (d : Dev) (n : Nat) (h : Wfm → Wfm) (k : Nat) : (d.modWfm n h).ustore k = d.ustore k := rfl
@[simp] theorem Dev.modWfm_unit (d : Dev) (n : Nat) (h : Wfm → Wfm) (k : Nat) : (d.modWfm n h).unit k = d.unit k := rfl
@[simp] theorem Dev.modWfm_rd (d : Dev) (n : Nat) (h : Wfm → Wfm) (g : Fld) : (d.modWfm n h).rd g = d.rd g := rfl
@[simp] theorem Dev.modWfm_on (d : Dev) (n : Nat) (h : Wfm → Wfm) (g : Fld) : (d.modWfm n h).on g = d.on g := rfl
@[simp] theorem Dev.modWfm_byte (d : Dev) (n : Nat) (h : Wfm → Wfm) (k : Nat) : (d.modWfm n h).byte k = d.byte k := rfl
@[simp] theorem Dev.modWfm_site (d : Dev) (n : Nat) (h : Wfm → Wfm) (k : Nat) : (d.modWfm n h).site k = d.site k := rfl
@[simp] theorem Dev.modWfm_owns (d : Dev) (n : Nat) (h : Wfm → Wfm) (m : Master) (k : Nat) : (d.modWfm n h).owns m k = d.owns m k := rfl
@[simp] theorem Dev.modWfm_inSite (d : Dev) (n : Nat) (h : Wfm → Wfm) (k i : Nat) : (d.modWfm n h).inSite k i = d.inSite k i := rfl

/-! setCap. -/

@[simp] theorem Dev.setCap_regs (d : Dev) (n : Nat) (x : Cap) : (d.setCap n x).regs = d.regs := rfl
@[simp] theorem Dev.setCap_units (d : Dev) (n : Nat) (x : Cap) : (d.setCap n x).units = d.units := rfl
@[simp] theorem Dev.setCap_inUse (d : Dev) (n : Nat) (x : Cap) : (d.setCap n x).inUse = d.inUse := rfl
@[simp] theorem Dev.setCap_waitGran (d : Dev) (n : Nat) (x : Cap) : (d.setCap n x).waitGran = d.waitGran := rfl
@[simp] theorem Dev.setCap_waitBus (d : Dev) (n : Nat) (x : Cap) : (d.setCap n x).waitBus = d.waitBus := rfl
@[simp] theorem Dev.setCap_serving (d : Dev) (n : Nat) (x : Cap) : (d.setCap n x).serving = d.serving := rfl
@[simp] theorem Dev.setCap_ports (d : Dev) (n : Nat) (x : Cap) : (d.setCap n x).ports = d.ports := rfl
@[simp] theorem Dev.setCap_gran (d : Dev) (n : Nat) (x : Cap) : (d.setCap n x).gran = d.gran := rfl
@[simp] theorem Dev.setCap_ctxs (d : Dev) (n : Nat) (x : Cap) : (d.setCap n x).ctxs = d.ctxs := rfl
@[simp] theorem Dev.setCap_sites (d : Dev) (n : Nat) (x : Cap) : (d.setCap n x).sites = d.sites := rfl
@[simp] theorem Dev.setCap_chmap (d : Dev) (n : Nat) (x : Cap) : (d.setCap n x).chmap = d.chmap := rfl
@[simp] theorem Dev.setCap_ctxCmd (d : Dev) (n : Nat) (x : Cap) : (d.setCap n x).ctxCmd = d.ctxCmd := rfl
@[simp] theorem Dev.setCap_icache (d : Dev) (n : Nat) (x : Cap) : (d.setCap n x).icache = d.icache := rfl
@[simp] theorem Dev.setCap_icacheBusy (d : Dev) (n : Nat) (x : Cap) : (d.setCap n x).icacheBusy = d.icacheBusy := rfl
@[simp] theorem Dev.setCap_chans (d : Dev) (n : Nat) (x : Cap) : (d.setCap n x).chans = d.chans := rfl
@[simp] theorem Dev.setCap_mons (d : Dev) (n : Nat) (x : Cap) : (d.setCap n x).mons = d.mons := rfl
@[simp] theorem Dev.setCap_pats (d : Dev) (n : Nat) (x : Cap) : (d.setCap n x).pats = d.pats := rfl
@[simp] theorem Dev.setCap_segw (d : Dev) (n : Nat) (x : Cap) : (d.setCap n x).segw = d.segw := rfl
@[simp] theorem Dev.setCap_wfms (d : Dev) (n : Nat) (x : Cap) : (d.setCap n x).wfms = d.wfms := rfl
@[simp] theorem Dev.setCap_tmes (d : Dev) (n : Nat) (x : Cap) : (d.setCap n x).tmes = d.tmes := rfl
@[simp] theorem Dev.setCap_mills (d : Dev) (n : Nat) (x : Cap) : (d.setCap n x).mills = d.mills := rfl
@[simp] theorem Dev.setCap_rasts (d : Dev) (n : Nat) (x : Cap) : (d.setCap n x).rasts = d.rasts := rfl
@[simp] theorem Dev.setCap_dmas (d : Dev) (n : Nat) (x : Cap) : (d.setCap n x).dmas = d.dmas := rfl
@[simp] theorem Dev.setCap_pcie (d : Dev) (n : Nat) (x : Cap) : (d.setCap n x).pcie = d.pcie := rfl
@[simp] theorem Dev.setCap_reed (d : Dev) (n : Nat) (x : Cap) : (d.setCap n x).reed = d.reed := rfl
@[simp] theorem Dev.setCap_flash (d : Dev) (n : Nat) (x : Cap) : (d.setCap n x).flash = d.flash := rfl
@[simp] theorem Dev.setCap_bp (d : Dev) (n : Nat) (x : Cap) : (d.setCap n x).bp = d.bp := rfl
@[simp] theorem Dev.setCap_cal (d : Dev) (n : Nat) (x : Cap) : (d.setCap n x).cal = d.cal := rfl
@[simp] theorem Dev.setCap_therm (d : Dev) (n : Nat) (x : Cap) : (d.setCap n x).therm = d.therm := rfl
@[simp] theorem Dev.setCap_log (d : Dev) (n : Nat) (x : Cap) : (d.setCap n x).log = d.log := rfl
@[simp] theorem Dev.setCap_ucode (d : Dev) (n : Nat) (x : Cap) : (d.setCap n x).ucode = d.ucode := rfl
@[simp] theorem Dev.setCap_contain (d : Dev) (n : Nat) (x : Cap) : (d.setCap n x).contain = d.contain := rfl
@[simp] theorem Dev.setCap_supply (d : Dev) (n : Nat) (x : Cap) : (d.setCap n x).supply = d.supply := rfl
@[simp] theorem Dev.setCap_jtag (d : Dev) (n : Nat) (x : Cap) : (d.setCap n x).jtag = d.jtag := rfl
@[simp] theorem Dev.setCap_boot (d : Dev) (n : Nat) (x : Cap) : (d.setCap n x).boot = d.boot := rfl
@[simp] theorem Dev.setCap_evcRun (d : Dev) (n : Nat) (x : Cap) : (d.setCap n x).evcRun = d.evcRun := rfl
@[simp] theorem Dev.setCap_judging (d : Dev) (n : Nat) (x : Cap) : (d.setCap n x).judging = d.judging := rfl
@[simp] theorem Dev.setCap_freeCtr (d : Dev) (n : Nat) (x : Cap) : (d.setCap n x).freeCtr = d.freeCtr := rfl
@[simp] theorem Dev.setCap_ctx (d : Dev) (n : Nat) (x : Cap) (k : Nat) : (d.setCap n x).ctx k = d.ctx k := rfl
@[simp] theorem Dev.setCap_chan (d : Dev) (n : Nat) (x : Cap) (k : Nat) : (d.setCap n x).chan k = d.chan k := rfl
@[simp] theorem Dev.setCap_pat (d : Dev) (n : Nat) (x : Cap) (k : Nat) : (d.setCap n x).pat k = d.pat k := rfl
@[simp] theorem Dev.setCap_wfm (d : Dev) (n : Nat) (x : Cap) (k : Nat) : (d.setCap n x).wfm k = d.wfm k := rfl
@[simp] theorem Dev.setCap_tme (d : Dev) (n : Nat) (x : Cap) (k : Nat) : (d.setCap n x).tme k = d.tme k := rfl
@[simp] theorem Dev.setCap_mill (d : Dev) (n : Nat) (x : Cap) (k : Nat) : (d.setCap n x).mill k = d.mill k := rfl
@[simp] theorem Dev.setCap_dma (d : Dev) (n : Nat) (x : Cap) (k : Nat) : (d.setCap n x).dma k = d.dma k := rfl
@[simp] theorem Dev.setCap_rast (d : Dev) (n : Nat) (x : Cap) (k : Nat) : (d.setCap n x).rast k = d.rast k := rfl
@[simp] theorem Dev.setCap_box (d : Dev) (n : Nat) (x : Cap) (k : Nat) : (d.setCap n x).box k = d.box k := rfl
@[simp] theorem Dev.setCap_ustore (d : Dev) (n : Nat) (x : Cap) (k : Nat) : (d.setCap n x).ustore k = d.ustore k := rfl
@[simp] theorem Dev.setCap_unit (d : Dev) (n : Nat) (x : Cap) (k : Nat) : (d.setCap n x).unit k = d.unit k := rfl
@[simp] theorem Dev.setCap_rd (d : Dev) (n : Nat) (x : Cap) (g : Fld) : (d.setCap n x).rd g = d.rd g := rfl
@[simp] theorem Dev.setCap_on (d : Dev) (n : Nat) (x : Cap) (g : Fld) : (d.setCap n x).on g = d.on g := rfl
@[simp] theorem Dev.setCap_byte (d : Dev) (n : Nat) (x : Cap) (k : Nat) : (d.setCap n x).byte k = d.byte k := rfl
@[simp] theorem Dev.setCap_site (d : Dev) (n : Nat) (x : Cap) (k : Nat) : (d.setCap n x).site k = d.site k := rfl
@[simp] theorem Dev.setCap_owns (d : Dev) (n : Nat) (x : Cap) (m : Master) (k : Nat) : (d.setCap n x).owns m k = d.owns m k := rfl
@[simp] theorem Dev.setCap_inSite (d : Dev) (n : Nat) (x : Cap) (k i : Nat) : (d.setCap n x).inSite k i = d.inSite k i := rfl

/-! modCap. -/

@[simp] theorem Dev.modCap_regs (d : Dev) (n : Nat) (h : Cap → Cap) : (d.modCap n h).regs = d.regs := rfl
@[simp] theorem Dev.modCap_units (d : Dev) (n : Nat) (h : Cap → Cap) : (d.modCap n h).units = d.units := rfl
@[simp] theorem Dev.modCap_inUse (d : Dev) (n : Nat) (h : Cap → Cap) : (d.modCap n h).inUse = d.inUse := rfl
@[simp] theorem Dev.modCap_waitGran (d : Dev) (n : Nat) (h : Cap → Cap) : (d.modCap n h).waitGran = d.waitGran := rfl
@[simp] theorem Dev.modCap_waitBus (d : Dev) (n : Nat) (h : Cap → Cap) : (d.modCap n h).waitBus = d.waitBus := rfl
@[simp] theorem Dev.modCap_serving (d : Dev) (n : Nat) (h : Cap → Cap) : (d.modCap n h).serving = d.serving := rfl
@[simp] theorem Dev.modCap_ports (d : Dev) (n : Nat) (h : Cap → Cap) : (d.modCap n h).ports = d.ports := rfl
@[simp] theorem Dev.modCap_gran (d : Dev) (n : Nat) (h : Cap → Cap) : (d.modCap n h).gran = d.gran := rfl
@[simp] theorem Dev.modCap_ctxs (d : Dev) (n : Nat) (h : Cap → Cap) : (d.modCap n h).ctxs = d.ctxs := rfl
@[simp] theorem Dev.modCap_sites (d : Dev) (n : Nat) (h : Cap → Cap) : (d.modCap n h).sites = d.sites := rfl
@[simp] theorem Dev.modCap_chmap (d : Dev) (n : Nat) (h : Cap → Cap) : (d.modCap n h).chmap = d.chmap := rfl
@[simp] theorem Dev.modCap_ctxCmd (d : Dev) (n : Nat) (h : Cap → Cap) : (d.modCap n h).ctxCmd = d.ctxCmd := rfl
@[simp] theorem Dev.modCap_icache (d : Dev) (n : Nat) (h : Cap → Cap) : (d.modCap n h).icache = d.icache := rfl
@[simp] theorem Dev.modCap_icacheBusy (d : Dev) (n : Nat) (h : Cap → Cap) : (d.modCap n h).icacheBusy = d.icacheBusy := rfl
@[simp] theorem Dev.modCap_chans (d : Dev) (n : Nat) (h : Cap → Cap) : (d.modCap n h).chans = d.chans := rfl
@[simp] theorem Dev.modCap_mons (d : Dev) (n : Nat) (h : Cap → Cap) : (d.modCap n h).mons = d.mons := rfl
@[simp] theorem Dev.modCap_pats (d : Dev) (n : Nat) (h : Cap → Cap) : (d.modCap n h).pats = d.pats := rfl
@[simp] theorem Dev.modCap_segw (d : Dev) (n : Nat) (h : Cap → Cap) : (d.modCap n h).segw = d.segw := rfl
@[simp] theorem Dev.modCap_wfms (d : Dev) (n : Nat) (h : Cap → Cap) : (d.modCap n h).wfms = d.wfms := rfl
@[simp] theorem Dev.modCap_tmes (d : Dev) (n : Nat) (h : Cap → Cap) : (d.modCap n h).tmes = d.tmes := rfl
@[simp] theorem Dev.modCap_mills (d : Dev) (n : Nat) (h : Cap → Cap) : (d.modCap n h).mills = d.mills := rfl
@[simp] theorem Dev.modCap_rasts (d : Dev) (n : Nat) (h : Cap → Cap) : (d.modCap n h).rasts = d.rasts := rfl
@[simp] theorem Dev.modCap_dmas (d : Dev) (n : Nat) (h : Cap → Cap) : (d.modCap n h).dmas = d.dmas := rfl
@[simp] theorem Dev.modCap_pcie (d : Dev) (n : Nat) (h : Cap → Cap) : (d.modCap n h).pcie = d.pcie := rfl
@[simp] theorem Dev.modCap_reed (d : Dev) (n : Nat) (h : Cap → Cap) : (d.modCap n h).reed = d.reed := rfl
@[simp] theorem Dev.modCap_flash (d : Dev) (n : Nat) (h : Cap → Cap) : (d.modCap n h).flash = d.flash := rfl
@[simp] theorem Dev.modCap_bp (d : Dev) (n : Nat) (h : Cap → Cap) : (d.modCap n h).bp = d.bp := rfl
@[simp] theorem Dev.modCap_cal (d : Dev) (n : Nat) (h : Cap → Cap) : (d.modCap n h).cal = d.cal := rfl
@[simp] theorem Dev.modCap_therm (d : Dev) (n : Nat) (h : Cap → Cap) : (d.modCap n h).therm = d.therm := rfl
@[simp] theorem Dev.modCap_log (d : Dev) (n : Nat) (h : Cap → Cap) : (d.modCap n h).log = d.log := rfl
@[simp] theorem Dev.modCap_ucode (d : Dev) (n : Nat) (h : Cap → Cap) : (d.modCap n h).ucode = d.ucode := rfl
@[simp] theorem Dev.modCap_contain (d : Dev) (n : Nat) (h : Cap → Cap) : (d.modCap n h).contain = d.contain := rfl
@[simp] theorem Dev.modCap_supply (d : Dev) (n : Nat) (h : Cap → Cap) : (d.modCap n h).supply = d.supply := rfl
@[simp] theorem Dev.modCap_jtag (d : Dev) (n : Nat) (h : Cap → Cap) : (d.modCap n h).jtag = d.jtag := rfl
@[simp] theorem Dev.modCap_boot (d : Dev) (n : Nat) (h : Cap → Cap) : (d.modCap n h).boot = d.boot := rfl
@[simp] theorem Dev.modCap_evcRun (d : Dev) (n : Nat) (h : Cap → Cap) : (d.modCap n h).evcRun = d.evcRun := rfl
@[simp] theorem Dev.modCap_judging (d : Dev) (n : Nat) (h : Cap → Cap) : (d.modCap n h).judging = d.judging := rfl
@[simp] theorem Dev.modCap_freeCtr (d : Dev) (n : Nat) (h : Cap → Cap) : (d.modCap n h).freeCtr = d.freeCtr := rfl
@[simp] theorem Dev.modCap_ctx (d : Dev) (n : Nat) (h : Cap → Cap) (k : Nat) : (d.modCap n h).ctx k = d.ctx k := rfl
@[simp] theorem Dev.modCap_chan (d : Dev) (n : Nat) (h : Cap → Cap) (k : Nat) : (d.modCap n h).chan k = d.chan k := rfl
@[simp] theorem Dev.modCap_pat (d : Dev) (n : Nat) (h : Cap → Cap) (k : Nat) : (d.modCap n h).pat k = d.pat k := rfl
@[simp] theorem Dev.modCap_wfm (d : Dev) (n : Nat) (h : Cap → Cap) (k : Nat) : (d.modCap n h).wfm k = d.wfm k := rfl
@[simp] theorem Dev.modCap_tme (d : Dev) (n : Nat) (h : Cap → Cap) (k : Nat) : (d.modCap n h).tme k = d.tme k := rfl
@[simp] theorem Dev.modCap_mill (d : Dev) (n : Nat) (h : Cap → Cap) (k : Nat) : (d.modCap n h).mill k = d.mill k := rfl
@[simp] theorem Dev.modCap_dma (d : Dev) (n : Nat) (h : Cap → Cap) (k : Nat) : (d.modCap n h).dma k = d.dma k := rfl
@[simp] theorem Dev.modCap_rast (d : Dev) (n : Nat) (h : Cap → Cap) (k : Nat) : (d.modCap n h).rast k = d.rast k := rfl
@[simp] theorem Dev.modCap_box (d : Dev) (n : Nat) (h : Cap → Cap) (k : Nat) : (d.modCap n h).box k = d.box k := rfl
@[simp] theorem Dev.modCap_ustore (d : Dev) (n : Nat) (h : Cap → Cap) (k : Nat) : (d.modCap n h).ustore k = d.ustore k := rfl
@[simp] theorem Dev.modCap_unit (d : Dev) (n : Nat) (h : Cap → Cap) (k : Nat) : (d.modCap n h).unit k = d.unit k := rfl
@[simp] theorem Dev.modCap_rd (d : Dev) (n : Nat) (h : Cap → Cap) (g : Fld) : (d.modCap n h).rd g = d.rd g := rfl
@[simp] theorem Dev.modCap_on (d : Dev) (n : Nat) (h : Cap → Cap) (g : Fld) : (d.modCap n h).on g = d.on g := rfl
@[simp] theorem Dev.modCap_byte (d : Dev) (n : Nat) (h : Cap → Cap) (k : Nat) : (d.modCap n h).byte k = d.byte k := rfl
@[simp] theorem Dev.modCap_site (d : Dev) (n : Nat) (h : Cap → Cap) (k : Nat) : (d.modCap n h).site k = d.site k := rfl
@[simp] theorem Dev.modCap_owns (d : Dev) (n : Nat) (h : Cap → Cap) (m : Master) (k : Nat) : (d.modCap n h).owns m k = d.owns m k := rfl
@[simp] theorem Dev.modCap_inSite (d : Dev) (n : Nat) (h : Cap → Cap) (k i : Nat) : (d.modCap n h).inSite k i = d.inSite k i := rfl

/-! setTme. -/

@[simp] theorem Dev.setTme_regs (d : Dev) (n : Nat) (x : Tme) : (d.setTme n x).regs = d.regs := rfl
@[simp] theorem Dev.setTme_units (d : Dev) (n : Nat) (x : Tme) : (d.setTme n x).units = d.units := rfl
@[simp] theorem Dev.setTme_inUse (d : Dev) (n : Nat) (x : Tme) : (d.setTme n x).inUse = d.inUse := rfl
@[simp] theorem Dev.setTme_waitGran (d : Dev) (n : Nat) (x : Tme) : (d.setTme n x).waitGran = d.waitGran := rfl
@[simp] theorem Dev.setTme_waitBus (d : Dev) (n : Nat) (x : Tme) : (d.setTme n x).waitBus = d.waitBus := rfl
@[simp] theorem Dev.setTme_serving (d : Dev) (n : Nat) (x : Tme) : (d.setTme n x).serving = d.serving := rfl
@[simp] theorem Dev.setTme_ports (d : Dev) (n : Nat) (x : Tme) : (d.setTme n x).ports = d.ports := rfl
@[simp] theorem Dev.setTme_gran (d : Dev) (n : Nat) (x : Tme) : (d.setTme n x).gran = d.gran := rfl
@[simp] theorem Dev.setTme_ctxs (d : Dev) (n : Nat) (x : Tme) : (d.setTme n x).ctxs = d.ctxs := rfl
@[simp] theorem Dev.setTme_sites (d : Dev) (n : Nat) (x : Tme) : (d.setTme n x).sites = d.sites := rfl
@[simp] theorem Dev.setTme_chmap (d : Dev) (n : Nat) (x : Tme) : (d.setTme n x).chmap = d.chmap := rfl
@[simp] theorem Dev.setTme_ctxCmd (d : Dev) (n : Nat) (x : Tme) : (d.setTme n x).ctxCmd = d.ctxCmd := rfl
@[simp] theorem Dev.setTme_icache (d : Dev) (n : Nat) (x : Tme) : (d.setTme n x).icache = d.icache := rfl
@[simp] theorem Dev.setTme_icacheBusy (d : Dev) (n : Nat) (x : Tme) : (d.setTme n x).icacheBusy = d.icacheBusy := rfl
@[simp] theorem Dev.setTme_chans (d : Dev) (n : Nat) (x : Tme) : (d.setTme n x).chans = d.chans := rfl
@[simp] theorem Dev.setTme_mons (d : Dev) (n : Nat) (x : Tme) : (d.setTme n x).mons = d.mons := rfl
@[simp] theorem Dev.setTme_pats (d : Dev) (n : Nat) (x : Tme) : (d.setTme n x).pats = d.pats := rfl
@[simp] theorem Dev.setTme_segw (d : Dev) (n : Nat) (x : Tme) : (d.setTme n x).segw = d.segw := rfl
@[simp] theorem Dev.setTme_wfms (d : Dev) (n : Nat) (x : Tme) : (d.setTme n x).wfms = d.wfms := rfl
@[simp] theorem Dev.setTme_caps (d : Dev) (n : Nat) (x : Tme) : (d.setTme n x).caps = d.caps := rfl
@[simp] theorem Dev.setTme_mills (d : Dev) (n : Nat) (x : Tme) : (d.setTme n x).mills = d.mills := rfl
@[simp] theorem Dev.setTme_rasts (d : Dev) (n : Nat) (x : Tme) : (d.setTme n x).rasts = d.rasts := rfl
@[simp] theorem Dev.setTme_dmas (d : Dev) (n : Nat) (x : Tme) : (d.setTme n x).dmas = d.dmas := rfl
@[simp] theorem Dev.setTme_pcie (d : Dev) (n : Nat) (x : Tme) : (d.setTme n x).pcie = d.pcie := rfl
@[simp] theorem Dev.setTme_reed (d : Dev) (n : Nat) (x : Tme) : (d.setTme n x).reed = d.reed := rfl
@[simp] theorem Dev.setTme_flash (d : Dev) (n : Nat) (x : Tme) : (d.setTme n x).flash = d.flash := rfl
@[simp] theorem Dev.setTme_bp (d : Dev) (n : Nat) (x : Tme) : (d.setTme n x).bp = d.bp := rfl
@[simp] theorem Dev.setTme_cal (d : Dev) (n : Nat) (x : Tme) : (d.setTme n x).cal = d.cal := rfl
@[simp] theorem Dev.setTme_therm (d : Dev) (n : Nat) (x : Tme) : (d.setTme n x).therm = d.therm := rfl
@[simp] theorem Dev.setTme_log (d : Dev) (n : Nat) (x : Tme) : (d.setTme n x).log = d.log := rfl
@[simp] theorem Dev.setTme_ucode (d : Dev) (n : Nat) (x : Tme) : (d.setTme n x).ucode = d.ucode := rfl
@[simp] theorem Dev.setTme_contain (d : Dev) (n : Nat) (x : Tme) : (d.setTme n x).contain = d.contain := rfl
@[simp] theorem Dev.setTme_supply (d : Dev) (n : Nat) (x : Tme) : (d.setTme n x).supply = d.supply := rfl
@[simp] theorem Dev.setTme_jtag (d : Dev) (n : Nat) (x : Tme) : (d.setTme n x).jtag = d.jtag := rfl
@[simp] theorem Dev.setTme_boot (d : Dev) (n : Nat) (x : Tme) : (d.setTme n x).boot = d.boot := rfl
@[simp] theorem Dev.setTme_evcRun (d : Dev) (n : Nat) (x : Tme) : (d.setTme n x).evcRun = d.evcRun := rfl
@[simp] theorem Dev.setTme_judging (d : Dev) (n : Nat) (x : Tme) : (d.setTme n x).judging = d.judging := rfl
@[simp] theorem Dev.setTme_freeCtr (d : Dev) (n : Nat) (x : Tme) : (d.setTme n x).freeCtr = d.freeCtr := rfl
@[simp] theorem Dev.setTme_ctx (d : Dev) (n : Nat) (x : Tme) (k : Nat) : (d.setTme n x).ctx k = d.ctx k := rfl
@[simp] theorem Dev.setTme_chan (d : Dev) (n : Nat) (x : Tme) (k : Nat) : (d.setTme n x).chan k = d.chan k := rfl
@[simp] theorem Dev.setTme_pat (d : Dev) (n : Nat) (x : Tme) (k : Nat) : (d.setTme n x).pat k = d.pat k := rfl
@[simp] theorem Dev.setTme_wfm (d : Dev) (n : Nat) (x : Tme) (k : Nat) : (d.setTme n x).wfm k = d.wfm k := rfl
@[simp] theorem Dev.setTme_cap (d : Dev) (n : Nat) (x : Tme) (k : Nat) : (d.setTme n x).cap k = d.cap k := rfl
@[simp] theorem Dev.setTme_mill (d : Dev) (n : Nat) (x : Tme) (k : Nat) : (d.setTme n x).mill k = d.mill k := rfl
@[simp] theorem Dev.setTme_dma (d : Dev) (n : Nat) (x : Tme) (k : Nat) : (d.setTme n x).dma k = d.dma k := rfl
@[simp] theorem Dev.setTme_rast (d : Dev) (n : Nat) (x : Tme) (k : Nat) : (d.setTme n x).rast k = d.rast k := rfl
@[simp] theorem Dev.setTme_box (d : Dev) (n : Nat) (x : Tme) (k : Nat) : (d.setTme n x).box k = d.box k := rfl
@[simp] theorem Dev.setTme_ustore (d : Dev) (n : Nat) (x : Tme) (k : Nat) : (d.setTme n x).ustore k = d.ustore k := rfl
@[simp] theorem Dev.setTme_unit (d : Dev) (n : Nat) (x : Tme) (k : Nat) : (d.setTme n x).unit k = d.unit k := rfl
@[simp] theorem Dev.setTme_rd (d : Dev) (n : Nat) (x : Tme) (g : Fld) : (d.setTme n x).rd g = d.rd g := rfl
@[simp] theorem Dev.setTme_on (d : Dev) (n : Nat) (x : Tme) (g : Fld) : (d.setTme n x).on g = d.on g := rfl
@[simp] theorem Dev.setTme_byte (d : Dev) (n : Nat) (x : Tme) (k : Nat) : (d.setTme n x).byte k = d.byte k := rfl
@[simp] theorem Dev.setTme_site (d : Dev) (n : Nat) (x : Tme) (k : Nat) : (d.setTme n x).site k = d.site k := rfl
@[simp] theorem Dev.setTme_owns (d : Dev) (n : Nat) (x : Tme) (m : Master) (k : Nat) : (d.setTme n x).owns m k = d.owns m k := rfl
@[simp] theorem Dev.setTme_inSite (d : Dev) (n : Nat) (x : Tme) (k i : Nat) : (d.setTme n x).inSite k i = d.inSite k i := rfl

/-! modTme. -/

@[simp] theorem Dev.modTme_regs (d : Dev) (n : Nat) (h : Tme → Tme) : (d.modTme n h).regs = d.regs := rfl
@[simp] theorem Dev.modTme_units (d : Dev) (n : Nat) (h : Tme → Tme) : (d.modTme n h).units = d.units := rfl
@[simp] theorem Dev.modTme_inUse (d : Dev) (n : Nat) (h : Tme → Tme) : (d.modTme n h).inUse = d.inUse := rfl
@[simp] theorem Dev.modTme_waitGran (d : Dev) (n : Nat) (h : Tme → Tme) : (d.modTme n h).waitGran = d.waitGran := rfl
@[simp] theorem Dev.modTme_waitBus (d : Dev) (n : Nat) (h : Tme → Tme) : (d.modTme n h).waitBus = d.waitBus := rfl
@[simp] theorem Dev.modTme_serving (d : Dev) (n : Nat) (h : Tme → Tme) : (d.modTme n h).serving = d.serving := rfl
@[simp] theorem Dev.modTme_ports (d : Dev) (n : Nat) (h : Tme → Tme) : (d.modTme n h).ports = d.ports := rfl
@[simp] theorem Dev.modTme_gran (d : Dev) (n : Nat) (h : Tme → Tme) : (d.modTme n h).gran = d.gran := rfl
@[simp] theorem Dev.modTme_ctxs (d : Dev) (n : Nat) (h : Tme → Tme) : (d.modTme n h).ctxs = d.ctxs := rfl
@[simp] theorem Dev.modTme_sites (d : Dev) (n : Nat) (h : Tme → Tme) : (d.modTme n h).sites = d.sites := rfl
@[simp] theorem Dev.modTme_chmap (d : Dev) (n : Nat) (h : Tme → Tme) : (d.modTme n h).chmap = d.chmap := rfl
@[simp] theorem Dev.modTme_ctxCmd (d : Dev) (n : Nat) (h : Tme → Tme) : (d.modTme n h).ctxCmd = d.ctxCmd := rfl
@[simp] theorem Dev.modTme_icache (d : Dev) (n : Nat) (h : Tme → Tme) : (d.modTme n h).icache = d.icache := rfl
@[simp] theorem Dev.modTme_icacheBusy (d : Dev) (n : Nat) (h : Tme → Tme) : (d.modTme n h).icacheBusy = d.icacheBusy := rfl
@[simp] theorem Dev.modTme_chans (d : Dev) (n : Nat) (h : Tme → Tme) : (d.modTme n h).chans = d.chans := rfl
@[simp] theorem Dev.modTme_mons (d : Dev) (n : Nat) (h : Tme → Tme) : (d.modTme n h).mons = d.mons := rfl
@[simp] theorem Dev.modTme_pats (d : Dev) (n : Nat) (h : Tme → Tme) : (d.modTme n h).pats = d.pats := rfl
@[simp] theorem Dev.modTme_segw (d : Dev) (n : Nat) (h : Tme → Tme) : (d.modTme n h).segw = d.segw := rfl
@[simp] theorem Dev.modTme_wfms (d : Dev) (n : Nat) (h : Tme → Tme) : (d.modTme n h).wfms = d.wfms := rfl
@[simp] theorem Dev.modTme_caps (d : Dev) (n : Nat) (h : Tme → Tme) : (d.modTme n h).caps = d.caps := rfl
@[simp] theorem Dev.modTme_mills (d : Dev) (n : Nat) (h : Tme → Tme) : (d.modTme n h).mills = d.mills := rfl
@[simp] theorem Dev.modTme_rasts (d : Dev) (n : Nat) (h : Tme → Tme) : (d.modTme n h).rasts = d.rasts := rfl
@[simp] theorem Dev.modTme_dmas (d : Dev) (n : Nat) (h : Tme → Tme) : (d.modTme n h).dmas = d.dmas := rfl
@[simp] theorem Dev.modTme_pcie (d : Dev) (n : Nat) (h : Tme → Tme) : (d.modTme n h).pcie = d.pcie := rfl
@[simp] theorem Dev.modTme_reed (d : Dev) (n : Nat) (h : Tme → Tme) : (d.modTme n h).reed = d.reed := rfl
@[simp] theorem Dev.modTme_flash (d : Dev) (n : Nat) (h : Tme → Tme) : (d.modTme n h).flash = d.flash := rfl
@[simp] theorem Dev.modTme_bp (d : Dev) (n : Nat) (h : Tme → Tme) : (d.modTme n h).bp = d.bp := rfl
@[simp] theorem Dev.modTme_cal (d : Dev) (n : Nat) (h : Tme → Tme) : (d.modTme n h).cal = d.cal := rfl
@[simp] theorem Dev.modTme_therm (d : Dev) (n : Nat) (h : Tme → Tme) : (d.modTme n h).therm = d.therm := rfl
@[simp] theorem Dev.modTme_log (d : Dev) (n : Nat) (h : Tme → Tme) : (d.modTme n h).log = d.log := rfl
@[simp] theorem Dev.modTme_ucode (d : Dev) (n : Nat) (h : Tme → Tme) : (d.modTme n h).ucode = d.ucode := rfl
@[simp] theorem Dev.modTme_contain (d : Dev) (n : Nat) (h : Tme → Tme) : (d.modTme n h).contain = d.contain := rfl
@[simp] theorem Dev.modTme_supply (d : Dev) (n : Nat) (h : Tme → Tme) : (d.modTme n h).supply = d.supply := rfl
@[simp] theorem Dev.modTme_jtag (d : Dev) (n : Nat) (h : Tme → Tme) : (d.modTme n h).jtag = d.jtag := rfl
@[simp] theorem Dev.modTme_boot (d : Dev) (n : Nat) (h : Tme → Tme) : (d.modTme n h).boot = d.boot := rfl
@[simp] theorem Dev.modTme_evcRun (d : Dev) (n : Nat) (h : Tme → Tme) : (d.modTme n h).evcRun = d.evcRun := rfl
@[simp] theorem Dev.modTme_judging (d : Dev) (n : Nat) (h : Tme → Tme) : (d.modTme n h).judging = d.judging := rfl
@[simp] theorem Dev.modTme_freeCtr (d : Dev) (n : Nat) (h : Tme → Tme) : (d.modTme n h).freeCtr = d.freeCtr := rfl
@[simp] theorem Dev.modTme_ctx (d : Dev) (n : Nat) (h : Tme → Tme) (k : Nat) : (d.modTme n h).ctx k = d.ctx k := rfl
@[simp] theorem Dev.modTme_chan (d : Dev) (n : Nat) (h : Tme → Tme) (k : Nat) : (d.modTme n h).chan k = d.chan k := rfl
@[simp] theorem Dev.modTme_pat (d : Dev) (n : Nat) (h : Tme → Tme) (k : Nat) : (d.modTme n h).pat k = d.pat k := rfl
@[simp] theorem Dev.modTme_wfm (d : Dev) (n : Nat) (h : Tme → Tme) (k : Nat) : (d.modTme n h).wfm k = d.wfm k := rfl
@[simp] theorem Dev.modTme_cap (d : Dev) (n : Nat) (h : Tme → Tme) (k : Nat) : (d.modTme n h).cap k = d.cap k := rfl
@[simp] theorem Dev.modTme_mill (d : Dev) (n : Nat) (h : Tme → Tme) (k : Nat) : (d.modTme n h).mill k = d.mill k := rfl
@[simp] theorem Dev.modTme_dma (d : Dev) (n : Nat) (h : Tme → Tme) (k : Nat) : (d.modTme n h).dma k = d.dma k := rfl
@[simp] theorem Dev.modTme_rast (d : Dev) (n : Nat) (h : Tme → Tme) (k : Nat) : (d.modTme n h).rast k = d.rast k := rfl
@[simp] theorem Dev.modTme_box (d : Dev) (n : Nat) (h : Tme → Tme) (k : Nat) : (d.modTme n h).box k = d.box k := rfl
@[simp] theorem Dev.modTme_ustore (d : Dev) (n : Nat) (h : Tme → Tme) (k : Nat) : (d.modTme n h).ustore k = d.ustore k := rfl
@[simp] theorem Dev.modTme_unit (d : Dev) (n : Nat) (h : Tme → Tme) (k : Nat) : (d.modTme n h).unit k = d.unit k := rfl
@[simp] theorem Dev.modTme_rd (d : Dev) (n : Nat) (h : Tme → Tme) (g : Fld) : (d.modTme n h).rd g = d.rd g := rfl
@[simp] theorem Dev.modTme_on (d : Dev) (n : Nat) (h : Tme → Tme) (g : Fld) : (d.modTme n h).on g = d.on g := rfl
@[simp] theorem Dev.modTme_byte (d : Dev) (n : Nat) (h : Tme → Tme) (k : Nat) : (d.modTme n h).byte k = d.byte k := rfl
@[simp] theorem Dev.modTme_site (d : Dev) (n : Nat) (h : Tme → Tme) (k : Nat) : (d.modTme n h).site k = d.site k := rfl
@[simp] theorem Dev.modTme_owns (d : Dev) (n : Nat) (h : Tme → Tme) (m : Master) (k : Nat) : (d.modTme n h).owns m k = d.owns m k := rfl
@[simp] theorem Dev.modTme_inSite (d : Dev) (n : Nat) (h : Tme → Tme) (k i : Nat) : (d.modTme n h).inSite k i = d.inSite k i := rfl

/-! setMill. -/

@[simp] theorem Dev.setMill_regs (d : Dev) (n : Nat) (x : Mill) : (d.setMill n x).regs = d.regs := rfl
@[simp] theorem Dev.setMill_units (d : Dev) (n : Nat) (x : Mill) : (d.setMill n x).units = d.units := rfl
@[simp] theorem Dev.setMill_inUse (d : Dev) (n : Nat) (x : Mill) : (d.setMill n x).inUse = d.inUse := rfl
@[simp] theorem Dev.setMill_waitGran (d : Dev) (n : Nat) (x : Mill) : (d.setMill n x).waitGran = d.waitGran := rfl
@[simp] theorem Dev.setMill_waitBus (d : Dev) (n : Nat) (x : Mill) : (d.setMill n x).waitBus = d.waitBus := rfl
@[simp] theorem Dev.setMill_serving (d : Dev) (n : Nat) (x : Mill) : (d.setMill n x).serving = d.serving := rfl
@[simp] theorem Dev.setMill_ports (d : Dev) (n : Nat) (x : Mill) : (d.setMill n x).ports = d.ports := rfl
@[simp] theorem Dev.setMill_gran (d : Dev) (n : Nat) (x : Mill) : (d.setMill n x).gran = d.gran := rfl
@[simp] theorem Dev.setMill_ctxs (d : Dev) (n : Nat) (x : Mill) : (d.setMill n x).ctxs = d.ctxs := rfl
@[simp] theorem Dev.setMill_sites (d : Dev) (n : Nat) (x : Mill) : (d.setMill n x).sites = d.sites := rfl
@[simp] theorem Dev.setMill_chmap (d : Dev) (n : Nat) (x : Mill) : (d.setMill n x).chmap = d.chmap := rfl
@[simp] theorem Dev.setMill_ctxCmd (d : Dev) (n : Nat) (x : Mill) : (d.setMill n x).ctxCmd = d.ctxCmd := rfl
@[simp] theorem Dev.setMill_icache (d : Dev) (n : Nat) (x : Mill) : (d.setMill n x).icache = d.icache := rfl
@[simp] theorem Dev.setMill_icacheBusy (d : Dev) (n : Nat) (x : Mill) : (d.setMill n x).icacheBusy = d.icacheBusy := rfl
@[simp] theorem Dev.setMill_chans (d : Dev) (n : Nat) (x : Mill) : (d.setMill n x).chans = d.chans := rfl
@[simp] theorem Dev.setMill_mons (d : Dev) (n : Nat) (x : Mill) : (d.setMill n x).mons = d.mons := rfl
@[simp] theorem Dev.setMill_pats (d : Dev) (n : Nat) (x : Mill) : (d.setMill n x).pats = d.pats := rfl
@[simp] theorem Dev.setMill_segw (d : Dev) (n : Nat) (x : Mill) : (d.setMill n x).segw = d.segw := rfl
@[simp] theorem Dev.setMill_wfms (d : Dev) (n : Nat) (x : Mill) : (d.setMill n x).wfms = d.wfms := rfl
@[simp] theorem Dev.setMill_caps (d : Dev) (n : Nat) (x : Mill) : (d.setMill n x).caps = d.caps := rfl
@[simp] theorem Dev.setMill_tmes (d : Dev) (n : Nat) (x : Mill) : (d.setMill n x).tmes = d.tmes := rfl
@[simp] theorem Dev.setMill_rasts (d : Dev) (n : Nat) (x : Mill) : (d.setMill n x).rasts = d.rasts := rfl
@[simp] theorem Dev.setMill_dmas (d : Dev) (n : Nat) (x : Mill) : (d.setMill n x).dmas = d.dmas := rfl
@[simp] theorem Dev.setMill_pcie (d : Dev) (n : Nat) (x : Mill) : (d.setMill n x).pcie = d.pcie := rfl
@[simp] theorem Dev.setMill_reed (d : Dev) (n : Nat) (x : Mill) : (d.setMill n x).reed = d.reed := rfl
@[simp] theorem Dev.setMill_flash (d : Dev) (n : Nat) (x : Mill) : (d.setMill n x).flash = d.flash := rfl
@[simp] theorem Dev.setMill_bp (d : Dev) (n : Nat) (x : Mill) : (d.setMill n x).bp = d.bp := rfl
@[simp] theorem Dev.setMill_cal (d : Dev) (n : Nat) (x : Mill) : (d.setMill n x).cal = d.cal := rfl
@[simp] theorem Dev.setMill_therm (d : Dev) (n : Nat) (x : Mill) : (d.setMill n x).therm = d.therm := rfl
@[simp] theorem Dev.setMill_log (d : Dev) (n : Nat) (x : Mill) : (d.setMill n x).log = d.log := rfl
@[simp] theorem Dev.setMill_ucode (d : Dev) (n : Nat) (x : Mill) : (d.setMill n x).ucode = d.ucode := rfl
@[simp] theorem Dev.setMill_contain (d : Dev) (n : Nat) (x : Mill) : (d.setMill n x).contain = d.contain := rfl
@[simp] theorem Dev.setMill_supply (d : Dev) (n : Nat) (x : Mill) : (d.setMill n x).supply = d.supply := rfl
@[simp] theorem Dev.setMill_jtag (d : Dev) (n : Nat) (x : Mill) : (d.setMill n x).jtag = d.jtag := rfl
@[simp] theorem Dev.setMill_boot (d : Dev) (n : Nat) (x : Mill) : (d.setMill n x).boot = d.boot := rfl
@[simp] theorem Dev.setMill_evcRun (d : Dev) (n : Nat) (x : Mill) : (d.setMill n x).evcRun = d.evcRun := rfl
@[simp] theorem Dev.setMill_judging (d : Dev) (n : Nat) (x : Mill) : (d.setMill n x).judging = d.judging := rfl
@[simp] theorem Dev.setMill_freeCtr (d : Dev) (n : Nat) (x : Mill) : (d.setMill n x).freeCtr = d.freeCtr := rfl
@[simp] theorem Dev.setMill_ctx (d : Dev) (n : Nat) (x : Mill) (k : Nat) : (d.setMill n x).ctx k = d.ctx k := rfl
@[simp] theorem Dev.setMill_chan (d : Dev) (n : Nat) (x : Mill) (k : Nat) : (d.setMill n x).chan k = d.chan k := rfl
@[simp] theorem Dev.setMill_pat (d : Dev) (n : Nat) (x : Mill) (k : Nat) : (d.setMill n x).pat k = d.pat k := rfl
@[simp] theorem Dev.setMill_wfm (d : Dev) (n : Nat) (x : Mill) (k : Nat) : (d.setMill n x).wfm k = d.wfm k := rfl
@[simp] theorem Dev.setMill_cap (d : Dev) (n : Nat) (x : Mill) (k : Nat) : (d.setMill n x).cap k = d.cap k := rfl
@[simp] theorem Dev.setMill_tme (d : Dev) (n : Nat) (x : Mill) (k : Nat) : (d.setMill n x).tme k = d.tme k := rfl
@[simp] theorem Dev.setMill_dma (d : Dev) (n : Nat) (x : Mill) (k : Nat) : (d.setMill n x).dma k = d.dma k := rfl
@[simp] theorem Dev.setMill_rast (d : Dev) (n : Nat) (x : Mill) (k : Nat) : (d.setMill n x).rast k = d.rast k := rfl
@[simp] theorem Dev.setMill_box (d : Dev) (n : Nat) (x : Mill) (k : Nat) : (d.setMill n x).box k = d.box k := rfl
@[simp] theorem Dev.setMill_ustore (d : Dev) (n : Nat) (x : Mill) (k : Nat) : (d.setMill n x).ustore k = d.ustore k := rfl
@[simp] theorem Dev.setMill_unit (d : Dev) (n : Nat) (x : Mill) (k : Nat) : (d.setMill n x).unit k = d.unit k := rfl
@[simp] theorem Dev.setMill_rd (d : Dev) (n : Nat) (x : Mill) (g : Fld) : (d.setMill n x).rd g = d.rd g := rfl
@[simp] theorem Dev.setMill_on (d : Dev) (n : Nat) (x : Mill) (g : Fld) : (d.setMill n x).on g = d.on g := rfl
@[simp] theorem Dev.setMill_byte (d : Dev) (n : Nat) (x : Mill) (k : Nat) : (d.setMill n x).byte k = d.byte k := rfl
@[simp] theorem Dev.setMill_site (d : Dev) (n : Nat) (x : Mill) (k : Nat) : (d.setMill n x).site k = d.site k := rfl
@[simp] theorem Dev.setMill_owns (d : Dev) (n : Nat) (x : Mill) (m : Master) (k : Nat) : (d.setMill n x).owns m k = d.owns m k := rfl
@[simp] theorem Dev.setMill_inSite (d : Dev) (n : Nat) (x : Mill) (k i : Nat) : (d.setMill n x).inSite k i = d.inSite k i := rfl

/-! modMill. -/

@[simp] theorem Dev.modMill_regs (d : Dev) (n : Nat) (h : Mill → Mill) : (d.modMill n h).regs = d.regs := rfl
@[simp] theorem Dev.modMill_units (d : Dev) (n : Nat) (h : Mill → Mill) : (d.modMill n h).units = d.units := rfl
@[simp] theorem Dev.modMill_inUse (d : Dev) (n : Nat) (h : Mill → Mill) : (d.modMill n h).inUse = d.inUse := rfl
@[simp] theorem Dev.modMill_waitGran (d : Dev) (n : Nat) (h : Mill → Mill) : (d.modMill n h).waitGran = d.waitGran := rfl
@[simp] theorem Dev.modMill_waitBus (d : Dev) (n : Nat) (h : Mill → Mill) : (d.modMill n h).waitBus = d.waitBus := rfl
@[simp] theorem Dev.modMill_serving (d : Dev) (n : Nat) (h : Mill → Mill) : (d.modMill n h).serving = d.serving := rfl
@[simp] theorem Dev.modMill_ports (d : Dev) (n : Nat) (h : Mill → Mill) : (d.modMill n h).ports = d.ports := rfl
@[simp] theorem Dev.modMill_gran (d : Dev) (n : Nat) (h : Mill → Mill) : (d.modMill n h).gran = d.gran := rfl
@[simp] theorem Dev.modMill_ctxs (d : Dev) (n : Nat) (h : Mill → Mill) : (d.modMill n h).ctxs = d.ctxs := rfl
@[simp] theorem Dev.modMill_sites (d : Dev) (n : Nat) (h : Mill → Mill) : (d.modMill n h).sites = d.sites := rfl
@[simp] theorem Dev.modMill_chmap (d : Dev) (n : Nat) (h : Mill → Mill) : (d.modMill n h).chmap = d.chmap := rfl
@[simp] theorem Dev.modMill_ctxCmd (d : Dev) (n : Nat) (h : Mill → Mill) : (d.modMill n h).ctxCmd = d.ctxCmd := rfl
@[simp] theorem Dev.modMill_icache (d : Dev) (n : Nat) (h : Mill → Mill) : (d.modMill n h).icache = d.icache := rfl
@[simp] theorem Dev.modMill_icacheBusy (d : Dev) (n : Nat) (h : Mill → Mill) : (d.modMill n h).icacheBusy = d.icacheBusy := rfl
@[simp] theorem Dev.modMill_chans (d : Dev) (n : Nat) (h : Mill → Mill) : (d.modMill n h).chans = d.chans := rfl
@[simp] theorem Dev.modMill_mons (d : Dev) (n : Nat) (h : Mill → Mill) : (d.modMill n h).mons = d.mons := rfl
@[simp] theorem Dev.modMill_pats (d : Dev) (n : Nat) (h : Mill → Mill) : (d.modMill n h).pats = d.pats := rfl
@[simp] theorem Dev.modMill_segw (d : Dev) (n : Nat) (h : Mill → Mill) : (d.modMill n h).segw = d.segw := rfl
@[simp] theorem Dev.modMill_wfms (d : Dev) (n : Nat) (h : Mill → Mill) : (d.modMill n h).wfms = d.wfms := rfl
@[simp] theorem Dev.modMill_caps (d : Dev) (n : Nat) (h : Mill → Mill) : (d.modMill n h).caps = d.caps := rfl
@[simp] theorem Dev.modMill_tmes (d : Dev) (n : Nat) (h : Mill → Mill) : (d.modMill n h).tmes = d.tmes := rfl
@[simp] theorem Dev.modMill_rasts (d : Dev) (n : Nat) (h : Mill → Mill) : (d.modMill n h).rasts = d.rasts := rfl
@[simp] theorem Dev.modMill_dmas (d : Dev) (n : Nat) (h : Mill → Mill) : (d.modMill n h).dmas = d.dmas := rfl
@[simp] theorem Dev.modMill_pcie (d : Dev) (n : Nat) (h : Mill → Mill) : (d.modMill n h).pcie = d.pcie := rfl
@[simp] theorem Dev.modMill_reed (d : Dev) (n : Nat) (h : Mill → Mill) : (d.modMill n h).reed = d.reed := rfl
@[simp] theorem Dev.modMill_flash (d : Dev) (n : Nat) (h : Mill → Mill) : (d.modMill n h).flash = d.flash := rfl
@[simp] theorem Dev.modMill_bp (d : Dev) (n : Nat) (h : Mill → Mill) : (d.modMill n h).bp = d.bp := rfl
@[simp] theorem Dev.modMill_cal (d : Dev) (n : Nat) (h : Mill → Mill) : (d.modMill n h).cal = d.cal := rfl
@[simp] theorem Dev.modMill_therm (d : Dev) (n : Nat) (h : Mill → Mill) : (d.modMill n h).therm = d.therm := rfl
@[simp] theorem Dev.modMill_log (d : Dev) (n : Nat) (h : Mill → Mill) : (d.modMill n h).log = d.log := rfl
@[simp] theorem Dev.modMill_ucode (d : Dev) (n : Nat) (h : Mill → Mill) : (d.modMill n h).ucode = d.ucode := rfl
@[simp] theorem Dev.modMill_contain (d : Dev) (n : Nat) (h : Mill → Mill) : (d.modMill n h).contain = d.contain := rfl
@[simp] theorem Dev.modMill_supply (d : Dev) (n : Nat) (h : Mill → Mill) : (d.modMill n h).supply = d.supply := rfl
@[simp] theorem Dev.modMill_jtag (d : Dev) (n : Nat) (h : Mill → Mill) : (d.modMill n h).jtag = d.jtag := rfl
@[simp] theorem Dev.modMill_boot (d : Dev) (n : Nat) (h : Mill → Mill) : (d.modMill n h).boot = d.boot := rfl
@[simp] theorem Dev.modMill_evcRun (d : Dev) (n : Nat) (h : Mill → Mill) : (d.modMill n h).evcRun = d.evcRun := rfl
@[simp] theorem Dev.modMill_judging (d : Dev) (n : Nat) (h : Mill → Mill) : (d.modMill n h).judging = d.judging := rfl
@[simp] theorem Dev.modMill_freeCtr (d : Dev) (n : Nat) (h : Mill → Mill) : (d.modMill n h).freeCtr = d.freeCtr := rfl
@[simp] theorem Dev.modMill_ctx (d : Dev) (n : Nat) (h : Mill → Mill) (k : Nat) : (d.modMill n h).ctx k = d.ctx k := rfl
@[simp] theorem Dev.modMill_chan (d : Dev) (n : Nat) (h : Mill → Mill) (k : Nat) : (d.modMill n h).chan k = d.chan k := rfl
@[simp] theorem Dev.modMill_pat (d : Dev) (n : Nat) (h : Mill → Mill) (k : Nat) : (d.modMill n h).pat k = d.pat k := rfl
@[simp] theorem Dev.modMill_wfm (d : Dev) (n : Nat) (h : Mill → Mill) (k : Nat) : (d.modMill n h).wfm k = d.wfm k := rfl
@[simp] theorem Dev.modMill_cap (d : Dev) (n : Nat) (h : Mill → Mill) (k : Nat) : (d.modMill n h).cap k = d.cap k := rfl
@[simp] theorem Dev.modMill_tme (d : Dev) (n : Nat) (h : Mill → Mill) (k : Nat) : (d.modMill n h).tme k = d.tme k := rfl
@[simp] theorem Dev.modMill_dma (d : Dev) (n : Nat) (h : Mill → Mill) (k : Nat) : (d.modMill n h).dma k = d.dma k := rfl
@[simp] theorem Dev.modMill_rast (d : Dev) (n : Nat) (h : Mill → Mill) (k : Nat) : (d.modMill n h).rast k = d.rast k := rfl
@[simp] theorem Dev.modMill_box (d : Dev) (n : Nat) (h : Mill → Mill) (k : Nat) : (d.modMill n h).box k = d.box k := rfl
@[simp] theorem Dev.modMill_ustore (d : Dev) (n : Nat) (h : Mill → Mill) (k : Nat) : (d.modMill n h).ustore k = d.ustore k := rfl
@[simp] theorem Dev.modMill_unit (d : Dev) (n : Nat) (h : Mill → Mill) (k : Nat) : (d.modMill n h).unit k = d.unit k := rfl
@[simp] theorem Dev.modMill_rd (d : Dev) (n : Nat) (h : Mill → Mill) (g : Fld) : (d.modMill n h).rd g = d.rd g := rfl
@[simp] theorem Dev.modMill_on (d : Dev) (n : Nat) (h : Mill → Mill) (g : Fld) : (d.modMill n h).on g = d.on g := rfl
@[simp] theorem Dev.modMill_byte (d : Dev) (n : Nat) (h : Mill → Mill) (k : Nat) : (d.modMill n h).byte k = d.byte k := rfl
@[simp] theorem Dev.modMill_site (d : Dev) (n : Nat) (h : Mill → Mill) (k : Nat) : (d.modMill n h).site k = d.site k := rfl
@[simp] theorem Dev.modMill_owns (d : Dev) (n : Nat) (h : Mill → Mill) (m : Master) (k : Nat) : (d.modMill n h).owns m k = d.owns m k := rfl
@[simp] theorem Dev.modMill_inSite (d : Dev) (n : Nat) (h : Mill → Mill) (k i : Nat) : (d.modMill n h).inSite k i = d.inSite k i := rfl

/-! setDma. -/

@[simp] theorem Dev.setDma_regs (d : Dev) (n : Nat) (x : Dma) : (d.setDma n x).regs = d.regs := rfl
@[simp] theorem Dev.setDma_units (d : Dev) (n : Nat) (x : Dma) : (d.setDma n x).units = d.units := rfl
@[simp] theorem Dev.setDma_inUse (d : Dev) (n : Nat) (x : Dma) : (d.setDma n x).inUse = d.inUse := rfl
@[simp] theorem Dev.setDma_waitGran (d : Dev) (n : Nat) (x : Dma) : (d.setDma n x).waitGran = d.waitGran := rfl
@[simp] theorem Dev.setDma_waitBus (d : Dev) (n : Nat) (x : Dma) : (d.setDma n x).waitBus = d.waitBus := rfl
@[simp] theorem Dev.setDma_serving (d : Dev) (n : Nat) (x : Dma) : (d.setDma n x).serving = d.serving := rfl
@[simp] theorem Dev.setDma_ports (d : Dev) (n : Nat) (x : Dma) : (d.setDma n x).ports = d.ports := rfl
@[simp] theorem Dev.setDma_gran (d : Dev) (n : Nat) (x : Dma) : (d.setDma n x).gran = d.gran := rfl
@[simp] theorem Dev.setDma_ctxs (d : Dev) (n : Nat) (x : Dma) : (d.setDma n x).ctxs = d.ctxs := rfl
@[simp] theorem Dev.setDma_sites (d : Dev) (n : Nat) (x : Dma) : (d.setDma n x).sites = d.sites := rfl
@[simp] theorem Dev.setDma_chmap (d : Dev) (n : Nat) (x : Dma) : (d.setDma n x).chmap = d.chmap := rfl
@[simp] theorem Dev.setDma_ctxCmd (d : Dev) (n : Nat) (x : Dma) : (d.setDma n x).ctxCmd = d.ctxCmd := rfl
@[simp] theorem Dev.setDma_icache (d : Dev) (n : Nat) (x : Dma) : (d.setDma n x).icache = d.icache := rfl
@[simp] theorem Dev.setDma_icacheBusy (d : Dev) (n : Nat) (x : Dma) : (d.setDma n x).icacheBusy = d.icacheBusy := rfl
@[simp] theorem Dev.setDma_chans (d : Dev) (n : Nat) (x : Dma) : (d.setDma n x).chans = d.chans := rfl
@[simp] theorem Dev.setDma_mons (d : Dev) (n : Nat) (x : Dma) : (d.setDma n x).mons = d.mons := rfl
@[simp] theorem Dev.setDma_pats (d : Dev) (n : Nat) (x : Dma) : (d.setDma n x).pats = d.pats := rfl
@[simp] theorem Dev.setDma_segw (d : Dev) (n : Nat) (x : Dma) : (d.setDma n x).segw = d.segw := rfl
@[simp] theorem Dev.setDma_wfms (d : Dev) (n : Nat) (x : Dma) : (d.setDma n x).wfms = d.wfms := rfl
@[simp] theorem Dev.setDma_caps (d : Dev) (n : Nat) (x : Dma) : (d.setDma n x).caps = d.caps := rfl
@[simp] theorem Dev.setDma_tmes (d : Dev) (n : Nat) (x : Dma) : (d.setDma n x).tmes = d.tmes := rfl
@[simp] theorem Dev.setDma_mills (d : Dev) (n : Nat) (x : Dma) : (d.setDma n x).mills = d.mills := rfl
@[simp] theorem Dev.setDma_rasts (d : Dev) (n : Nat) (x : Dma) : (d.setDma n x).rasts = d.rasts := rfl
@[simp] theorem Dev.setDma_pcie (d : Dev) (n : Nat) (x : Dma) : (d.setDma n x).pcie = d.pcie := rfl
@[simp] theorem Dev.setDma_reed (d : Dev) (n : Nat) (x : Dma) : (d.setDma n x).reed = d.reed := rfl
@[simp] theorem Dev.setDma_flash (d : Dev) (n : Nat) (x : Dma) : (d.setDma n x).flash = d.flash := rfl
@[simp] theorem Dev.setDma_bp (d : Dev) (n : Nat) (x : Dma) : (d.setDma n x).bp = d.bp := rfl
@[simp] theorem Dev.setDma_cal (d : Dev) (n : Nat) (x : Dma) : (d.setDma n x).cal = d.cal := rfl
@[simp] theorem Dev.setDma_therm (d : Dev) (n : Nat) (x : Dma) : (d.setDma n x).therm = d.therm := rfl
@[simp] theorem Dev.setDma_log (d : Dev) (n : Nat) (x : Dma) : (d.setDma n x).log = d.log := rfl
@[simp] theorem Dev.setDma_ucode (d : Dev) (n : Nat) (x : Dma) : (d.setDma n x).ucode = d.ucode := rfl
@[simp] theorem Dev.setDma_contain (d : Dev) (n : Nat) (x : Dma) : (d.setDma n x).contain = d.contain := rfl
@[simp] theorem Dev.setDma_supply (d : Dev) (n : Nat) (x : Dma) : (d.setDma n x).supply = d.supply := rfl
@[simp] theorem Dev.setDma_jtag (d : Dev) (n : Nat) (x : Dma) : (d.setDma n x).jtag = d.jtag := rfl
@[simp] theorem Dev.setDma_boot (d : Dev) (n : Nat) (x : Dma) : (d.setDma n x).boot = d.boot := rfl
@[simp] theorem Dev.setDma_evcRun (d : Dev) (n : Nat) (x : Dma) : (d.setDma n x).evcRun = d.evcRun := rfl
@[simp] theorem Dev.setDma_judging (d : Dev) (n : Nat) (x : Dma) : (d.setDma n x).judging = d.judging := rfl
@[simp] theorem Dev.setDma_freeCtr (d : Dev) (n : Nat) (x : Dma) : (d.setDma n x).freeCtr = d.freeCtr := rfl
@[simp] theorem Dev.setDma_ctx (d : Dev) (n : Nat) (x : Dma) (k : Nat) : (d.setDma n x).ctx k = d.ctx k := rfl
@[simp] theorem Dev.setDma_chan (d : Dev) (n : Nat) (x : Dma) (k : Nat) : (d.setDma n x).chan k = d.chan k := rfl
@[simp] theorem Dev.setDma_pat (d : Dev) (n : Nat) (x : Dma) (k : Nat) : (d.setDma n x).pat k = d.pat k := rfl
@[simp] theorem Dev.setDma_wfm (d : Dev) (n : Nat) (x : Dma) (k : Nat) : (d.setDma n x).wfm k = d.wfm k := rfl
@[simp] theorem Dev.setDma_cap (d : Dev) (n : Nat) (x : Dma) (k : Nat) : (d.setDma n x).cap k = d.cap k := rfl
@[simp] theorem Dev.setDma_tme (d : Dev) (n : Nat) (x : Dma) (k : Nat) : (d.setDma n x).tme k = d.tme k := rfl
@[simp] theorem Dev.setDma_mill (d : Dev) (n : Nat) (x : Dma) (k : Nat) : (d.setDma n x).mill k = d.mill k := rfl
@[simp] theorem Dev.setDma_rast (d : Dev) (n : Nat) (x : Dma) (k : Nat) : (d.setDma n x).rast k = d.rast k := rfl
@[simp] theorem Dev.setDma_box (d : Dev) (n : Nat) (x : Dma) (k : Nat) : (d.setDma n x).box k = d.box k := rfl
@[simp] theorem Dev.setDma_ustore (d : Dev) (n : Nat) (x : Dma) (k : Nat) : (d.setDma n x).ustore k = d.ustore k := rfl
@[simp] theorem Dev.setDma_unit (d : Dev) (n : Nat) (x : Dma) (k : Nat) : (d.setDma n x).unit k = d.unit k := rfl
@[simp] theorem Dev.setDma_rd (d : Dev) (n : Nat) (x : Dma) (g : Fld) : (d.setDma n x).rd g = d.rd g := rfl
@[simp] theorem Dev.setDma_on (d : Dev) (n : Nat) (x : Dma) (g : Fld) : (d.setDma n x).on g = d.on g := rfl
@[simp] theorem Dev.setDma_byte (d : Dev) (n : Nat) (x : Dma) (k : Nat) : (d.setDma n x).byte k = d.byte k := rfl
@[simp] theorem Dev.setDma_site (d : Dev) (n : Nat) (x : Dma) (k : Nat) : (d.setDma n x).site k = d.site k := rfl
@[simp] theorem Dev.setDma_owns (d : Dev) (n : Nat) (x : Dma) (m : Master) (k : Nat) : (d.setDma n x).owns m k = d.owns m k := rfl
@[simp] theorem Dev.setDma_inSite (d : Dev) (n : Nat) (x : Dma) (k i : Nat) : (d.setDma n x).inSite k i = d.inSite k i := rfl

/-! modDma. -/

@[simp] theorem Dev.modDma_regs (d : Dev) (n : Nat) (h : Dma → Dma) : (d.modDma n h).regs = d.regs := rfl
@[simp] theorem Dev.modDma_units (d : Dev) (n : Nat) (h : Dma → Dma) : (d.modDma n h).units = d.units := rfl
@[simp] theorem Dev.modDma_inUse (d : Dev) (n : Nat) (h : Dma → Dma) : (d.modDma n h).inUse = d.inUse := rfl
@[simp] theorem Dev.modDma_waitGran (d : Dev) (n : Nat) (h : Dma → Dma) : (d.modDma n h).waitGran = d.waitGran := rfl
@[simp] theorem Dev.modDma_waitBus (d : Dev) (n : Nat) (h : Dma → Dma) : (d.modDma n h).waitBus = d.waitBus := rfl
@[simp] theorem Dev.modDma_serving (d : Dev) (n : Nat) (h : Dma → Dma) : (d.modDma n h).serving = d.serving := rfl
@[simp] theorem Dev.modDma_ports (d : Dev) (n : Nat) (h : Dma → Dma) : (d.modDma n h).ports = d.ports := rfl
@[simp] theorem Dev.modDma_gran (d : Dev) (n : Nat) (h : Dma → Dma) : (d.modDma n h).gran = d.gran := rfl
@[simp] theorem Dev.modDma_ctxs (d : Dev) (n : Nat) (h : Dma → Dma) : (d.modDma n h).ctxs = d.ctxs := rfl
@[simp] theorem Dev.modDma_sites (d : Dev) (n : Nat) (h : Dma → Dma) : (d.modDma n h).sites = d.sites := rfl
@[simp] theorem Dev.modDma_chmap (d : Dev) (n : Nat) (h : Dma → Dma) : (d.modDma n h).chmap = d.chmap := rfl
@[simp] theorem Dev.modDma_ctxCmd (d : Dev) (n : Nat) (h : Dma → Dma) : (d.modDma n h).ctxCmd = d.ctxCmd := rfl
@[simp] theorem Dev.modDma_icache (d : Dev) (n : Nat) (h : Dma → Dma) : (d.modDma n h).icache = d.icache := rfl
@[simp] theorem Dev.modDma_icacheBusy (d : Dev) (n : Nat) (h : Dma → Dma) : (d.modDma n h).icacheBusy = d.icacheBusy := rfl
@[simp] theorem Dev.modDma_chans (d : Dev) (n : Nat) (h : Dma → Dma) : (d.modDma n h).chans = d.chans := rfl
@[simp] theorem Dev.modDma_mons (d : Dev) (n : Nat) (h : Dma → Dma) : (d.modDma n h).mons = d.mons := rfl
@[simp] theorem Dev.modDma_pats (d : Dev) (n : Nat) (h : Dma → Dma) : (d.modDma n h).pats = d.pats := rfl
@[simp] theorem Dev.modDma_segw (d : Dev) (n : Nat) (h : Dma → Dma) : (d.modDma n h).segw = d.segw := rfl
@[simp] theorem Dev.modDma_wfms (d : Dev) (n : Nat) (h : Dma → Dma) : (d.modDma n h).wfms = d.wfms := rfl
@[simp] theorem Dev.modDma_caps (d : Dev) (n : Nat) (h : Dma → Dma) : (d.modDma n h).caps = d.caps := rfl
@[simp] theorem Dev.modDma_tmes (d : Dev) (n : Nat) (h : Dma → Dma) : (d.modDma n h).tmes = d.tmes := rfl
@[simp] theorem Dev.modDma_mills (d : Dev) (n : Nat) (h : Dma → Dma) : (d.modDma n h).mills = d.mills := rfl
@[simp] theorem Dev.modDma_rasts (d : Dev) (n : Nat) (h : Dma → Dma) : (d.modDma n h).rasts = d.rasts := rfl
@[simp] theorem Dev.modDma_pcie (d : Dev) (n : Nat) (h : Dma → Dma) : (d.modDma n h).pcie = d.pcie := rfl
@[simp] theorem Dev.modDma_reed (d : Dev) (n : Nat) (h : Dma → Dma) : (d.modDma n h).reed = d.reed := rfl
@[simp] theorem Dev.modDma_flash (d : Dev) (n : Nat) (h : Dma → Dma) : (d.modDma n h).flash = d.flash := rfl
@[simp] theorem Dev.modDma_bp (d : Dev) (n : Nat) (h : Dma → Dma) : (d.modDma n h).bp = d.bp := rfl
@[simp] theorem Dev.modDma_cal (d : Dev) (n : Nat) (h : Dma → Dma) : (d.modDma n h).cal = d.cal := rfl
@[simp] theorem Dev.modDma_therm (d : Dev) (n : Nat) (h : Dma → Dma) : (d.modDma n h).therm = d.therm := rfl
@[simp] theorem Dev.modDma_log (d : Dev) (n : Nat) (h : Dma → Dma) : (d.modDma n h).log = d.log := rfl
@[simp] theorem Dev.modDma_ucode (d : Dev) (n : Nat) (h : Dma → Dma) : (d.modDma n h).ucode = d.ucode := rfl
@[simp] theorem Dev.modDma_contain (d : Dev) (n : Nat) (h : Dma → Dma) : (d.modDma n h).contain = d.contain := rfl
@[simp] theorem Dev.modDma_supply (d : Dev) (n : Nat) (h : Dma → Dma) : (d.modDma n h).supply = d.supply := rfl
@[simp] theorem Dev.modDma_jtag (d : Dev) (n : Nat) (h : Dma → Dma) : (d.modDma n h).jtag = d.jtag := rfl
@[simp] theorem Dev.modDma_boot (d : Dev) (n : Nat) (h : Dma → Dma) : (d.modDma n h).boot = d.boot := rfl
@[simp] theorem Dev.modDma_evcRun (d : Dev) (n : Nat) (h : Dma → Dma) : (d.modDma n h).evcRun = d.evcRun := rfl
@[simp] theorem Dev.modDma_judging (d : Dev) (n : Nat) (h : Dma → Dma) : (d.modDma n h).judging = d.judging := rfl
@[simp] theorem Dev.modDma_freeCtr (d : Dev) (n : Nat) (h : Dma → Dma) : (d.modDma n h).freeCtr = d.freeCtr := rfl
@[simp] theorem Dev.modDma_ctx (d : Dev) (n : Nat) (h : Dma → Dma) (k : Nat) : (d.modDma n h).ctx k = d.ctx k := rfl
@[simp] theorem Dev.modDma_chan (d : Dev) (n : Nat) (h : Dma → Dma) (k : Nat) : (d.modDma n h).chan k = d.chan k := rfl
@[simp] theorem Dev.modDma_pat (d : Dev) (n : Nat) (h : Dma → Dma) (k : Nat) : (d.modDma n h).pat k = d.pat k := rfl
@[simp] theorem Dev.modDma_wfm (d : Dev) (n : Nat) (h : Dma → Dma) (k : Nat) : (d.modDma n h).wfm k = d.wfm k := rfl
@[simp] theorem Dev.modDma_cap (d : Dev) (n : Nat) (h : Dma → Dma) (k : Nat) : (d.modDma n h).cap k = d.cap k := rfl
@[simp] theorem Dev.modDma_tme (d : Dev) (n : Nat) (h : Dma → Dma) (k : Nat) : (d.modDma n h).tme k = d.tme k := rfl
@[simp] theorem Dev.modDma_mill (d : Dev) (n : Nat) (h : Dma → Dma) (k : Nat) : (d.modDma n h).mill k = d.mill k := rfl
@[simp] theorem Dev.modDma_rast (d : Dev) (n : Nat) (h : Dma → Dma) (k : Nat) : (d.modDma n h).rast k = d.rast k := rfl
@[simp] theorem Dev.modDma_box (d : Dev) (n : Nat) (h : Dma → Dma) (k : Nat) : (d.modDma n h).box k = d.box k := rfl
@[simp] theorem Dev.modDma_ustore (d : Dev) (n : Nat) (h : Dma → Dma) (k : Nat) : (d.modDma n h).ustore k = d.ustore k := rfl
@[simp] theorem Dev.modDma_unit (d : Dev) (n : Nat) (h : Dma → Dma) (k : Nat) : (d.modDma n h).unit k = d.unit k := rfl
@[simp] theorem Dev.modDma_rd (d : Dev) (n : Nat) (h : Dma → Dma) (g : Fld) : (d.modDma n h).rd g = d.rd g := rfl
@[simp] theorem Dev.modDma_on (d : Dev) (n : Nat) (h : Dma → Dma) (g : Fld) : (d.modDma n h).on g = d.on g := rfl
@[simp] theorem Dev.modDma_byte (d : Dev) (n : Nat) (h : Dma → Dma) (k : Nat) : (d.modDma n h).byte k = d.byte k := rfl
@[simp] theorem Dev.modDma_site (d : Dev) (n : Nat) (h : Dma → Dma) (k : Nat) : (d.modDma n h).site k = d.site k := rfl
@[simp] theorem Dev.modDma_owns (d : Dev) (n : Nat) (h : Dma → Dma) (m : Master) (k : Nat) : (d.modDma n h).owns m k = d.owns m k := rfl
@[simp] theorem Dev.modDma_inSite (d : Dev) (n : Nat) (h : Dma → Dma) (k i : Nat) : (d.modDma n h).inSite k i = d.inSite k i := rfl

/-! modRast. -/

@[simp] theorem Dev.modRast_regs (d : Dev) (n : Nat) (h : Rast → Rast) : (d.modRast n h).regs = d.regs := rfl
@[simp] theorem Dev.modRast_units (d : Dev) (n : Nat) (h : Rast → Rast) : (d.modRast n h).units = d.units := rfl
@[simp] theorem Dev.modRast_inUse (d : Dev) (n : Nat) (h : Rast → Rast) : (d.modRast n h).inUse = d.inUse := rfl
@[simp] theorem Dev.modRast_waitGran (d : Dev) (n : Nat) (h : Rast → Rast) : (d.modRast n h).waitGran = d.waitGran := rfl
@[simp] theorem Dev.modRast_waitBus (d : Dev) (n : Nat) (h : Rast → Rast) : (d.modRast n h).waitBus = d.waitBus := rfl
@[simp] theorem Dev.modRast_serving (d : Dev) (n : Nat) (h : Rast → Rast) : (d.modRast n h).serving = d.serving := rfl
@[simp] theorem Dev.modRast_ports (d : Dev) (n : Nat) (h : Rast → Rast) : (d.modRast n h).ports = d.ports := rfl
@[simp] theorem Dev.modRast_gran (d : Dev) (n : Nat) (h : Rast → Rast) : (d.modRast n h).gran = d.gran := rfl
@[simp] theorem Dev.modRast_ctxs (d : Dev) (n : Nat) (h : Rast → Rast) : (d.modRast n h).ctxs = d.ctxs := rfl
@[simp] theorem Dev.modRast_sites (d : Dev) (n : Nat) (h : Rast → Rast) : (d.modRast n h).sites = d.sites := rfl
@[simp] theorem Dev.modRast_chmap (d : Dev) (n : Nat) (h : Rast → Rast) : (d.modRast n h).chmap = d.chmap := rfl
@[simp] theorem Dev.modRast_ctxCmd (d : Dev) (n : Nat) (h : Rast → Rast) : (d.modRast n h).ctxCmd = d.ctxCmd := rfl
@[simp] theorem Dev.modRast_icache (d : Dev) (n : Nat) (h : Rast → Rast) : (d.modRast n h).icache = d.icache := rfl
@[simp] theorem Dev.modRast_icacheBusy (d : Dev) (n : Nat) (h : Rast → Rast) : (d.modRast n h).icacheBusy = d.icacheBusy := rfl
@[simp] theorem Dev.modRast_chans (d : Dev) (n : Nat) (h : Rast → Rast) : (d.modRast n h).chans = d.chans := rfl
@[simp] theorem Dev.modRast_mons (d : Dev) (n : Nat) (h : Rast → Rast) : (d.modRast n h).mons = d.mons := rfl
@[simp] theorem Dev.modRast_pats (d : Dev) (n : Nat) (h : Rast → Rast) : (d.modRast n h).pats = d.pats := rfl
@[simp] theorem Dev.modRast_segw (d : Dev) (n : Nat) (h : Rast → Rast) : (d.modRast n h).segw = d.segw := rfl
@[simp] theorem Dev.modRast_wfms (d : Dev) (n : Nat) (h : Rast → Rast) : (d.modRast n h).wfms = d.wfms := rfl
@[simp] theorem Dev.modRast_caps (d : Dev) (n : Nat) (h : Rast → Rast) : (d.modRast n h).caps = d.caps := rfl
@[simp] theorem Dev.modRast_tmes (d : Dev) (n : Nat) (h : Rast → Rast) : (d.modRast n h).tmes = d.tmes := rfl
@[simp] theorem Dev.modRast_mills (d : Dev) (n : Nat) (h : Rast → Rast) : (d.modRast n h).mills = d.mills := rfl
@[simp] theorem Dev.modRast_dmas (d : Dev) (n : Nat) (h : Rast → Rast) : (d.modRast n h).dmas = d.dmas := rfl
@[simp] theorem Dev.modRast_pcie (d : Dev) (n : Nat) (h : Rast → Rast) : (d.modRast n h).pcie = d.pcie := rfl
@[simp] theorem Dev.modRast_reed (d : Dev) (n : Nat) (h : Rast → Rast) : (d.modRast n h).reed = d.reed := rfl
@[simp] theorem Dev.modRast_flash (d : Dev) (n : Nat) (h : Rast → Rast) : (d.modRast n h).flash = d.flash := rfl
@[simp] theorem Dev.modRast_bp (d : Dev) (n : Nat) (h : Rast → Rast) : (d.modRast n h).bp = d.bp := rfl
@[simp] theorem Dev.modRast_cal (d : Dev) (n : Nat) (h : Rast → Rast) : (d.modRast n h).cal = d.cal := rfl
@[simp] theorem Dev.modRast_therm (d : Dev) (n : Nat) (h : Rast → Rast) : (d.modRast n h).therm = d.therm := rfl
@[simp] theorem Dev.modRast_log (d : Dev) (n : Nat) (h : Rast → Rast) : (d.modRast n h).log = d.log := rfl
@[simp] theorem Dev.modRast_ucode (d : Dev) (n : Nat) (h : Rast → Rast) : (d.modRast n h).ucode = d.ucode := rfl
@[simp] theorem Dev.modRast_contain (d : Dev) (n : Nat) (h : Rast → Rast) : (d.modRast n h).contain = d.contain := rfl
@[simp] theorem Dev.modRast_supply (d : Dev) (n : Nat) (h : Rast → Rast) : (d.modRast n h).supply = d.supply := rfl
@[simp] theorem Dev.modRast_jtag (d : Dev) (n : Nat) (h : Rast → Rast) : (d.modRast n h).jtag = d.jtag := rfl
@[simp] theorem Dev.modRast_boot (d : Dev) (n : Nat) (h : Rast → Rast) : (d.modRast n h).boot = d.boot := rfl
@[simp] theorem Dev.modRast_evcRun (d : Dev) (n : Nat) (h : Rast → Rast) : (d.modRast n h).evcRun = d.evcRun := rfl
@[simp] theorem Dev.modRast_judging (d : Dev) (n : Nat) (h : Rast → Rast) : (d.modRast n h).judging = d.judging := rfl
@[simp] theorem Dev.modRast_freeCtr (d : Dev) (n : Nat) (h : Rast → Rast) : (d.modRast n h).freeCtr = d.freeCtr := rfl
@[simp] theorem Dev.modRast_ctx (d : Dev) (n : Nat) (h : Rast → Rast) (k : Nat) : (d.modRast n h).ctx k = d.ctx k := rfl
@[simp] theorem Dev.modRast_chan (d : Dev) (n : Nat) (h : Rast → Rast) (k : Nat) : (d.modRast n h).chan k = d.chan k := rfl
@[simp] theorem Dev.modRast_pat (d : Dev) (n : Nat) (h : Rast → Rast) (k : Nat) : (d.modRast n h).pat k = d.pat k := rfl
@[simp] theorem Dev.modRast_wfm (d : Dev) (n : Nat) (h : Rast → Rast) (k : Nat) : (d.modRast n h).wfm k = d.wfm k := rfl
@[simp] theorem Dev.modRast_cap (d : Dev) (n : Nat) (h : Rast → Rast) (k : Nat) : (d.modRast n h).cap k = d.cap k := rfl
@[simp] theorem Dev.modRast_tme (d : Dev) (n : Nat) (h : Rast → Rast) (k : Nat) : (d.modRast n h).tme k = d.tme k := rfl
@[simp] theorem Dev.modRast_mill (d : Dev) (n : Nat) (h : Rast → Rast) (k : Nat) : (d.modRast n h).mill k = d.mill k := rfl
@[simp] theorem Dev.modRast_dma (d : Dev) (n : Nat) (h : Rast → Rast) (k : Nat) : (d.modRast n h).dma k = d.dma k := rfl
@[simp] theorem Dev.modRast_box (d : Dev) (n : Nat) (h : Rast → Rast) (k : Nat) : (d.modRast n h).box k = d.box k := rfl
@[simp] theorem Dev.modRast_ustore (d : Dev) (n : Nat) (h : Rast → Rast) (k : Nat) : (d.modRast n h).ustore k = d.ustore k := rfl
@[simp] theorem Dev.modRast_unit (d : Dev) (n : Nat) (h : Rast → Rast) (k : Nat) : (d.modRast n h).unit k = d.unit k := rfl
@[simp] theorem Dev.modRast_rd (d : Dev) (n : Nat) (h : Rast → Rast) (g : Fld) : (d.modRast n h).rd g = d.rd g := rfl
@[simp] theorem Dev.modRast_on (d : Dev) (n : Nat) (h : Rast → Rast) (g : Fld) : (d.modRast n h).on g = d.on g := rfl
@[simp] theorem Dev.modRast_byte (d : Dev) (n : Nat) (h : Rast → Rast) (k : Nat) : (d.modRast n h).byte k = d.byte k := rfl
@[simp] theorem Dev.modRast_site (d : Dev) (n : Nat) (h : Rast → Rast) (k : Nat) : (d.modRast n h).site k = d.site k := rfl
@[simp] theorem Dev.modRast_owns (d : Dev) (n : Nat) (h : Rast → Rast) (m : Master) (k : Nat) : (d.modRast n h).owns m k = d.owns m k := rfl
@[simp] theorem Dev.modRast_inSite (d : Dev) (n : Nat) (h : Rast → Rast) (k i : Nat) : (d.modRast n h).inSite k i = d.inSite k i := rfl

/-! modBox. -/

@[simp] theorem Dev.modBox_regs (d : Dev) (n : Nat) (h : Contain → Contain) : (d.modBox n h).regs = d.regs := rfl
@[simp] theorem Dev.modBox_units (d : Dev) (n : Nat) (h : Contain → Contain) : (d.modBox n h).units = d.units := rfl
@[simp] theorem Dev.modBox_inUse (d : Dev) (n : Nat) (h : Contain → Contain) : (d.modBox n h).inUse = d.inUse := rfl
@[simp] theorem Dev.modBox_waitGran (d : Dev) (n : Nat) (h : Contain → Contain) : (d.modBox n h).waitGran = d.waitGran := rfl
@[simp] theorem Dev.modBox_waitBus (d : Dev) (n : Nat) (h : Contain → Contain) : (d.modBox n h).waitBus = d.waitBus := rfl
@[simp] theorem Dev.modBox_serving (d : Dev) (n : Nat) (h : Contain → Contain) : (d.modBox n h).serving = d.serving := rfl
@[simp] theorem Dev.modBox_ports (d : Dev) (n : Nat) (h : Contain → Contain) : (d.modBox n h).ports = d.ports := rfl
@[simp] theorem Dev.modBox_gran (d : Dev) (n : Nat) (h : Contain → Contain) : (d.modBox n h).gran = d.gran := rfl
@[simp] theorem Dev.modBox_ctxs (d : Dev) (n : Nat) (h : Contain → Contain) : (d.modBox n h).ctxs = d.ctxs := rfl
@[simp] theorem Dev.modBox_sites (d : Dev) (n : Nat) (h : Contain → Contain) : (d.modBox n h).sites = d.sites := rfl
@[simp] theorem Dev.modBox_chmap (d : Dev) (n : Nat) (h : Contain → Contain) : (d.modBox n h).chmap = d.chmap := rfl
@[simp] theorem Dev.modBox_ctxCmd (d : Dev) (n : Nat) (h : Contain → Contain) : (d.modBox n h).ctxCmd = d.ctxCmd := rfl
@[simp] theorem Dev.modBox_icache (d : Dev) (n : Nat) (h : Contain → Contain) : (d.modBox n h).icache = d.icache := rfl
@[simp] theorem Dev.modBox_icacheBusy (d : Dev) (n : Nat) (h : Contain → Contain) : (d.modBox n h).icacheBusy = d.icacheBusy := rfl
@[simp] theorem Dev.modBox_chans (d : Dev) (n : Nat) (h : Contain → Contain) : (d.modBox n h).chans = d.chans := rfl
@[simp] theorem Dev.modBox_mons (d : Dev) (n : Nat) (h : Contain → Contain) : (d.modBox n h).mons = d.mons := rfl
@[simp] theorem Dev.modBox_pats (d : Dev) (n : Nat) (h : Contain → Contain) : (d.modBox n h).pats = d.pats := rfl
@[simp] theorem Dev.modBox_segw (d : Dev) (n : Nat) (h : Contain → Contain) : (d.modBox n h).segw = d.segw := rfl
@[simp] theorem Dev.modBox_wfms (d : Dev) (n : Nat) (h : Contain → Contain) : (d.modBox n h).wfms = d.wfms := rfl
@[simp] theorem Dev.modBox_caps (d : Dev) (n : Nat) (h : Contain → Contain) : (d.modBox n h).caps = d.caps := rfl
@[simp] theorem Dev.modBox_tmes (d : Dev) (n : Nat) (h : Contain → Contain) : (d.modBox n h).tmes = d.tmes := rfl
@[simp] theorem Dev.modBox_mills (d : Dev) (n : Nat) (h : Contain → Contain) : (d.modBox n h).mills = d.mills := rfl
@[simp] theorem Dev.modBox_rasts (d : Dev) (n : Nat) (h : Contain → Contain) : (d.modBox n h).rasts = d.rasts := rfl
@[simp] theorem Dev.modBox_dmas (d : Dev) (n : Nat) (h : Contain → Contain) : (d.modBox n h).dmas = d.dmas := rfl
@[simp] theorem Dev.modBox_pcie (d : Dev) (n : Nat) (h : Contain → Contain) : (d.modBox n h).pcie = d.pcie := rfl
@[simp] theorem Dev.modBox_reed (d : Dev) (n : Nat) (h : Contain → Contain) : (d.modBox n h).reed = d.reed := rfl
@[simp] theorem Dev.modBox_flash (d : Dev) (n : Nat) (h : Contain → Contain) : (d.modBox n h).flash = d.flash := rfl
@[simp] theorem Dev.modBox_bp (d : Dev) (n : Nat) (h : Contain → Contain) : (d.modBox n h).bp = d.bp := rfl
@[simp] theorem Dev.modBox_cal (d : Dev) (n : Nat) (h : Contain → Contain) : (d.modBox n h).cal = d.cal := rfl
@[simp] theorem Dev.modBox_therm (d : Dev) (n : Nat) (h : Contain → Contain) : (d.modBox n h).therm = d.therm := rfl
@[simp] theorem Dev.modBox_log (d : Dev) (n : Nat) (h : Contain → Contain) : (d.modBox n h).log = d.log := rfl
@[simp] theorem Dev.modBox_ucode (d : Dev) (n : Nat) (h : Contain → Contain) : (d.modBox n h).ucode = d.ucode := rfl
@[simp] theorem Dev.modBox_supply (d : Dev) (n : Nat) (h : Contain → Contain) : (d.modBox n h).supply = d.supply := rfl
@[simp] theorem Dev.modBox_jtag (d : Dev) (n : Nat) (h : Contain → Contain) : (d.modBox n h).jtag = d.jtag := rfl
@[simp] theorem Dev.modBox_boot (d : Dev) (n : Nat) (h : Contain → Contain) : (d.modBox n h).boot = d.boot := rfl
@[simp] theorem Dev.modBox_evcRun (d : Dev) (n : Nat) (h : Contain → Contain) : (d.modBox n h).evcRun = d.evcRun := rfl
@[simp] theorem Dev.modBox_judging (d : Dev) (n : Nat) (h : Contain → Contain) : (d.modBox n h).judging = d.judging := rfl
@[simp] theorem Dev.modBox_freeCtr (d : Dev) (n : Nat) (h : Contain → Contain) : (d.modBox n h).freeCtr = d.freeCtr := rfl
@[simp] theorem Dev.modBox_ctx (d : Dev) (n : Nat) (h : Contain → Contain) (k : Nat) : (d.modBox n h).ctx k = d.ctx k := rfl
@[simp] theorem Dev.modBox_chan (d : Dev) (n : Nat) (h : Contain → Contain) (k : Nat) : (d.modBox n h).chan k = d.chan k := rfl
@[simp] theorem Dev.modBox_pat (d : Dev) (n : Nat) (h : Contain → Contain) (k : Nat) : (d.modBox n h).pat k = d.pat k := rfl
@[simp] theorem Dev.modBox_wfm (d : Dev) (n : Nat) (h : Contain → Contain) (k : Nat) : (d.modBox n h).wfm k = d.wfm k := rfl
@[simp] theorem Dev.modBox_cap (d : Dev) (n : Nat) (h : Contain → Contain) (k : Nat) : (d.modBox n h).cap k = d.cap k := rfl
@[simp] theorem Dev.modBox_tme (d : Dev) (n : Nat) (h : Contain → Contain) (k : Nat) : (d.modBox n h).tme k = d.tme k := rfl
@[simp] theorem Dev.modBox_mill (d : Dev) (n : Nat) (h : Contain → Contain) (k : Nat) : (d.modBox n h).mill k = d.mill k := rfl
@[simp] theorem Dev.modBox_dma (d : Dev) (n : Nat) (h : Contain → Contain) (k : Nat) : (d.modBox n h).dma k = d.dma k := rfl
@[simp] theorem Dev.modBox_rast (d : Dev) (n : Nat) (h : Contain → Contain) (k : Nat) : (d.modBox n h).rast k = d.rast k := rfl
@[simp] theorem Dev.modBox_ustore (d : Dev) (n : Nat) (h : Contain → Contain) (k : Nat) : (d.modBox n h).ustore k = d.ustore k := rfl
@[simp] theorem Dev.modBox_unit (d : Dev) (n : Nat) (h : Contain → Contain) (k : Nat) : (d.modBox n h).unit k = d.unit k := rfl
@[simp] theorem Dev.modBox_rd (d : Dev) (n : Nat) (h : Contain → Contain) (g : Fld) : (d.modBox n h).rd g = d.rd g := rfl
@[simp] theorem Dev.modBox_on (d : Dev) (n : Nat) (h : Contain → Contain) (g : Fld) : (d.modBox n h).on g = d.on g := rfl
@[simp] theorem Dev.modBox_byte (d : Dev) (n : Nat) (h : Contain → Contain) (k : Nat) : (d.modBox n h).byte k = d.byte k := rfl
@[simp] theorem Dev.modBox_site (d : Dev) (n : Nat) (h : Contain → Contain) (k : Nat) : (d.modBox n h).site k = d.site k := rfl
@[simp] theorem Dev.modBox_owns (d : Dev) (n : Nat) (h : Contain → Contain) (m : Master) (k : Nat) : (d.modBox n h).owns m k = d.owns m k := rfl
@[simp] theorem Dev.modBox_inSite (d : Dev) (n : Nat) (h : Contain → Contain) (k i : Nat) : (d.modBox n h).inSite k i = d.inSite k i := rfl

/-! modUstore. -/

@[simp] theorem Dev.modUstore_regs (d : Dev) (n : Nat) (h : Store → Store) : (d.modUstore n h).regs = d.regs := rfl
@[simp] theorem Dev.modUstore_units (d : Dev) (n : Nat) (h : Store → Store) : (d.modUstore n h).units = d.units := rfl
@[simp] theorem Dev.modUstore_inUse (d : Dev) (n : Nat) (h : Store → Store) : (d.modUstore n h).inUse = d.inUse := rfl
@[simp] theorem Dev.modUstore_waitGran (d : Dev) (n : Nat) (h : Store → Store) : (d.modUstore n h).waitGran = d.waitGran := rfl
@[simp] theorem Dev.modUstore_waitBus (d : Dev) (n : Nat) (h : Store → Store) : (d.modUstore n h).waitBus = d.waitBus := rfl
@[simp] theorem Dev.modUstore_serving (d : Dev) (n : Nat) (h : Store → Store) : (d.modUstore n h).serving = d.serving := rfl
@[simp] theorem Dev.modUstore_ports (d : Dev) (n : Nat) (h : Store → Store) : (d.modUstore n h).ports = d.ports := rfl
@[simp] theorem Dev.modUstore_gran (d : Dev) (n : Nat) (h : Store → Store) : (d.modUstore n h).gran = d.gran := rfl
@[simp] theorem Dev.modUstore_ctxs (d : Dev) (n : Nat) (h : Store → Store) : (d.modUstore n h).ctxs = d.ctxs := rfl
@[simp] theorem Dev.modUstore_sites (d : Dev) (n : Nat) (h : Store → Store) : (d.modUstore n h).sites = d.sites := rfl
@[simp] theorem Dev.modUstore_chmap (d : Dev) (n : Nat) (h : Store → Store) : (d.modUstore n h).chmap = d.chmap := rfl
@[simp] theorem Dev.modUstore_ctxCmd (d : Dev) (n : Nat) (h : Store → Store) : (d.modUstore n h).ctxCmd = d.ctxCmd := rfl
@[simp] theorem Dev.modUstore_icache (d : Dev) (n : Nat) (h : Store → Store) : (d.modUstore n h).icache = d.icache := rfl
@[simp] theorem Dev.modUstore_icacheBusy (d : Dev) (n : Nat) (h : Store → Store) : (d.modUstore n h).icacheBusy = d.icacheBusy := rfl
@[simp] theorem Dev.modUstore_chans (d : Dev) (n : Nat) (h : Store → Store) : (d.modUstore n h).chans = d.chans := rfl
@[simp] theorem Dev.modUstore_mons (d : Dev) (n : Nat) (h : Store → Store) : (d.modUstore n h).mons = d.mons := rfl
@[simp] theorem Dev.modUstore_pats (d : Dev) (n : Nat) (h : Store → Store) : (d.modUstore n h).pats = d.pats := rfl
@[simp] theorem Dev.modUstore_segw (d : Dev) (n : Nat) (h : Store → Store) : (d.modUstore n h).segw = d.segw := rfl
@[simp] theorem Dev.modUstore_wfms (d : Dev) (n : Nat) (h : Store → Store) : (d.modUstore n h).wfms = d.wfms := rfl
@[simp] theorem Dev.modUstore_caps (d : Dev) (n : Nat) (h : Store → Store) : (d.modUstore n h).caps = d.caps := rfl
@[simp] theorem Dev.modUstore_tmes (d : Dev) (n : Nat) (h : Store → Store) : (d.modUstore n h).tmes = d.tmes := rfl
@[simp] theorem Dev.modUstore_mills (d : Dev) (n : Nat) (h : Store → Store) : (d.modUstore n h).mills = d.mills := rfl
@[simp] theorem Dev.modUstore_rasts (d : Dev) (n : Nat) (h : Store → Store) : (d.modUstore n h).rasts = d.rasts := rfl
@[simp] theorem Dev.modUstore_dmas (d : Dev) (n : Nat) (h : Store → Store) : (d.modUstore n h).dmas = d.dmas := rfl
@[simp] theorem Dev.modUstore_pcie (d : Dev) (n : Nat) (h : Store → Store) : (d.modUstore n h).pcie = d.pcie := rfl
@[simp] theorem Dev.modUstore_reed (d : Dev) (n : Nat) (h : Store → Store) : (d.modUstore n h).reed = d.reed := rfl
@[simp] theorem Dev.modUstore_flash (d : Dev) (n : Nat) (h : Store → Store) : (d.modUstore n h).flash = d.flash := rfl
@[simp] theorem Dev.modUstore_bp (d : Dev) (n : Nat) (h : Store → Store) : (d.modUstore n h).bp = d.bp := rfl
@[simp] theorem Dev.modUstore_cal (d : Dev) (n : Nat) (h : Store → Store) : (d.modUstore n h).cal = d.cal := rfl
@[simp] theorem Dev.modUstore_therm (d : Dev) (n : Nat) (h : Store → Store) : (d.modUstore n h).therm = d.therm := rfl
@[simp] theorem Dev.modUstore_log (d : Dev) (n : Nat) (h : Store → Store) : (d.modUstore n h).log = d.log := rfl
@[simp] theorem Dev.modUstore_contain (d : Dev) (n : Nat) (h : Store → Store) : (d.modUstore n h).contain = d.contain := rfl
@[simp] theorem Dev.modUstore_supply (d : Dev) (n : Nat) (h : Store → Store) : (d.modUstore n h).supply = d.supply := rfl
@[simp] theorem Dev.modUstore_jtag (d : Dev) (n : Nat) (h : Store → Store) : (d.modUstore n h).jtag = d.jtag := rfl
@[simp] theorem Dev.modUstore_boot (d : Dev) (n : Nat) (h : Store → Store) : (d.modUstore n h).boot = d.boot := rfl
@[simp] theorem Dev.modUstore_evcRun (d : Dev) (n : Nat) (h : Store → Store) : (d.modUstore n h).evcRun = d.evcRun := rfl
@[simp] theorem Dev.modUstore_judging (d : Dev) (n : Nat) (h : Store → Store) : (d.modUstore n h).judging = d.judging := rfl
@[simp] theorem Dev.modUstore_freeCtr (d : Dev) (n : Nat) (h : Store → Store) : (d.modUstore n h).freeCtr = d.freeCtr := rfl
@[simp] theorem Dev.modUstore_ctx (d : Dev) (n : Nat) (h : Store → Store) (k : Nat) : (d.modUstore n h).ctx k = d.ctx k := rfl
@[simp] theorem Dev.modUstore_chan (d : Dev) (n : Nat) (h : Store → Store) (k : Nat) : (d.modUstore n h).chan k = d.chan k := rfl
@[simp] theorem Dev.modUstore_pat (d : Dev) (n : Nat) (h : Store → Store) (k : Nat) : (d.modUstore n h).pat k = d.pat k := rfl
@[simp] theorem Dev.modUstore_wfm (d : Dev) (n : Nat) (h : Store → Store) (k : Nat) : (d.modUstore n h).wfm k = d.wfm k := rfl
@[simp] theorem Dev.modUstore_cap (d : Dev) (n : Nat) (h : Store → Store) (k : Nat) : (d.modUstore n h).cap k = d.cap k := rfl
@[simp] theorem Dev.modUstore_tme (d : Dev) (n : Nat) (h : Store → Store) (k : Nat) : (d.modUstore n h).tme k = d.tme k := rfl
@[simp] theorem Dev.modUstore_mill (d : Dev) (n : Nat) (h : Store → Store) (k : Nat) : (d.modUstore n h).mill k = d.mill k := rfl
@[simp] theorem Dev.modUstore_dma (d : Dev) (n : Nat) (h : Store → Store) (k : Nat) : (d.modUstore n h).dma k = d.dma k := rfl
@[simp] theorem Dev.modUstore_rast (d : Dev) (n : Nat) (h : Store → Store) (k : Nat) : (d.modUstore n h).rast k = d.rast k := rfl
@[simp] theorem Dev.modUstore_box (d : Dev) (n : Nat) (h : Store → Store) (k : Nat) : (d.modUstore n h).box k = d.box k := rfl
@[simp] theorem Dev.modUstore_unit (d : Dev) (n : Nat) (h : Store → Store) (k : Nat) : (d.modUstore n h).unit k = d.unit k := rfl
@[simp] theorem Dev.modUstore_rd (d : Dev) (n : Nat) (h : Store → Store) (g : Fld) : (d.modUstore n h).rd g = d.rd g := rfl
@[simp] theorem Dev.modUstore_on (d : Dev) (n : Nat) (h : Store → Store) (g : Fld) : (d.modUstore n h).on g = d.on g := rfl
@[simp] theorem Dev.modUstore_byte (d : Dev) (n : Nat) (h : Store → Store) (k : Nat) : (d.modUstore n h).byte k = d.byte k := rfl
@[simp] theorem Dev.modUstore_site (d : Dev) (n : Nat) (h : Store → Store) (k : Nat) : (d.modUstore n h).site k = d.site k := rfl
@[simp] theorem Dev.modUstore_owns (d : Dev) (n : Nat) (h : Store → Store) (m : Master) (k : Nat) : (d.modUstore n h).owns m k = d.owns m k := rfl
@[simp] theorem Dev.modUstore_inSite (d : Dev) (n : Nat) (h : Store → Store) (k i : Nat) : (d.modUstore n h).inSite k i = d.inSite k i := rfl

/-! setMonDiv. -/

@[simp] theorem Dev.setMonDiv_regs (d : Dev) (b v gap : Nat) : (d.setMonDiv b v gap).regs = d.regs := rfl
@[simp] theorem Dev.setMonDiv_units (d : Dev) (b v gap : Nat) : (d.setMonDiv b v gap).units = d.units := rfl
@[simp] theorem Dev.setMonDiv_inUse (d : Dev) (b v gap : Nat) : (d.setMonDiv b v gap).inUse = d.inUse := rfl
@[simp] theorem Dev.setMonDiv_waitGran (d : Dev) (b v gap : Nat) : (d.setMonDiv b v gap).waitGran = d.waitGran := rfl
@[simp] theorem Dev.setMonDiv_waitBus (d : Dev) (b v gap : Nat) : (d.setMonDiv b v gap).waitBus = d.waitBus := rfl
@[simp] theorem Dev.setMonDiv_serving (d : Dev) (b v gap : Nat) : (d.setMonDiv b v gap).serving = d.serving := rfl
@[simp] theorem Dev.setMonDiv_ports (d : Dev) (b v gap : Nat) : (d.setMonDiv b v gap).ports = d.ports := rfl
@[simp] theorem Dev.setMonDiv_gran (d : Dev) (b v gap : Nat) : (d.setMonDiv b v gap).gran = d.gran := rfl
@[simp] theorem Dev.setMonDiv_ctxs (d : Dev) (b v gap : Nat) : (d.setMonDiv b v gap).ctxs = d.ctxs := rfl
@[simp] theorem Dev.setMonDiv_sites (d : Dev) (b v gap : Nat) : (d.setMonDiv b v gap).sites = d.sites := rfl
@[simp] theorem Dev.setMonDiv_chmap (d : Dev) (b v gap : Nat) : (d.setMonDiv b v gap).chmap = d.chmap := rfl
@[simp] theorem Dev.setMonDiv_ctxCmd (d : Dev) (b v gap : Nat) : (d.setMonDiv b v gap).ctxCmd = d.ctxCmd := rfl
@[simp] theorem Dev.setMonDiv_icache (d : Dev) (b v gap : Nat) : (d.setMonDiv b v gap).icache = d.icache := rfl
@[simp] theorem Dev.setMonDiv_icacheBusy (d : Dev) (b v gap : Nat) : (d.setMonDiv b v gap).icacheBusy = d.icacheBusy := rfl
@[simp] theorem Dev.setMonDiv_chans (d : Dev) (b v gap : Nat) : (d.setMonDiv b v gap).chans = d.chans := rfl
@[simp] theorem Dev.setMonDiv_pats (d : Dev) (b v gap : Nat) : (d.setMonDiv b v gap).pats = d.pats := rfl
@[simp] theorem Dev.setMonDiv_segw (d : Dev) (b v gap : Nat) : (d.setMonDiv b v gap).segw = d.segw := rfl
@[simp] theorem Dev.setMonDiv_wfms (d : Dev) (b v gap : Nat) : (d.setMonDiv b v gap).wfms = d.wfms := rfl
@[simp] theorem Dev.setMonDiv_caps (d : Dev) (b v gap : Nat) : (d.setMonDiv b v gap).caps = d.caps := rfl
@[simp] theorem Dev.setMonDiv_tmes (d : Dev) (b v gap : Nat) : (d.setMonDiv b v gap).tmes = d.tmes := rfl
@[simp] theorem Dev.setMonDiv_mills (d : Dev) (b v gap : Nat) : (d.setMonDiv b v gap).mills = d.mills := rfl
@[simp] theorem Dev.setMonDiv_rasts (d : Dev) (b v gap : Nat) : (d.setMonDiv b v gap).rasts = d.rasts := rfl
@[simp] theorem Dev.setMonDiv_dmas (d : Dev) (b v gap : Nat) : (d.setMonDiv b v gap).dmas = d.dmas := rfl
@[simp] theorem Dev.setMonDiv_pcie (d : Dev) (b v gap : Nat) : (d.setMonDiv b v gap).pcie = d.pcie := rfl
@[simp] theorem Dev.setMonDiv_reed (d : Dev) (b v gap : Nat) : (d.setMonDiv b v gap).reed = d.reed := rfl
@[simp] theorem Dev.setMonDiv_flash (d : Dev) (b v gap : Nat) : (d.setMonDiv b v gap).flash = d.flash := rfl
@[simp] theorem Dev.setMonDiv_bp (d : Dev) (b v gap : Nat) : (d.setMonDiv b v gap).bp = d.bp := rfl
@[simp] theorem Dev.setMonDiv_cal (d : Dev) (b v gap : Nat) : (d.setMonDiv b v gap).cal = d.cal := rfl
@[simp] theorem Dev.setMonDiv_therm (d : Dev) (b v gap : Nat) : (d.setMonDiv b v gap).therm = d.therm := rfl
@[simp] theorem Dev.setMonDiv_log (d : Dev) (b v gap : Nat) : (d.setMonDiv b v gap).log = d.log := rfl
@[simp] theorem Dev.setMonDiv_ucode (d : Dev) (b v gap : Nat) : (d.setMonDiv b v gap).ucode = d.ucode := rfl
@[simp] theorem Dev.setMonDiv_contain (d : Dev) (b v gap : Nat) : (d.setMonDiv b v gap).contain = d.contain := rfl
@[simp] theorem Dev.setMonDiv_supply (d : Dev) (b v gap : Nat) : (d.setMonDiv b v gap).supply = d.supply := rfl
@[simp] theorem Dev.setMonDiv_jtag (d : Dev) (b v gap : Nat) : (d.setMonDiv b v gap).jtag = d.jtag := rfl
@[simp] theorem Dev.setMonDiv_boot (d : Dev) (b v gap : Nat) : (d.setMonDiv b v gap).boot = d.boot := rfl
@[simp] theorem Dev.setMonDiv_evcRun (d : Dev) (b v gap : Nat) : (d.setMonDiv b v gap).evcRun = d.evcRun := rfl
@[simp] theorem Dev.setMonDiv_judging (d : Dev) (b v gap : Nat) : (d.setMonDiv b v gap).judging = d.judging := rfl
@[simp] theorem Dev.setMonDiv_freeCtr (d : Dev) (b v gap : Nat) : (d.setMonDiv b v gap).freeCtr = d.freeCtr := rfl
@[simp] theorem Dev.setMonDiv_ctx (d : Dev) (b v gap : Nat) (k : Nat) : (d.setMonDiv b v gap).ctx k = d.ctx k := rfl
@[simp] theorem Dev.setMonDiv_chan (d : Dev) (b v gap : Nat) (k : Nat) : (d.setMonDiv b v gap).chan k = d.chan k := rfl
@[simp] theorem Dev.setMonDiv_pat (d : Dev) (b v gap : Nat) (k : Nat) : (d.setMonDiv b v gap).pat k = d.pat k := rfl
@[simp] theorem Dev.setMonDiv_wfm (d : Dev) (b v gap : Nat) (k : Nat) : (d.setMonDiv b v gap).wfm k = d.wfm k := rfl
@[simp] theorem Dev.setMonDiv_cap (d : Dev) (b v gap : Nat) (k : Nat) : (d.setMonDiv b v gap).cap k = d.cap k := rfl
@[simp] theorem Dev.setMonDiv_tme (d : Dev) (b v gap : Nat) (k : Nat) : (d.setMonDiv b v gap).tme k = d.tme k := rfl
@[simp] theorem Dev.setMonDiv_mill (d : Dev) (b v gap : Nat) (k : Nat) : (d.setMonDiv b v gap).mill k = d.mill k := rfl
@[simp] theorem Dev.setMonDiv_dma (d : Dev) (b v gap : Nat) (k : Nat) : (d.setMonDiv b v gap).dma k = d.dma k := rfl
@[simp] theorem Dev.setMonDiv_rast (d : Dev) (b v gap : Nat) (k : Nat) : (d.setMonDiv b v gap).rast k = d.rast k := rfl
@[simp] theorem Dev.setMonDiv_box (d : Dev) (b v gap : Nat) (k : Nat) : (d.setMonDiv b v gap).box k = d.box k := rfl
@[simp] theorem Dev.setMonDiv_ustore (d : Dev) (b v gap : Nat) (k : Nat) : (d.setMonDiv b v gap).ustore k = d.ustore k := rfl
@[simp] theorem Dev.setMonDiv_unit (d : Dev) (b v gap : Nat) (k : Nat) : (d.setMonDiv b v gap).unit k = d.unit k := rfl
@[simp] theorem Dev.setMonDiv_rd (d : Dev) (b v gap : Nat) (g : Fld) : (d.setMonDiv b v gap).rd g = d.rd g := rfl
@[simp] theorem Dev.setMonDiv_on (d : Dev) (b v gap : Nat) (g : Fld) : (d.setMonDiv b v gap).on g = d.on g := rfl
@[simp] theorem Dev.setMonDiv_byte (d : Dev) (b v gap : Nat) (k : Nat) : (d.setMonDiv b v gap).byte k = d.byte k := rfl
@[simp] theorem Dev.setMonDiv_site (d : Dev) (b v gap : Nat) (k : Nat) : (d.setMonDiv b v gap).site k = d.site k := rfl
@[simp] theorem Dev.setMonDiv_owns (d : Dev) (b v gap : Nat) (m : Master) (k : Nat) : (d.setMonDiv b v gap).owns m k = d.owns m k := rfl
@[simp] theorem Dev.setMonDiv_inSite (d : Dev) (b v gap : Nat) (k i : Nat) : (d.setMonDiv b v gap).inSite k i = d.inSite k i := rfl

/-! setSensor. -/

@[simp] theorem Dev.setSensor_regs (d : Dev) (j : Nat) (x : Sensor) : (d.setSensor j x).regs = d.regs := rfl
@[simp] theorem Dev.setSensor_units (d : Dev) (j : Nat) (x : Sensor) : (d.setSensor j x).units = d.units := rfl
@[simp] theorem Dev.setSensor_inUse (d : Dev) (j : Nat) (x : Sensor) : (d.setSensor j x).inUse = d.inUse := rfl
@[simp] theorem Dev.setSensor_waitGran (d : Dev) (j : Nat) (x : Sensor) : (d.setSensor j x).waitGran = d.waitGran := rfl
@[simp] theorem Dev.setSensor_waitBus (d : Dev) (j : Nat) (x : Sensor) : (d.setSensor j x).waitBus = d.waitBus := rfl
@[simp] theorem Dev.setSensor_serving (d : Dev) (j : Nat) (x : Sensor) : (d.setSensor j x).serving = d.serving := rfl
@[simp] theorem Dev.setSensor_ports (d : Dev) (j : Nat) (x : Sensor) : (d.setSensor j x).ports = d.ports := rfl
@[simp] theorem Dev.setSensor_gran (d : Dev) (j : Nat) (x : Sensor) : (d.setSensor j x).gran = d.gran := rfl
@[simp] theorem Dev.setSensor_ctxs (d : Dev) (j : Nat) (x : Sensor) : (d.setSensor j x).ctxs = d.ctxs := rfl
@[simp] theorem Dev.setSensor_sites (d : Dev) (j : Nat) (x : Sensor) : (d.setSensor j x).sites = d.sites := rfl
@[simp] theorem Dev.setSensor_chmap (d : Dev) (j : Nat) (x : Sensor) : (d.setSensor j x).chmap = d.chmap := rfl
@[simp] theorem Dev.setSensor_ctxCmd (d : Dev) (j : Nat) (x : Sensor) : (d.setSensor j x).ctxCmd = d.ctxCmd := rfl
@[simp] theorem Dev.setSensor_icache (d : Dev) (j : Nat) (x : Sensor) : (d.setSensor j x).icache = d.icache := rfl
@[simp] theorem Dev.setSensor_icacheBusy (d : Dev) (j : Nat) (x : Sensor) : (d.setSensor j x).icacheBusy = d.icacheBusy := rfl
@[simp] theorem Dev.setSensor_chans (d : Dev) (j : Nat) (x : Sensor) : (d.setSensor j x).chans = d.chans := rfl
@[simp] theorem Dev.setSensor_mons (d : Dev) (j : Nat) (x : Sensor) : (d.setSensor j x).mons = d.mons := rfl
@[simp] theorem Dev.setSensor_pats (d : Dev) (j : Nat) (x : Sensor) : (d.setSensor j x).pats = d.pats := rfl
@[simp] theorem Dev.setSensor_segw (d : Dev) (j : Nat) (x : Sensor) : (d.setSensor j x).segw = d.segw := rfl
@[simp] theorem Dev.setSensor_wfms (d : Dev) (j : Nat) (x : Sensor) : (d.setSensor j x).wfms = d.wfms := rfl
@[simp] theorem Dev.setSensor_caps (d : Dev) (j : Nat) (x : Sensor) : (d.setSensor j x).caps = d.caps := rfl
@[simp] theorem Dev.setSensor_tmes (d : Dev) (j : Nat) (x : Sensor) : (d.setSensor j x).tmes = d.tmes := rfl
@[simp] theorem Dev.setSensor_mills (d : Dev) (j : Nat) (x : Sensor) : (d.setSensor j x).mills = d.mills := rfl
@[simp] theorem Dev.setSensor_rasts (d : Dev) (j : Nat) (x : Sensor) : (d.setSensor j x).rasts = d.rasts := rfl
@[simp] theorem Dev.setSensor_dmas (d : Dev) (j : Nat) (x : Sensor) : (d.setSensor j x).dmas = d.dmas := rfl
@[simp] theorem Dev.setSensor_pcie (d : Dev) (j : Nat) (x : Sensor) : (d.setSensor j x).pcie = d.pcie := rfl
@[simp] theorem Dev.setSensor_reed (d : Dev) (j : Nat) (x : Sensor) : (d.setSensor j x).reed = d.reed := rfl
@[simp] theorem Dev.setSensor_flash (d : Dev) (j : Nat) (x : Sensor) : (d.setSensor j x).flash = d.flash := rfl
@[simp] theorem Dev.setSensor_bp (d : Dev) (j : Nat) (x : Sensor) : (d.setSensor j x).bp = d.bp := rfl
@[simp] theorem Dev.setSensor_cal (d : Dev) (j : Nat) (x : Sensor) : (d.setSensor j x).cal = d.cal := rfl
@[simp] theorem Dev.setSensor_log (d : Dev) (j : Nat) (x : Sensor) : (d.setSensor j x).log = d.log := rfl
@[simp] theorem Dev.setSensor_ucode (d : Dev) (j : Nat) (x : Sensor) : (d.setSensor j x).ucode = d.ucode := rfl
@[simp] theorem Dev.setSensor_contain (d : Dev) (j : Nat) (x : Sensor) : (d.setSensor j x).contain = d.contain := rfl
@[simp] theorem Dev.setSensor_supply (d : Dev) (j : Nat) (x : Sensor) : (d.setSensor j x).supply = d.supply := rfl
@[simp] theorem Dev.setSensor_jtag (d : Dev) (j : Nat) (x : Sensor) : (d.setSensor j x).jtag = d.jtag := rfl
@[simp] theorem Dev.setSensor_boot (d : Dev) (j : Nat) (x : Sensor) : (d.setSensor j x).boot = d.boot := rfl
@[simp] theorem Dev.setSensor_evcRun (d : Dev) (j : Nat) (x : Sensor) : (d.setSensor j x).evcRun = d.evcRun := rfl
@[simp] theorem Dev.setSensor_judging (d : Dev) (j : Nat) (x : Sensor) : (d.setSensor j x).judging = d.judging := rfl
@[simp] theorem Dev.setSensor_freeCtr (d : Dev) (j : Nat) (x : Sensor) : (d.setSensor j x).freeCtr = d.freeCtr := rfl
@[simp] theorem Dev.setSensor_ctx (d : Dev) (j : Nat) (x : Sensor) (k : Nat) : (d.setSensor j x).ctx k = d.ctx k := rfl
@[simp] theorem Dev.setSensor_chan (d : Dev) (j : Nat) (x : Sensor) (k : Nat) : (d.setSensor j x).chan k = d.chan k := rfl
@[simp] theorem Dev.setSensor_pat (d : Dev) (j : Nat) (x : Sensor) (k : Nat) : (d.setSensor j x).pat k = d.pat k := rfl
@[simp] theorem Dev.setSensor_wfm (d : Dev) (j : Nat) (x : Sensor) (k : Nat) : (d.setSensor j x).wfm k = d.wfm k := rfl
@[simp] theorem Dev.setSensor_cap (d : Dev) (j : Nat) (x : Sensor) (k : Nat) : (d.setSensor j x).cap k = d.cap k := rfl
@[simp] theorem Dev.setSensor_tme (d : Dev) (j : Nat) (x : Sensor) (k : Nat) : (d.setSensor j x).tme k = d.tme k := rfl
@[simp] theorem Dev.setSensor_mill (d : Dev) (j : Nat) (x : Sensor) (k : Nat) : (d.setSensor j x).mill k = d.mill k := rfl
@[simp] theorem Dev.setSensor_dma (d : Dev) (j : Nat) (x : Sensor) (k : Nat) : (d.setSensor j x).dma k = d.dma k := rfl
@[simp] theorem Dev.setSensor_rast (d : Dev) (j : Nat) (x : Sensor) (k : Nat) : (d.setSensor j x).rast k = d.rast k := rfl
@[simp] theorem Dev.setSensor_box (d : Dev) (j : Nat) (x : Sensor) (k : Nat) : (d.setSensor j x).box k = d.box k := rfl
@[simp] theorem Dev.setSensor_ustore (d : Dev) (j : Nat) (x : Sensor) (k : Nat) : (d.setSensor j x).ustore k = d.ustore k := rfl
@[simp] theorem Dev.setSensor_unit (d : Dev) (j : Nat) (x : Sensor) (k : Nat) : (d.setSensor j x).unit k = d.unit k := rfl
@[simp] theorem Dev.setSensor_rd (d : Dev) (j : Nat) (x : Sensor) (g : Fld) : (d.setSensor j x).rd g = d.rd g := rfl
@[simp] theorem Dev.setSensor_on (d : Dev) (j : Nat) (x : Sensor) (g : Fld) : (d.setSensor j x).on g = d.on g := rfl
@[simp] theorem Dev.setSensor_byte (d : Dev) (j : Nat) (x : Sensor) (k : Nat) : (d.setSensor j x).byte k = d.byte k := rfl
@[simp] theorem Dev.setSensor_site (d : Dev) (j : Nat) (x : Sensor) (k : Nat) : (d.setSensor j x).site k = d.site k := rfl
@[simp] theorem Dev.setSensor_owns (d : Dev) (j : Nat) (x : Sensor) (m : Master) (k : Nat) : (d.setSensor j x).owns m k = d.owns m k := rfl
@[simp] theorem Dev.setSensor_inSite (d : Dev) (j : Nat) (x : Sensor) (k i : Nat) : (d.setSensor j x).inSite k i = d.inSite k i := rfl

/-! setLow. -/

@[simp] theorem Dev.setLow_regs (d : Dev) (pk low : Nat) (v : BitVec 32) : (d.setLow pk low v).regs = d.regs := rfl
@[simp] theorem Dev.setLow_units (d : Dev) (pk low : Nat) (v : BitVec 32) : (d.setLow pk low v).units = d.units := rfl
@[simp] theorem Dev.setLow_inUse (d : Dev) (pk low : Nat) (v : BitVec 32) : (d.setLow pk low v).inUse = d.inUse := rfl
@[simp] theorem Dev.setLow_waitGran (d : Dev) (pk low : Nat) (v : BitVec 32) : (d.setLow pk low v).waitGran = d.waitGran := rfl
@[simp] theorem Dev.setLow_waitBus (d : Dev) (pk low : Nat) (v : BitVec 32) : (d.setLow pk low v).waitBus = d.waitBus := rfl
@[simp] theorem Dev.setLow_serving (d : Dev) (pk low : Nat) (v : BitVec 32) : (d.setLow pk low v).serving = d.serving := rfl
@[simp] theorem Dev.setLow_gran (d : Dev) (pk low : Nat) (v : BitVec 32) : (d.setLow pk low v).gran = d.gran := rfl
@[simp] theorem Dev.setLow_ctxs (d : Dev) (pk low : Nat) (v : BitVec 32) : (d.setLow pk low v).ctxs = d.ctxs := rfl
@[simp] theorem Dev.setLow_sites (d : Dev) (pk low : Nat) (v : BitVec 32) : (d.setLow pk low v).sites = d.sites := rfl
@[simp] theorem Dev.setLow_chmap (d : Dev) (pk low : Nat) (v : BitVec 32) : (d.setLow pk low v).chmap = d.chmap := rfl
@[simp] theorem Dev.setLow_ctxCmd (d : Dev) (pk low : Nat) (v : BitVec 32) : (d.setLow pk low v).ctxCmd = d.ctxCmd := rfl
@[simp] theorem Dev.setLow_icache (d : Dev) (pk low : Nat) (v : BitVec 32) : (d.setLow pk low v).icache = d.icache := rfl
@[simp] theorem Dev.setLow_icacheBusy (d : Dev) (pk low : Nat) (v : BitVec 32) : (d.setLow pk low v).icacheBusy = d.icacheBusy := rfl
@[simp] theorem Dev.setLow_chans (d : Dev) (pk low : Nat) (v : BitVec 32) : (d.setLow pk low v).chans = d.chans := rfl
@[simp] theorem Dev.setLow_mons (d : Dev) (pk low : Nat) (v : BitVec 32) : (d.setLow pk low v).mons = d.mons := rfl
@[simp] theorem Dev.setLow_pats (d : Dev) (pk low : Nat) (v : BitVec 32) : (d.setLow pk low v).pats = d.pats := rfl
@[simp] theorem Dev.setLow_segw (d : Dev) (pk low : Nat) (v : BitVec 32) : (d.setLow pk low v).segw = d.segw := rfl
@[simp] theorem Dev.setLow_wfms (d : Dev) (pk low : Nat) (v : BitVec 32) : (d.setLow pk low v).wfms = d.wfms := rfl
@[simp] theorem Dev.setLow_caps (d : Dev) (pk low : Nat) (v : BitVec 32) : (d.setLow pk low v).caps = d.caps := rfl
@[simp] theorem Dev.setLow_tmes (d : Dev) (pk low : Nat) (v : BitVec 32) : (d.setLow pk low v).tmes = d.tmes := rfl
@[simp] theorem Dev.setLow_mills (d : Dev) (pk low : Nat) (v : BitVec 32) : (d.setLow pk low v).mills = d.mills := rfl
@[simp] theorem Dev.setLow_rasts (d : Dev) (pk low : Nat) (v : BitVec 32) : (d.setLow pk low v).rasts = d.rasts := rfl
@[simp] theorem Dev.setLow_dmas (d : Dev) (pk low : Nat) (v : BitVec 32) : (d.setLow pk low v).dmas = d.dmas := rfl
@[simp] theorem Dev.setLow_pcie (d : Dev) (pk low : Nat) (v : BitVec 32) : (d.setLow pk low v).pcie = d.pcie := rfl
@[simp] theorem Dev.setLow_reed (d : Dev) (pk low : Nat) (v : BitVec 32) : (d.setLow pk low v).reed = d.reed := rfl
@[simp] theorem Dev.setLow_flash (d : Dev) (pk low : Nat) (v : BitVec 32) : (d.setLow pk low v).flash = d.flash := rfl
@[simp] theorem Dev.setLow_bp (d : Dev) (pk low : Nat) (v : BitVec 32) : (d.setLow pk low v).bp = d.bp := rfl
@[simp] theorem Dev.setLow_cal (d : Dev) (pk low : Nat) (v : BitVec 32) : (d.setLow pk low v).cal = d.cal := rfl
@[simp] theorem Dev.setLow_therm (d : Dev) (pk low : Nat) (v : BitVec 32) : (d.setLow pk low v).therm = d.therm := rfl
@[simp] theorem Dev.setLow_log (d : Dev) (pk low : Nat) (v : BitVec 32) : (d.setLow pk low v).log = d.log := rfl
@[simp] theorem Dev.setLow_ucode (d : Dev) (pk low : Nat) (v : BitVec 32) : (d.setLow pk low v).ucode = d.ucode := rfl
@[simp] theorem Dev.setLow_contain (d : Dev) (pk low : Nat) (v : BitVec 32) : (d.setLow pk low v).contain = d.contain := rfl
@[simp] theorem Dev.setLow_supply (d : Dev) (pk low : Nat) (v : BitVec 32) : (d.setLow pk low v).supply = d.supply := rfl
@[simp] theorem Dev.setLow_jtag (d : Dev) (pk low : Nat) (v : BitVec 32) : (d.setLow pk low v).jtag = d.jtag := rfl
@[simp] theorem Dev.setLow_boot (d : Dev) (pk low : Nat) (v : BitVec 32) : (d.setLow pk low v).boot = d.boot := rfl
@[simp] theorem Dev.setLow_evcRun (d : Dev) (pk low : Nat) (v : BitVec 32) : (d.setLow pk low v).evcRun = d.evcRun := rfl
@[simp] theorem Dev.setLow_judging (d : Dev) (pk low : Nat) (v : BitVec 32) : (d.setLow pk low v).judging = d.judging := rfl
@[simp] theorem Dev.setLow_freeCtr (d : Dev) (pk low : Nat) (v : BitVec 32) : (d.setLow pk low v).freeCtr = d.freeCtr := rfl
@[simp] theorem Dev.setLow_ctx (d : Dev) (pk low : Nat) (v : BitVec 32) (k : Nat) : (d.setLow pk low v).ctx k = d.ctx k := rfl
@[simp] theorem Dev.setLow_chan (d : Dev) (pk low : Nat) (v : BitVec 32) (k : Nat) : (d.setLow pk low v).chan k = d.chan k := rfl
@[simp] theorem Dev.setLow_pat (d : Dev) (pk low : Nat) (v : BitVec 32) (k : Nat) : (d.setLow pk low v).pat k = d.pat k := rfl
@[simp] theorem Dev.setLow_wfm (d : Dev) (pk low : Nat) (v : BitVec 32) (k : Nat) : (d.setLow pk low v).wfm k = d.wfm k := rfl
@[simp] theorem Dev.setLow_cap (d : Dev) (pk low : Nat) (v : BitVec 32) (k : Nat) : (d.setLow pk low v).cap k = d.cap k := rfl
@[simp] theorem Dev.setLow_tme (d : Dev) (pk low : Nat) (v : BitVec 32) (k : Nat) : (d.setLow pk low v).tme k = d.tme k := rfl
@[simp] theorem Dev.setLow_mill (d : Dev) (pk low : Nat) (v : BitVec 32) (k : Nat) : (d.setLow pk low v).mill k = d.mill k := rfl
@[simp] theorem Dev.setLow_dma (d : Dev) (pk low : Nat) (v : BitVec 32) (k : Nat) : (d.setLow pk low v).dma k = d.dma k := rfl
@[simp] theorem Dev.setLow_rast (d : Dev) (pk low : Nat) (v : BitVec 32) (k : Nat) : (d.setLow pk low v).rast k = d.rast k := rfl
@[simp] theorem Dev.setLow_box (d : Dev) (pk low : Nat) (v : BitVec 32) (k : Nat) : (d.setLow pk low v).box k = d.box k := rfl
@[simp] theorem Dev.setLow_ustore (d : Dev) (pk low : Nat) (v : BitVec 32) (k : Nat) : (d.setLow pk low v).ustore k = d.ustore k := rfl
@[simp] theorem Dev.setLow_unit (d : Dev) (pk low : Nat) (v : BitVec 32) (k : Nat) : (d.setLow pk low v).unit k = d.unit k := rfl
@[simp] theorem Dev.setLow_rd (d : Dev) (pk low : Nat) (v : BitVec 32) (g : Fld) : (d.setLow pk low v).rd g = d.rd g := rfl
@[simp] theorem Dev.setLow_on (d : Dev) (pk low : Nat) (v : BitVec 32) (g : Fld) : (d.setLow pk low v).on g = d.on g := rfl
@[simp] theorem Dev.setLow_byte (d : Dev) (pk low : Nat) (v : BitVec 32) (k : Nat) : (d.setLow pk low v).byte k = d.byte k := rfl
@[simp] theorem Dev.setLow_site (d : Dev) (pk low : Nat) (v : BitVec 32) (k : Nat) : (d.setLow pk low v).site k = d.site k := rfl
@[simp] theorem Dev.setLow_owns (d : Dev) (pk low : Nat) (v : BitVec 32) (m : Master) (k : Nat) : (d.setLow pk low v).owns m k = d.owns m k := rfl
@[simp] theorem Dev.setLow_inSite (d : Dev) (pk low : Nat) (v : BitVec 32) (k i : Nat) : (d.setLow pk low v).inSite k i = d.inSite k i := rfl

/-! answer. -/

@[simp] theorem Dev.answer_regs (d : Dev) (p : Port) (v : Nat) : (d.answer p v).regs = d.regs := rfl
@[simp] theorem Dev.answer_units (d : Dev) (p : Port) (v : Nat) : (d.answer p v).units = d.units := rfl
@[simp] theorem Dev.answer_inUse (d : Dev) (p : Port) (v : Nat) : (d.answer p v).inUse = d.inUse := rfl
@[simp] theorem Dev.answer_waitGran (d : Dev) (p : Port) (v : Nat) : (d.answer p v).waitGran = d.waitGran := rfl
@[simp] theorem Dev.answer_waitBus (d : Dev) (p : Port) (v : Nat) : (d.answer p v).waitBus = d.waitBus := rfl
@[simp] theorem Dev.answer_serving (d : Dev) (p : Port) (v : Nat) : (d.answer p v).serving = d.serving := rfl
@[simp] theorem Dev.answer_gran (d : Dev) (p : Port) (v : Nat) : (d.answer p v).gran = d.gran := rfl
@[simp] theorem Dev.answer_ctxs (d : Dev) (p : Port) (v : Nat) : (d.answer p v).ctxs = d.ctxs := rfl
@[simp] theorem Dev.answer_sites (d : Dev) (p : Port) (v : Nat) : (d.answer p v).sites = d.sites := rfl
@[simp] theorem Dev.answer_chmap (d : Dev) (p : Port) (v : Nat) : (d.answer p v).chmap = d.chmap := rfl
@[simp] theorem Dev.answer_ctxCmd (d : Dev) (p : Port) (v : Nat) : (d.answer p v).ctxCmd = d.ctxCmd := rfl
@[simp] theorem Dev.answer_icache (d : Dev) (p : Port) (v : Nat) : (d.answer p v).icache = d.icache := rfl
@[simp] theorem Dev.answer_icacheBusy (d : Dev) (p : Port) (v : Nat) : (d.answer p v).icacheBusy = d.icacheBusy := rfl
@[simp] theorem Dev.answer_chans (d : Dev) (p : Port) (v : Nat) : (d.answer p v).chans = d.chans := rfl
@[simp] theorem Dev.answer_mons (d : Dev) (p : Port) (v : Nat) : (d.answer p v).mons = d.mons := rfl
@[simp] theorem Dev.answer_pats (d : Dev) (p : Port) (v : Nat) : (d.answer p v).pats = d.pats := rfl
@[simp] theorem Dev.answer_segw (d : Dev) (p : Port) (v : Nat) : (d.answer p v).segw = d.segw := rfl
@[simp] theorem Dev.answer_wfms (d : Dev) (p : Port) (v : Nat) : (d.answer p v).wfms = d.wfms := rfl
@[simp] theorem Dev.answer_caps (d : Dev) (p : Port) (v : Nat) : (d.answer p v).caps = d.caps := rfl
@[simp] theorem Dev.answer_tmes (d : Dev) (p : Port) (v : Nat) : (d.answer p v).tmes = d.tmes := rfl
@[simp] theorem Dev.answer_mills (d : Dev) (p : Port) (v : Nat) : (d.answer p v).mills = d.mills := rfl
@[simp] theorem Dev.answer_rasts (d : Dev) (p : Port) (v : Nat) : (d.answer p v).rasts = d.rasts := rfl
@[simp] theorem Dev.answer_dmas (d : Dev) (p : Port) (v : Nat) : (d.answer p v).dmas = d.dmas := rfl
@[simp] theorem Dev.answer_pcie (d : Dev) (p : Port) (v : Nat) : (d.answer p v).pcie = d.pcie := rfl
@[simp] theorem Dev.answer_reed (d : Dev) (p : Port) (v : Nat) : (d.answer p v).reed = d.reed := rfl
@[simp] theorem Dev.answer_flash (d : Dev) (p : Port) (v : Nat) : (d.answer p v).flash = d.flash := rfl
@[simp] theorem Dev.answer_bp (d : Dev) (p : Port) (v : Nat) : (d.answer p v).bp = d.bp := rfl
@[simp] theorem Dev.answer_cal (d : Dev) (p : Port) (v : Nat) : (d.answer p v).cal = d.cal := rfl
@[simp] theorem Dev.answer_therm (d : Dev) (p : Port) (v : Nat) : (d.answer p v).therm = d.therm := rfl
@[simp] theorem Dev.answer_log (d : Dev) (p : Port) (v : Nat) : (d.answer p v).log = d.log := rfl
@[simp] theorem Dev.answer_ucode (d : Dev) (p : Port) (v : Nat) : (d.answer p v).ucode = d.ucode := rfl
@[simp] theorem Dev.answer_contain (d : Dev) (p : Port) (v : Nat) : (d.answer p v).contain = d.contain := rfl
@[simp] theorem Dev.answer_supply (d : Dev) (p : Port) (v : Nat) : (d.answer p v).supply = d.supply := rfl
@[simp] theorem Dev.answer_jtag (d : Dev) (p : Port) (v : Nat) : (d.answer p v).jtag = d.jtag := rfl
@[simp] theorem Dev.answer_boot (d : Dev) (p : Port) (v : Nat) : (d.answer p v).boot = d.boot := rfl
@[simp] theorem Dev.answer_evcRun (d : Dev) (p : Port) (v : Nat) : (d.answer p v).evcRun = d.evcRun := rfl
@[simp] theorem Dev.answer_judging (d : Dev) (p : Port) (v : Nat) : (d.answer p v).judging = d.judging := rfl
@[simp] theorem Dev.answer_freeCtr (d : Dev) (p : Port) (v : Nat) : (d.answer p v).freeCtr = d.freeCtr := rfl
@[simp] theorem Dev.answer_ctx (d : Dev) (p : Port) (v : Nat) (k : Nat) : (d.answer p v).ctx k = d.ctx k := rfl
@[simp] theorem Dev.answer_chan (d : Dev) (p : Port) (v : Nat) (k : Nat) : (d.answer p v).chan k = d.chan k := rfl
@[simp] theorem Dev.answer_pat (d : Dev) (p : Port) (v : Nat) (k : Nat) : (d.answer p v).pat k = d.pat k := rfl
@[simp] theorem Dev.answer_wfm (d : Dev) (p : Port) (v : Nat) (k : Nat) : (d.answer p v).wfm k = d.wfm k := rfl
@[simp] theorem Dev.answer_cap (d : Dev) (p : Port) (v : Nat) (k : Nat) : (d.answer p v).cap k = d.cap k := rfl
@[simp] theorem Dev.answer_tme (d : Dev) (p : Port) (v : Nat) (k : Nat) : (d.answer p v).tme k = d.tme k := rfl
@[simp] theorem Dev.answer_mill (d : Dev) (p : Port) (v : Nat) (k : Nat) : (d.answer p v).mill k = d.mill k := rfl
@[simp] theorem Dev.answer_dma (d : Dev) (p : Port) (v : Nat) (k : Nat) : (d.answer p v).dma k = d.dma k := rfl
@[simp] theorem Dev.answer_rast (d : Dev) (p : Port) (v : Nat) (k : Nat) : (d.answer p v).rast k = d.rast k := rfl
@[simp] theorem Dev.answer_box (d : Dev) (p : Port) (v : Nat) (k : Nat) : (d.answer p v).box k = d.box k := rfl
@[simp] theorem Dev.answer_ustore (d : Dev) (p : Port) (v : Nat) (k : Nat) : (d.answer p v).ustore k = d.ustore k := rfl
@[simp] theorem Dev.answer_unit (d : Dev) (p : Port) (v : Nat) (k : Nat) : (d.answer p v).unit k = d.unit k := rfl
@[simp] theorem Dev.answer_rd (d : Dev) (p : Port) (v : Nat) (g : Fld) : (d.answer p v).rd g = d.rd g := rfl
@[simp] theorem Dev.answer_on (d : Dev) (p : Port) (v : Nat) (g : Fld) : (d.answer p v).on g = d.on g := rfl
@[simp] theorem Dev.answer_byte (d : Dev) (p : Port) (v : Nat) (k : Nat) : (d.answer p v).byte k = d.byte k := rfl
@[simp] theorem Dev.answer_site (d : Dev) (p : Port) (v : Nat) (k : Nat) : (d.answer p v).site k = d.site k := rfl
@[simp] theorem Dev.answer_owns (d : Dev) (p : Port) (v : Nat) (m : Master) (k : Nat) : (d.answer p v).owns m k = d.owns m k := rfl
@[simp] theorem Dev.answer_inSite (d : Dev) (p : Port) (v : Nat) (k i : Nat) : (d.answer p v).inSite k i = d.inSite k i := rfl

/-! setEcc. -/

@[simp] theorem Dev.setEcc_regs (d : Dev) (h : Nat) (e : Ecc) : (d.setEcc h e).regs = d.regs := rfl
@[simp] theorem Dev.setEcc_units (d : Dev) (h : Nat) (e : Ecc) : (d.setEcc h e).units = d.units := rfl
@[simp] theorem Dev.setEcc_inUse (d : Dev) (h : Nat) (e : Ecc) : (d.setEcc h e).inUse = d.inUse := rfl
@[simp] theorem Dev.setEcc_waitGran (d : Dev) (h : Nat) (e : Ecc) : (d.setEcc h e).waitGran = d.waitGran := rfl
@[simp] theorem Dev.setEcc_waitBus (d : Dev) (h : Nat) (e : Ecc) : (d.setEcc h e).waitBus = d.waitBus := rfl
@[simp] theorem Dev.setEcc_serving (d : Dev) (h : Nat) (e : Ecc) : (d.setEcc h e).serving = d.serving := rfl
@[simp] theorem Dev.setEcc_ports (d : Dev) (h : Nat) (e : Ecc) : (d.setEcc h e).ports = d.ports := rfl
@[simp] theorem Dev.setEcc_ctxs (d : Dev) (h : Nat) (e : Ecc) : (d.setEcc h e).ctxs = d.ctxs := rfl
@[simp] theorem Dev.setEcc_sites (d : Dev) (h : Nat) (e : Ecc) : (d.setEcc h e).sites = d.sites := rfl
@[simp] theorem Dev.setEcc_chmap (d : Dev) (h : Nat) (e : Ecc) : (d.setEcc h e).chmap = d.chmap := rfl
@[simp] theorem Dev.setEcc_ctxCmd (d : Dev) (h : Nat) (e : Ecc) : (d.setEcc h e).ctxCmd = d.ctxCmd := rfl
@[simp] theorem Dev.setEcc_icache (d : Dev) (h : Nat) (e : Ecc) : (d.setEcc h e).icache = d.icache := rfl
@[simp] theorem Dev.setEcc_icacheBusy (d : Dev) (h : Nat) (e : Ecc) : (d.setEcc h e).icacheBusy = d.icacheBusy := rfl
@[simp] theorem Dev.setEcc_chans (d : Dev) (h : Nat) (e : Ecc) : (d.setEcc h e).chans = d.chans := rfl
@[simp] theorem Dev.setEcc_mons (d : Dev) (h : Nat) (e : Ecc) : (d.setEcc h e).mons = d.mons := rfl
@[simp] theorem Dev.setEcc_pats (d : Dev) (h : Nat) (e : Ecc) : (d.setEcc h e).pats = d.pats := rfl
@[simp] theorem Dev.setEcc_segw (d : Dev) (h : Nat) (e : Ecc) : (d.setEcc h e).segw = d.segw := rfl
@[simp] theorem Dev.setEcc_wfms (d : Dev) (h : Nat) (e : Ecc) : (d.setEcc h e).wfms = d.wfms := rfl
@[simp] theorem Dev.setEcc_caps (d : Dev) (h : Nat) (e : Ecc) : (d.setEcc h e).caps = d.caps := rfl
@[simp] theorem Dev.setEcc_tmes (d : Dev) (h : Nat) (e : Ecc) : (d.setEcc h e).tmes = d.tmes := rfl
@[simp] theorem Dev.setEcc_mills (d : Dev) (h : Nat) (e : Ecc) : (d.setEcc h e).mills = d.mills := rfl
@[simp] theorem Dev.setEcc_rasts (d : Dev) (h : Nat) (e : Ecc) : (d.setEcc h e).rasts = d.rasts := rfl
@[simp] theorem Dev.setEcc_dmas (d : Dev) (h : Nat) (e : Ecc) : (d.setEcc h e).dmas = d.dmas := rfl
@[simp] theorem Dev.setEcc_pcie (d : Dev) (h : Nat) (e : Ecc) : (d.setEcc h e).pcie = d.pcie := rfl
@[simp] theorem Dev.setEcc_reed (d : Dev) (h : Nat) (e : Ecc) : (d.setEcc h e).reed = d.reed := rfl
@[simp] theorem Dev.setEcc_flash (d : Dev) (h : Nat) (e : Ecc) : (d.setEcc h e).flash = d.flash := rfl
@[simp] theorem Dev.setEcc_bp (d : Dev) (h : Nat) (e : Ecc) : (d.setEcc h e).bp = d.bp := rfl
@[simp] theorem Dev.setEcc_cal (d : Dev) (h : Nat) (e : Ecc) : (d.setEcc h e).cal = d.cal := rfl
@[simp] theorem Dev.setEcc_therm (d : Dev) (h : Nat) (e : Ecc) : (d.setEcc h e).therm = d.therm := rfl
@[simp] theorem Dev.setEcc_log (d : Dev) (h : Nat) (e : Ecc) : (d.setEcc h e).log = d.log := rfl
@[simp] theorem Dev.setEcc_ucode (d : Dev) (h : Nat) (e : Ecc) : (d.setEcc h e).ucode = d.ucode := rfl
@[simp] theorem Dev.setEcc_contain (d : Dev) (h : Nat) (e : Ecc) : (d.setEcc h e).contain = d.contain := rfl
@[simp] theorem Dev.setEcc_supply (d : Dev) (h : Nat) (e : Ecc) : (d.setEcc h e).supply = d.supply := rfl
@[simp] theorem Dev.setEcc_jtag (d : Dev) (h : Nat) (e : Ecc) : (d.setEcc h e).jtag = d.jtag := rfl
@[simp] theorem Dev.setEcc_boot (d : Dev) (h : Nat) (e : Ecc) : (d.setEcc h e).boot = d.boot := rfl
@[simp] theorem Dev.setEcc_evcRun (d : Dev) (h : Nat) (e : Ecc) : (d.setEcc h e).evcRun = d.evcRun := rfl
@[simp] theorem Dev.setEcc_judging (d : Dev) (h : Nat) (e : Ecc) : (d.setEcc h e).judging = d.judging := rfl
@[simp] theorem Dev.setEcc_freeCtr (d : Dev) (h : Nat) (e : Ecc) : (d.setEcc h e).freeCtr = d.freeCtr := rfl
@[simp] theorem Dev.setEcc_ctx (d : Dev) (h : Nat) (e : Ecc) (k : Nat) : (d.setEcc h e).ctx k = d.ctx k := rfl
@[simp] theorem Dev.setEcc_chan (d : Dev) (h : Nat) (e : Ecc) (k : Nat) : (d.setEcc h e).chan k = d.chan k := rfl
@[simp] theorem Dev.setEcc_pat (d : Dev) (h : Nat) (e : Ecc) (k : Nat) : (d.setEcc h e).pat k = d.pat k := rfl
@[simp] theorem Dev.setEcc_wfm (d : Dev) (h : Nat) (e : Ecc) (k : Nat) : (d.setEcc h e).wfm k = d.wfm k := rfl
@[simp] theorem Dev.setEcc_cap (d : Dev) (h : Nat) (e : Ecc) (k : Nat) : (d.setEcc h e).cap k = d.cap k := rfl
@[simp] theorem Dev.setEcc_tme (d : Dev) (h : Nat) (e : Ecc) (k : Nat) : (d.setEcc h e).tme k = d.tme k := rfl
@[simp] theorem Dev.setEcc_mill (d : Dev) (h : Nat) (e : Ecc) (k : Nat) : (d.setEcc h e).mill k = d.mill k := rfl
@[simp] theorem Dev.setEcc_dma (d : Dev) (h : Nat) (e : Ecc) (k : Nat) : (d.setEcc h e).dma k = d.dma k := rfl
@[simp] theorem Dev.setEcc_rast (d : Dev) (h : Nat) (e : Ecc) (k : Nat) : (d.setEcc h e).rast k = d.rast k := rfl
@[simp] theorem Dev.setEcc_box (d : Dev) (h : Nat) (e : Ecc) (k : Nat) : (d.setEcc h e).box k = d.box k := rfl
@[simp] theorem Dev.setEcc_ustore (d : Dev) (h : Nat) (e : Ecc) (k : Nat) : (d.setEcc h e).ustore k = d.ustore k := rfl
@[simp] theorem Dev.setEcc_unit (d : Dev) (h : Nat) (e : Ecc) (k : Nat) : (d.setEcc h e).unit k = d.unit k := rfl
@[simp] theorem Dev.setEcc_rd (d : Dev) (h : Nat) (e : Ecc) (g : Fld) : (d.setEcc h e).rd g = d.rd g := rfl
@[simp] theorem Dev.setEcc_on (d : Dev) (h : Nat) (e : Ecc) (g : Fld) : (d.setEcc h e).on g = d.on g := rfl
@[simp] theorem Dev.setEcc_site (d : Dev) (h : Nat) (e : Ecc) (k : Nat) : (d.setEcc h e).site k = d.site k := rfl
@[simp] theorem Dev.setEcc_owns (d : Dev) (h : Nat) (e : Ecc) (m : Master) (k : Nat) : (d.setEcc h e).owns m k = d.owns m k := rfl
@[simp] theorem Dev.setEcc_inSite (d : Dev) (h : Nat) (e : Ecc) (k i : Nat) : (d.setEcc h e).inSite k i = d.inSite k i := rfl

/-! tookFree. -/

@[simp] theorem Dev.tookFree_regs (d : Dev) : (d.tookFree).regs = d.regs := rfl
@[simp] theorem Dev.tookFree_units (d : Dev) : (d.tookFree).units = d.units := rfl
@[simp] theorem Dev.tookFree_inUse (d : Dev) : (d.tookFree).inUse = d.inUse := rfl
@[simp] theorem Dev.tookFree_waitGran (d : Dev) : (d.tookFree).waitGran = d.waitGran := rfl
@[simp] theorem Dev.tookFree_waitBus (d : Dev) : (d.tookFree).waitBus = d.waitBus := rfl
@[simp] theorem Dev.tookFree_serving (d : Dev) : (d.tookFree).serving = d.serving := rfl
@[simp] theorem Dev.tookFree_ports (d : Dev) : (d.tookFree).ports = d.ports := rfl
@[simp] theorem Dev.tookFree_gran (d : Dev) : (d.tookFree).gran = d.gran := rfl
@[simp] theorem Dev.tookFree_ctxs (d : Dev) : (d.tookFree).ctxs = d.ctxs := rfl
@[simp] theorem Dev.tookFree_sites (d : Dev) : (d.tookFree).sites = d.sites := rfl
@[simp] theorem Dev.tookFree_chmap (d : Dev) : (d.tookFree).chmap = d.chmap := rfl
@[simp] theorem Dev.tookFree_ctxCmd (d : Dev) : (d.tookFree).ctxCmd = d.ctxCmd := rfl
@[simp] theorem Dev.tookFree_icache (d : Dev) : (d.tookFree).icache = d.icache := rfl
@[simp] theorem Dev.tookFree_icacheBusy (d : Dev) : (d.tookFree).icacheBusy = d.icacheBusy := rfl
@[simp] theorem Dev.tookFree_chans (d : Dev) : (d.tookFree).chans = d.chans := rfl
@[simp] theorem Dev.tookFree_mons (d : Dev) : (d.tookFree).mons = d.mons := rfl
@[simp] theorem Dev.tookFree_pats (d : Dev) : (d.tookFree).pats = d.pats := rfl
@[simp] theorem Dev.tookFree_segw (d : Dev) : (d.tookFree).segw = d.segw := rfl
@[simp] theorem Dev.tookFree_wfms (d : Dev) : (d.tookFree).wfms = d.wfms := rfl
@[simp] theorem Dev.tookFree_caps (d : Dev) : (d.tookFree).caps = d.caps := rfl
@[simp] theorem Dev.tookFree_tmes (d : Dev) : (d.tookFree).tmes = d.tmes := rfl
@[simp] theorem Dev.tookFree_mills (d : Dev) : (d.tookFree).mills = d.mills := rfl
@[simp] theorem Dev.tookFree_rasts (d : Dev) : (d.tookFree).rasts = d.rasts := rfl
@[simp] theorem Dev.tookFree_dmas (d : Dev) : (d.tookFree).dmas = d.dmas := rfl
@[simp] theorem Dev.tookFree_pcie (d : Dev) : (d.tookFree).pcie = d.pcie := rfl
@[simp] theorem Dev.tookFree_reed (d : Dev) : (d.tookFree).reed = d.reed := rfl
@[simp] theorem Dev.tookFree_flash (d : Dev) : (d.tookFree).flash = d.flash := rfl
@[simp] theorem Dev.tookFree_bp (d : Dev) : (d.tookFree).bp = d.bp := rfl
@[simp] theorem Dev.tookFree_cal (d : Dev) : (d.tookFree).cal = d.cal := rfl
@[simp] theorem Dev.tookFree_therm (d : Dev) : (d.tookFree).therm = d.therm := rfl
@[simp] theorem Dev.tookFree_log (d : Dev) : (d.tookFree).log = d.log := rfl
@[simp] theorem Dev.tookFree_ucode (d : Dev) : (d.tookFree).ucode = d.ucode := rfl
@[simp] theorem Dev.tookFree_contain (d : Dev) : (d.tookFree).contain = d.contain := rfl
@[simp] theorem Dev.tookFree_supply (d : Dev) : (d.tookFree).supply = d.supply := rfl
@[simp] theorem Dev.tookFree_jtag (d : Dev) : (d.tookFree).jtag = d.jtag := rfl
@[simp] theorem Dev.tookFree_boot (d : Dev) : (d.tookFree).boot = d.boot := rfl
@[simp] theorem Dev.tookFree_evcRun (d : Dev) : (d.tookFree).evcRun = d.evcRun := rfl
@[simp] theorem Dev.tookFree_judging (d : Dev) : (d.tookFree).judging = d.judging := rfl
@[simp] theorem Dev.tookFree_ctx (d : Dev) (k : Nat) : (d.tookFree).ctx k = d.ctx k := rfl
@[simp] theorem Dev.tookFree_chan (d : Dev) (k : Nat) : (d.tookFree).chan k = d.chan k := rfl
@[simp] theorem Dev.tookFree_pat (d : Dev) (k : Nat) : (d.tookFree).pat k = d.pat k := rfl
@[simp] theorem Dev.tookFree_wfm (d : Dev) (k : Nat) : (d.tookFree).wfm k = d.wfm k := rfl
@[simp] theorem Dev.tookFree_cap (d : Dev) (k : Nat) : (d.tookFree).cap k = d.cap k := rfl
@[simp] theorem Dev.tookFree_tme (d : Dev) (k : Nat) : (d.tookFree).tme k = d.tme k := rfl
@[simp] theorem Dev.tookFree_mill (d : Dev) (k : Nat) : (d.tookFree).mill k = d.mill k := rfl
@[simp] theorem Dev.tookFree_dma (d : Dev) (k : Nat) : (d.tookFree).dma k = d.dma k := rfl
@[simp] theorem Dev.tookFree_rast (d : Dev) (k : Nat) : (d.tookFree).rast k = d.rast k := rfl
@[simp] theorem Dev.tookFree_box (d : Dev) (k : Nat) : (d.tookFree).box k = d.box k := rfl
@[simp] theorem Dev.tookFree_ustore (d : Dev) (k : Nat) : (d.tookFree).ustore k = d.ustore k := rfl
@[simp] theorem Dev.tookFree_unit (d : Dev) (k : Nat) : (d.tookFree).unit k = d.unit k := rfl
@[simp] theorem Dev.tookFree_rd (d : Dev) (g : Fld) : (d.tookFree).rd g = d.rd g := rfl
@[simp] theorem Dev.tookFree_on (d : Dev) (g : Fld) : (d.tookFree).on g = d.on g := rfl
@[simp] theorem Dev.tookFree_byte (d : Dev) (k : Nat) : (d.tookFree).byte k = d.byte k := rfl
@[simp] theorem Dev.tookFree_site (d : Dev) (k : Nat) : (d.tookFree).site k = d.site k := rfl
@[simp] theorem Dev.tookFree_owns (d : Dev) (m : Master) (k : Nat) : (d.tookFree).owns m k = d.owns m k := rfl
@[simp] theorem Dev.tookFree_inSite (d : Dev) (k i : Nat) : (d.tookFree).inSite k i = d.inSite k i := rfl

/-! upd. -/

@[simp] theorem Dev.upd_units (d : Dev) (f : Fld) (g : Nat → Nat) : (d.upd f g).units = d.units := by unfold Dev.upd; split <;> rfl
@[simp] theorem Dev.upd_inUse (d : Dev) (f : Fld) (g : Nat → Nat) : (d.upd f g).inUse = d.inUse := by unfold Dev.upd; split <;> rfl
@[simp] theorem Dev.upd_waitGran (d : Dev) (f : Fld) (g : Nat → Nat) : (d.upd f g).waitGran = d.waitGran := by unfold Dev.upd; split <;> rfl
@[simp] theorem Dev.upd_waitBus (d : Dev) (f : Fld) (g : Nat → Nat) : (d.upd f g).waitBus = d.waitBus := by unfold Dev.upd; split <;> rfl
@[simp] theorem Dev.upd_serving (d : Dev) (f : Fld) (g : Nat → Nat) : (d.upd f g).serving = d.serving := by unfold Dev.upd; split <;> rfl
@[simp] theorem Dev.upd_ports (d : Dev) (f : Fld) (g : Nat → Nat) : (d.upd f g).ports = d.ports := by unfold Dev.upd; split <;> rfl
@[simp] theorem Dev.upd_gran (d : Dev) (f : Fld) (g : Nat → Nat) : (d.upd f g).gran = d.gran := by unfold Dev.upd; split <;> rfl
@[simp] theorem Dev.upd_ctxs (d : Dev) (f : Fld) (g : Nat → Nat) : (d.upd f g).ctxs = d.ctxs := by unfold Dev.upd; split <;> rfl
@[simp] theorem Dev.upd_sites (d : Dev) (f : Fld) (g : Nat → Nat) : (d.upd f g).sites = d.sites := by unfold Dev.upd; split <;> rfl
@[simp] theorem Dev.upd_chmap (d : Dev) (f : Fld) (g : Nat → Nat) : (d.upd f g).chmap = d.chmap := by unfold Dev.upd; split <;> rfl
@[simp] theorem Dev.upd_ctxCmd (d : Dev) (f : Fld) (g : Nat → Nat) : (d.upd f g).ctxCmd = d.ctxCmd := by unfold Dev.upd; split <;> rfl
@[simp] theorem Dev.upd_icache (d : Dev) (f : Fld) (g : Nat → Nat) : (d.upd f g).icache = d.icache := by unfold Dev.upd; split <;> rfl
@[simp] theorem Dev.upd_icacheBusy (d : Dev) (f : Fld) (g : Nat → Nat) : (d.upd f g).icacheBusy = d.icacheBusy := by unfold Dev.upd; split <;> rfl
@[simp] theorem Dev.upd_chans (d : Dev) (f : Fld) (g : Nat → Nat) : (d.upd f g).chans = d.chans := by unfold Dev.upd; split <;> rfl
@[simp] theorem Dev.upd_mons (d : Dev) (f : Fld) (g : Nat → Nat) : (d.upd f g).mons = d.mons := by unfold Dev.upd; split <;> rfl
@[simp] theorem Dev.upd_pats (d : Dev) (f : Fld) (g : Nat → Nat) : (d.upd f g).pats = d.pats := by unfold Dev.upd; split <;> rfl
@[simp] theorem Dev.upd_segw (d : Dev) (f : Fld) (g : Nat → Nat) : (d.upd f g).segw = d.segw := by unfold Dev.upd; split <;> rfl
@[simp] theorem Dev.upd_wfms (d : Dev) (f : Fld) (g : Nat → Nat) : (d.upd f g).wfms = d.wfms := by unfold Dev.upd; split <;> rfl
@[simp] theorem Dev.upd_caps (d : Dev) (f : Fld) (g : Nat → Nat) : (d.upd f g).caps = d.caps := by unfold Dev.upd; split <;> rfl
@[simp] theorem Dev.upd_tmes (d : Dev) (f : Fld) (g : Nat → Nat) : (d.upd f g).tmes = d.tmes := by unfold Dev.upd; split <;> rfl
@[simp] theorem Dev.upd_mills (d : Dev) (f : Fld) (g : Nat → Nat) : (d.upd f g).mills = d.mills := by unfold Dev.upd; split <;> rfl
@[simp] theorem Dev.upd_rasts (d : Dev) (f : Fld) (g : Nat → Nat) : (d.upd f g).rasts = d.rasts := by unfold Dev.upd; split <;> rfl
@[simp] theorem Dev.upd_dmas (d : Dev) (f : Fld) (g : Nat → Nat) : (d.upd f g).dmas = d.dmas := by unfold Dev.upd; split <;> rfl
@[simp] theorem Dev.upd_pcie (d : Dev) (f : Fld) (g : Nat → Nat) : (d.upd f g).pcie = d.pcie := by unfold Dev.upd; split <;> rfl
@[simp] theorem Dev.upd_reed (d : Dev) (f : Fld) (g : Nat → Nat) : (d.upd f g).reed = d.reed := by unfold Dev.upd; split <;> rfl
@[simp] theorem Dev.upd_flash (d : Dev) (f : Fld) (g : Nat → Nat) : (d.upd f g).flash = d.flash := by unfold Dev.upd; split <;> rfl
@[simp] theorem Dev.upd_cal (d : Dev) (f : Fld) (g : Nat → Nat) : (d.upd f g).cal = d.cal := by unfold Dev.upd; split <;> rfl
@[simp] theorem Dev.upd_therm (d : Dev) (f : Fld) (g : Nat → Nat) : (d.upd f g).therm = d.therm := by unfold Dev.upd; split <;> rfl
@[simp] theorem Dev.upd_log (d : Dev) (f : Fld) (g : Nat → Nat) : (d.upd f g).log = d.log := by unfold Dev.upd; split <;> rfl
@[simp] theorem Dev.upd_ucode (d : Dev) (f : Fld) (g : Nat → Nat) : (d.upd f g).ucode = d.ucode := by unfold Dev.upd; split <;> rfl
@[simp] theorem Dev.upd_contain (d : Dev) (f : Fld) (g : Nat → Nat) : (d.upd f g).contain = d.contain := by unfold Dev.upd; split <;> rfl
@[simp] theorem Dev.upd_supply (d : Dev) (f : Fld) (g : Nat → Nat) : (d.upd f g).supply = d.supply := by unfold Dev.upd; split <;> rfl
@[simp] theorem Dev.upd_jtag (d : Dev) (f : Fld) (g : Nat → Nat) : (d.upd f g).jtag = d.jtag := by unfold Dev.upd; split <;> rfl
@[simp] theorem Dev.upd_boot (d : Dev) (f : Fld) (g : Nat → Nat) : (d.upd f g).boot = d.boot := by unfold Dev.upd; split <;> rfl
@[simp] theorem Dev.upd_evcRun (d : Dev) (f : Fld) (g : Nat → Nat) : (d.upd f g).evcRun = d.evcRun := by unfold Dev.upd; split <;> rfl
@[simp] theorem Dev.upd_judging (d : Dev) (f : Fld) (g : Nat → Nat) : (d.upd f g).judging = d.judging := by unfold Dev.upd; split <;> rfl
@[simp] theorem Dev.upd_freeCtr (d : Dev) (f : Fld) (g : Nat → Nat) : (d.upd f g).freeCtr = d.freeCtr := by unfold Dev.upd; split <;> rfl
@[simp] theorem Dev.upd_ctx (d : Dev) (f : Fld) (g : Nat → Nat) (q : Nat) : (d.upd f g).ctx q = d.ctx q := by simp only [Dev.ctx, Dev.upd_ctxs]
@[simp] theorem Dev.upd_chan (d : Dev) (f : Fld) (g : Nat → Nat) (q : Nat) : (d.upd f g).chan q = d.chan q := by simp only [Dev.chan, Dev.upd_chans]
@[simp] theorem Dev.upd_pat (d : Dev) (f : Fld) (g : Nat → Nat) (q : Nat) : (d.upd f g).pat q = d.pat q := by simp only [Dev.pat, Dev.upd_pats]
@[simp] theorem Dev.upd_wfm (d : Dev) (f : Fld) (g : Nat → Nat) (q : Nat) : (d.upd f g).wfm q = d.wfm q := by simp only [Dev.wfm, Dev.upd_wfms]
@[simp] theorem Dev.upd_cap (d : Dev) (f : Fld) (g : Nat → Nat) (q : Nat) : (d.upd f g).cap q = d.cap q := by simp only [Dev.cap, Dev.upd_caps]
@[simp] theorem Dev.upd_tme (d : Dev) (f : Fld) (g : Nat → Nat) (q : Nat) : (d.upd f g).tme q = d.tme q := by simp only [Dev.tme, Dev.upd_tmes]
@[simp] theorem Dev.upd_mill (d : Dev) (f : Fld) (g : Nat → Nat) (q : Nat) : (d.upd f g).mill q = d.mill q := by simp only [Dev.mill, Dev.upd_mills]
@[simp] theorem Dev.upd_dma (d : Dev) (f : Fld) (g : Nat → Nat) (q : Nat) : (d.upd f g).dma q = d.dma q := by simp only [Dev.dma, Dev.upd_dmas]
@[simp] theorem Dev.upd_rast (d : Dev) (f : Fld) (g : Nat → Nat) (q : Nat) : (d.upd f g).rast q = d.rast q := by simp only [Dev.rast, Dev.upd_rasts]
@[simp] theorem Dev.upd_box (d : Dev) (f : Fld) (g : Nat → Nat) (q : Nat) : (d.upd f g).box q = d.box q := by simp only [Dev.box, Dev.upd_contain]
@[simp] theorem Dev.upd_ustore (d : Dev) (f : Fld) (g : Nat → Nat) (q : Nat) : (d.upd f g).ustore q = d.ustore q := by simp only [Dev.ustore, Dev.upd_ucode]
@[simp] theorem Dev.upd_unit (d : Dev) (f : Fld) (g : Nat → Nat) (q : Nat) : (d.upd f g).unit q = d.unit q := by simp only [Dev.unit, Dev.upd_units]
@[simp] theorem Dev.upd_byte (d : Dev) (f : Fld) (g : Nat → Nat) (q : Nat) : (d.upd f g).byte q = d.byte q := by simp only [Dev.byte, Dev.upd_gran]
@[simp] theorem Dev.upd_site (d : Dev) (f : Fld) (g : Nat → Nat) (q : Nat) : (d.upd f g).site q = d.site q := by simp only [Dev.site, Dev.upd_sites]
@[simp] theorem Dev.upd_inSite (d : Dev) (f : Fld) (g : Nat → Nat) (q i : Nat) : (d.upd f g).inSite q i = d.inSite q i := by simp only [Dev.inSite, Dev.upd_chmap]

/-! bump. -/

@[simp] theorem Dev.bump_units (d : Dev) (f : Fld) : (d.bump f).units = d.units := by exact d.upd_units f _
@[simp] theorem Dev.bump_inUse (d : Dev) (f : Fld) : (d.bump f).inUse = d.inUse := by exact d.upd_inUse f _
@[simp] theorem Dev.bump_waitGran (d : Dev) (f : Fld) : (d.bump f).waitGran = d.waitGran := by exact d.upd_waitGran f _
@[simp] theorem Dev.bump_waitBus (d : Dev) (f : Fld) : (d.bump f).waitBus = d.waitBus := by exact d.upd_waitBus f _
@[simp] theorem Dev.bump_serving (d : Dev) (f : Fld) : (d.bump f).serving = d.serving := by exact d.upd_serving f _
@[simp] theorem Dev.bump_ports (d : Dev) (f : Fld) : (d.bump f).ports = d.ports := by exact d.upd_ports f _
@[simp] theorem Dev.bump_gran (d : Dev) (f : Fld) : (d.bump f).gran = d.gran := by exact d.upd_gran f _
@[simp] theorem Dev.bump_ctxs (d : Dev) (f : Fld) : (d.bump f).ctxs = d.ctxs := by exact d.upd_ctxs f _
@[simp] theorem Dev.bump_sites (d : Dev) (f : Fld) : (d.bump f).sites = d.sites := by exact d.upd_sites f _
@[simp] theorem Dev.bump_chmap (d : Dev) (f : Fld) : (d.bump f).chmap = d.chmap := by exact d.upd_chmap f _
@[simp] theorem Dev.bump_ctxCmd (d : Dev) (f : Fld) : (d.bump f).ctxCmd = d.ctxCmd := by exact d.upd_ctxCmd f _
@[simp] theorem Dev.bump_icache (d : Dev) (f : Fld) : (d.bump f).icache = d.icache := by exact d.upd_icache f _
@[simp] theorem Dev.bump_icacheBusy (d : Dev) (f : Fld) : (d.bump f).icacheBusy = d.icacheBusy := by exact d.upd_icacheBusy f _
@[simp] theorem Dev.bump_chans (d : Dev) (f : Fld) : (d.bump f).chans = d.chans := by exact d.upd_chans f _
@[simp] theorem Dev.bump_mons (d : Dev) (f : Fld) : (d.bump f).mons = d.mons := by exact d.upd_mons f _
@[simp] theorem Dev.bump_pats (d : Dev) (f : Fld) : (d.bump f).pats = d.pats := by exact d.upd_pats f _
@[simp] theorem Dev.bump_segw (d : Dev) (f : Fld) : (d.bump f).segw = d.segw := by exact d.upd_segw f _
@[simp] theorem Dev.bump_wfms (d : Dev) (f : Fld) : (d.bump f).wfms = d.wfms := by exact d.upd_wfms f _
@[simp] theorem Dev.bump_caps (d : Dev) (f : Fld) : (d.bump f).caps = d.caps := by exact d.upd_caps f _
@[simp] theorem Dev.bump_tmes (d : Dev) (f : Fld) : (d.bump f).tmes = d.tmes := by exact d.upd_tmes f _
@[simp] theorem Dev.bump_mills (d : Dev) (f : Fld) : (d.bump f).mills = d.mills := by exact d.upd_mills f _
@[simp] theorem Dev.bump_rasts (d : Dev) (f : Fld) : (d.bump f).rasts = d.rasts := by exact d.upd_rasts f _
@[simp] theorem Dev.bump_dmas (d : Dev) (f : Fld) : (d.bump f).dmas = d.dmas := by exact d.upd_dmas f _
@[simp] theorem Dev.bump_pcie (d : Dev) (f : Fld) : (d.bump f).pcie = d.pcie := by exact d.upd_pcie f _
@[simp] theorem Dev.bump_reed (d : Dev) (f : Fld) : (d.bump f).reed = d.reed := by exact d.upd_reed f _
@[simp] theorem Dev.bump_flash (d : Dev) (f : Fld) : (d.bump f).flash = d.flash := by exact d.upd_flash f _
@[simp] theorem Dev.bump_cal (d : Dev) (f : Fld) : (d.bump f).cal = d.cal := by exact d.upd_cal f _
@[simp] theorem Dev.bump_therm (d : Dev) (f : Fld) : (d.bump f).therm = d.therm := by exact d.upd_therm f _
@[simp] theorem Dev.bump_log (d : Dev) (f : Fld) : (d.bump f).log = d.log := by exact d.upd_log f _
@[simp] theorem Dev.bump_ucode (d : Dev) (f : Fld) : (d.bump f).ucode = d.ucode := by exact d.upd_ucode f _
@[simp] theorem Dev.bump_contain (d : Dev) (f : Fld) : (d.bump f).contain = d.contain := by exact d.upd_contain f _
@[simp] theorem Dev.bump_supply (d : Dev) (f : Fld) : (d.bump f).supply = d.supply := by exact d.upd_supply f _
@[simp] theorem Dev.bump_jtag (d : Dev) (f : Fld) : (d.bump f).jtag = d.jtag := by exact d.upd_jtag f _
@[simp] theorem Dev.bump_boot (d : Dev) (f : Fld) : (d.bump f).boot = d.boot := by exact d.upd_boot f _
@[simp] theorem Dev.bump_evcRun (d : Dev) (f : Fld) : (d.bump f).evcRun = d.evcRun := by exact d.upd_evcRun f _
@[simp] theorem Dev.bump_judging (d : Dev) (f : Fld) : (d.bump f).judging = d.judging := by exact d.upd_judging f _
@[simp] theorem Dev.bump_freeCtr (d : Dev) (f : Fld) : (d.bump f).freeCtr = d.freeCtr := by exact d.upd_freeCtr f _
@[simp] theorem Dev.bump_ctx (d : Dev) (f : Fld) (q : Nat) : (d.bump f).ctx q = d.ctx q := by simp only [Dev.ctx, Dev.bump_ctxs]
@[simp] theorem Dev.bump_chan (d : Dev) (f : Fld) (q : Nat) : (d.bump f).chan q = d.chan q := by simp only [Dev.chan, Dev.bump_chans]
@[simp] theorem Dev.bump_pat (d : Dev) (f : Fld) (q : Nat) : (d.bump f).pat q = d.pat q := by simp only [Dev.pat, Dev.bump_pats]
@[simp] theorem Dev.bump_wfm (d : Dev) (f : Fld) (q : Nat) : (d.bump f).wfm q = d.wfm q := by simp only [Dev.wfm, Dev.bump_wfms]
@[simp] theorem Dev.bump_cap (d : Dev) (f : Fld) (q : Nat) : (d.bump f).cap q = d.cap q := by simp only [Dev.cap, Dev.bump_caps]
@[simp] theorem Dev.bump_tme (d : Dev) (f : Fld) (q : Nat) : (d.bump f).tme q = d.tme q := by simp only [Dev.tme, Dev.bump_tmes]
@[simp] theorem Dev.bump_mill (d : Dev) (f : Fld) (q : Nat) : (d.bump f).mill q = d.mill q := by simp only [Dev.mill, Dev.bump_mills]
@[simp] theorem Dev.bump_dma (d : Dev) (f : Fld) (q : Nat) : (d.bump f).dma q = d.dma q := by simp only [Dev.dma, Dev.bump_dmas]
@[simp] theorem Dev.bump_rast (d : Dev) (f : Fld) (q : Nat) : (d.bump f).rast q = d.rast q := by simp only [Dev.rast, Dev.bump_rasts]
@[simp] theorem Dev.bump_box (d : Dev) (f : Fld) (q : Nat) : (d.bump f).box q = d.box q := by simp only [Dev.box, Dev.bump_contain]
@[simp] theorem Dev.bump_ustore (d : Dev) (f : Fld) (q : Nat) : (d.bump f).ustore q = d.ustore q := by simp only [Dev.ustore, Dev.bump_ucode]
@[simp] theorem Dev.bump_unit (d : Dev) (f : Fld) (q : Nat) : (d.bump f).unit q = d.unit q := by simp only [Dev.unit, Dev.bump_units]
@[simp] theorem Dev.bump_byte (d : Dev) (f : Fld) (q : Nat) : (d.bump f).byte q = d.byte q := by simp only [Dev.byte, Dev.bump_gran]
@[simp] theorem Dev.bump_site (d : Dev) (f : Fld) (q : Nat) : (d.bump f).site q = d.site q := by simp only [Dev.site, Dev.bump_sites]
@[simp] theorem Dev.bump_inSite (d : Dev) (f : Fld) (q i : Nat) : (d.bump f).inSite q i = d.inSite q i := by simp only [Dev.inSite, Dev.bump_chmap]

/-! bumpBy. -/

@[simp] theorem Dev.bumpBy_units (d : Dev) (f : Fld) (n : Nat) : (d.bumpBy f n).units = d.units := by exact d.upd_units f _
@[simp] theorem Dev.bumpBy_inUse (d : Dev) (f : Fld) (n : Nat) : (d.bumpBy f n).inUse = d.inUse := by exact d.upd_inUse f _
@[simp] theorem Dev.bumpBy_waitGran (d : Dev) (f : Fld) (n : Nat) : (d.bumpBy f n).waitGran = d.waitGran := by exact d.upd_waitGran f _
@[simp] theorem Dev.bumpBy_waitBus (d : Dev) (f : Fld) (n : Nat) : (d.bumpBy f n).waitBus = d.waitBus := by exact d.upd_waitBus f _
@[simp] theorem Dev.bumpBy_serving (d : Dev) (f : Fld) (n : Nat) : (d.bumpBy f n).serving = d.serving := by exact d.upd_serving f _
@[simp] theorem Dev.bumpBy_ports (d : Dev) (f : Fld) (n : Nat) : (d.bumpBy f n).ports = d.ports := by exact d.upd_ports f _
@[simp] theorem Dev.bumpBy_gran (d : Dev) (f : Fld) (n : Nat) : (d.bumpBy f n).gran = d.gran := by exact d.upd_gran f _
@[simp] theorem Dev.bumpBy_ctxs (d : Dev) (f : Fld) (n : Nat) : (d.bumpBy f n).ctxs = d.ctxs := by exact d.upd_ctxs f _
@[simp] theorem Dev.bumpBy_sites (d : Dev) (f : Fld) (n : Nat) : (d.bumpBy f n).sites = d.sites := by exact d.upd_sites f _
@[simp] theorem Dev.bumpBy_chmap (d : Dev) (f : Fld) (n : Nat) : (d.bumpBy f n).chmap = d.chmap := by exact d.upd_chmap f _
@[simp] theorem Dev.bumpBy_ctxCmd (d : Dev) (f : Fld) (n : Nat) : (d.bumpBy f n).ctxCmd = d.ctxCmd := by exact d.upd_ctxCmd f _
@[simp] theorem Dev.bumpBy_icache (d : Dev) (f : Fld) (n : Nat) : (d.bumpBy f n).icache = d.icache := by exact d.upd_icache f _
@[simp] theorem Dev.bumpBy_icacheBusy (d : Dev) (f : Fld) (n : Nat) : (d.bumpBy f n).icacheBusy = d.icacheBusy := by exact d.upd_icacheBusy f _
@[simp] theorem Dev.bumpBy_chans (d : Dev) (f : Fld) (n : Nat) : (d.bumpBy f n).chans = d.chans := by exact d.upd_chans f _
@[simp] theorem Dev.bumpBy_mons (d : Dev) (f : Fld) (n : Nat) : (d.bumpBy f n).mons = d.mons := by exact d.upd_mons f _
@[simp] theorem Dev.bumpBy_pats (d : Dev) (f : Fld) (n : Nat) : (d.bumpBy f n).pats = d.pats := by exact d.upd_pats f _
@[simp] theorem Dev.bumpBy_segw (d : Dev) (f : Fld) (n : Nat) : (d.bumpBy f n).segw = d.segw := by exact d.upd_segw f _
@[simp] theorem Dev.bumpBy_wfms (d : Dev) (f : Fld) (n : Nat) : (d.bumpBy f n).wfms = d.wfms := by exact d.upd_wfms f _
@[simp] theorem Dev.bumpBy_caps (d : Dev) (f : Fld) (n : Nat) : (d.bumpBy f n).caps = d.caps := by exact d.upd_caps f _
@[simp] theorem Dev.bumpBy_tmes (d : Dev) (f : Fld) (n : Nat) : (d.bumpBy f n).tmes = d.tmes := by exact d.upd_tmes f _
@[simp] theorem Dev.bumpBy_mills (d : Dev) (f : Fld) (n : Nat) : (d.bumpBy f n).mills = d.mills := by exact d.upd_mills f _
@[simp] theorem Dev.bumpBy_rasts (d : Dev) (f : Fld) (n : Nat) : (d.bumpBy f n).rasts = d.rasts := by exact d.upd_rasts f _
@[simp] theorem Dev.bumpBy_dmas (d : Dev) (f : Fld) (n : Nat) : (d.bumpBy f n).dmas = d.dmas := by exact d.upd_dmas f _
@[simp] theorem Dev.bumpBy_pcie (d : Dev) (f : Fld) (n : Nat) : (d.bumpBy f n).pcie = d.pcie := by exact d.upd_pcie f _
@[simp] theorem Dev.bumpBy_reed (d : Dev) (f : Fld) (n : Nat) : (d.bumpBy f n).reed = d.reed := by exact d.upd_reed f _
@[simp] theorem Dev.bumpBy_flash (d : Dev) (f : Fld) (n : Nat) : (d.bumpBy f n).flash = d.flash := by exact d.upd_flash f _
@[simp] theorem Dev.bumpBy_cal (d : Dev) (f : Fld) (n : Nat) : (d.bumpBy f n).cal = d.cal := by exact d.upd_cal f _
@[simp] theorem Dev.bumpBy_therm (d : Dev) (f : Fld) (n : Nat) : (d.bumpBy f n).therm = d.therm := by exact d.upd_therm f _
@[simp] theorem Dev.bumpBy_log (d : Dev) (f : Fld) (n : Nat) : (d.bumpBy f n).log = d.log := by exact d.upd_log f _
@[simp] theorem Dev.bumpBy_ucode (d : Dev) (f : Fld) (n : Nat) : (d.bumpBy f n).ucode = d.ucode := by exact d.upd_ucode f _
@[simp] theorem Dev.bumpBy_contain (d : Dev) (f : Fld) (n : Nat) : (d.bumpBy f n).contain = d.contain := by exact d.upd_contain f _
@[simp] theorem Dev.bumpBy_supply (d : Dev) (f : Fld) (n : Nat) : (d.bumpBy f n).supply = d.supply := by exact d.upd_supply f _
@[simp] theorem Dev.bumpBy_jtag (d : Dev) (f : Fld) (n : Nat) : (d.bumpBy f n).jtag = d.jtag := by exact d.upd_jtag f _
@[simp] theorem Dev.bumpBy_boot (d : Dev) (f : Fld) (n : Nat) : (d.bumpBy f n).boot = d.boot := by exact d.upd_boot f _
@[simp] theorem Dev.bumpBy_evcRun (d : Dev) (f : Fld) (n : Nat) : (d.bumpBy f n).evcRun = d.evcRun := by exact d.upd_evcRun f _
@[simp] theorem Dev.bumpBy_judging (d : Dev) (f : Fld) (n : Nat) : (d.bumpBy f n).judging = d.judging := by exact d.upd_judging f _
@[simp] theorem Dev.bumpBy_freeCtr (d : Dev) (f : Fld) (n : Nat) : (d.bumpBy f n).freeCtr = d.freeCtr := by exact d.upd_freeCtr f _
@[simp] theorem Dev.bumpBy_ctx (d : Dev) (f : Fld) (n : Nat) (q : Nat) : (d.bumpBy f n).ctx q = d.ctx q := by simp only [Dev.ctx, Dev.bumpBy_ctxs]
@[simp] theorem Dev.bumpBy_chan (d : Dev) (f : Fld) (n : Nat) (q : Nat) : (d.bumpBy f n).chan q = d.chan q := by simp only [Dev.chan, Dev.bumpBy_chans]
@[simp] theorem Dev.bumpBy_pat (d : Dev) (f : Fld) (n : Nat) (q : Nat) : (d.bumpBy f n).pat q = d.pat q := by simp only [Dev.pat, Dev.bumpBy_pats]
@[simp] theorem Dev.bumpBy_wfm (d : Dev) (f : Fld) (n : Nat) (q : Nat) : (d.bumpBy f n).wfm q = d.wfm q := by simp only [Dev.wfm, Dev.bumpBy_wfms]
@[simp] theorem Dev.bumpBy_cap (d : Dev) (f : Fld) (n : Nat) (q : Nat) : (d.bumpBy f n).cap q = d.cap q := by simp only [Dev.cap, Dev.bumpBy_caps]
@[simp] theorem Dev.bumpBy_tme (d : Dev) (f : Fld) (n : Nat) (q : Nat) : (d.bumpBy f n).tme q = d.tme q := by simp only [Dev.tme, Dev.bumpBy_tmes]
@[simp] theorem Dev.bumpBy_mill (d : Dev) (f : Fld) (n : Nat) (q : Nat) : (d.bumpBy f n).mill q = d.mill q := by simp only [Dev.mill, Dev.bumpBy_mills]
@[simp] theorem Dev.bumpBy_dma (d : Dev) (f : Fld) (n : Nat) (q : Nat) : (d.bumpBy f n).dma q = d.dma q := by simp only [Dev.dma, Dev.bumpBy_dmas]
@[simp] theorem Dev.bumpBy_rast (d : Dev) (f : Fld) (n : Nat) (q : Nat) : (d.bumpBy f n).rast q = d.rast q := by simp only [Dev.rast, Dev.bumpBy_rasts]
@[simp] theorem Dev.bumpBy_box (d : Dev) (f : Fld) (n : Nat) (q : Nat) : (d.bumpBy f n).box q = d.box q := by simp only [Dev.box, Dev.bumpBy_contain]
@[simp] theorem Dev.bumpBy_ustore (d : Dev) (f : Fld) (n : Nat) (q : Nat) : (d.bumpBy f n).ustore q = d.ustore q := by simp only [Dev.ustore, Dev.bumpBy_ucode]
@[simp] theorem Dev.bumpBy_unit (d : Dev) (f : Fld) (n : Nat) (q : Nat) : (d.bumpBy f n).unit q = d.unit q := by simp only [Dev.unit, Dev.bumpBy_units]
@[simp] theorem Dev.bumpBy_byte (d : Dev) (f : Fld) (n : Nat) (q : Nat) : (d.bumpBy f n).byte q = d.byte q := by simp only [Dev.byte, Dev.bumpBy_gran]
@[simp] theorem Dev.bumpBy_site (d : Dev) (f : Fld) (n : Nat) (q : Nat) : (d.bumpBy f n).site q = d.site q := by simp only [Dev.site, Dev.bumpBy_sites]
@[simp] theorem Dev.bumpBy_inSite (d : Dev) (f : Fld) (n : Nat) (q i : Nat) : (d.bumpBy f n).inSite q i = d.inSite q i := by simp only [Dev.inSite, Dev.bumpBy_chmap]

/-! peak. -/

@[simp] theorem Dev.peak_units (d : Dev) (f : Fld) (n : Nat) : (d.peak f n).units = d.units := by exact d.upd_units f _
@[simp] theorem Dev.peak_inUse (d : Dev) (f : Fld) (n : Nat) : (d.peak f n).inUse = d.inUse := by exact d.upd_inUse f _
@[simp] theorem Dev.peak_waitGran (d : Dev) (f : Fld) (n : Nat) : (d.peak f n).waitGran = d.waitGran := by exact d.upd_waitGran f _
@[simp] theorem Dev.peak_waitBus (d : Dev) (f : Fld) (n : Nat) : (d.peak f n).waitBus = d.waitBus := by exact d.upd_waitBus f _
@[simp] theorem Dev.peak_serving (d : Dev) (f : Fld) (n : Nat) : (d.peak f n).serving = d.serving := by exact d.upd_serving f _
@[simp] theorem Dev.peak_ports (d : Dev) (f : Fld) (n : Nat) : (d.peak f n).ports = d.ports := by exact d.upd_ports f _
@[simp] theorem Dev.peak_gran (d : Dev) (f : Fld) (n : Nat) : (d.peak f n).gran = d.gran := by exact d.upd_gran f _
@[simp] theorem Dev.peak_ctxs (d : Dev) (f : Fld) (n : Nat) : (d.peak f n).ctxs = d.ctxs := by exact d.upd_ctxs f _
@[simp] theorem Dev.peak_sites (d : Dev) (f : Fld) (n : Nat) : (d.peak f n).sites = d.sites := by exact d.upd_sites f _
@[simp] theorem Dev.peak_chmap (d : Dev) (f : Fld) (n : Nat) : (d.peak f n).chmap = d.chmap := by exact d.upd_chmap f _
@[simp] theorem Dev.peak_ctxCmd (d : Dev) (f : Fld) (n : Nat) : (d.peak f n).ctxCmd = d.ctxCmd := by exact d.upd_ctxCmd f _
@[simp] theorem Dev.peak_icache (d : Dev) (f : Fld) (n : Nat) : (d.peak f n).icache = d.icache := by exact d.upd_icache f _
@[simp] theorem Dev.peak_icacheBusy (d : Dev) (f : Fld) (n : Nat) : (d.peak f n).icacheBusy = d.icacheBusy := by exact d.upd_icacheBusy f _
@[simp] theorem Dev.peak_chans (d : Dev) (f : Fld) (n : Nat) : (d.peak f n).chans = d.chans := by exact d.upd_chans f _
@[simp] theorem Dev.peak_mons (d : Dev) (f : Fld) (n : Nat) : (d.peak f n).mons = d.mons := by exact d.upd_mons f _
@[simp] theorem Dev.peak_pats (d : Dev) (f : Fld) (n : Nat) : (d.peak f n).pats = d.pats := by exact d.upd_pats f _
@[simp] theorem Dev.peak_segw (d : Dev) (f : Fld) (n : Nat) : (d.peak f n).segw = d.segw := by exact d.upd_segw f _
@[simp] theorem Dev.peak_wfms (d : Dev) (f : Fld) (n : Nat) : (d.peak f n).wfms = d.wfms := by exact d.upd_wfms f _
@[simp] theorem Dev.peak_caps (d : Dev) (f : Fld) (n : Nat) : (d.peak f n).caps = d.caps := by exact d.upd_caps f _
@[simp] theorem Dev.peak_tmes (d : Dev) (f : Fld) (n : Nat) : (d.peak f n).tmes = d.tmes := by exact d.upd_tmes f _
@[simp] theorem Dev.peak_mills (d : Dev) (f : Fld) (n : Nat) : (d.peak f n).mills = d.mills := by exact d.upd_mills f _
@[simp] theorem Dev.peak_rasts (d : Dev) (f : Fld) (n : Nat) : (d.peak f n).rasts = d.rasts := by exact d.upd_rasts f _
@[simp] theorem Dev.peak_dmas (d : Dev) (f : Fld) (n : Nat) : (d.peak f n).dmas = d.dmas := by exact d.upd_dmas f _
@[simp] theorem Dev.peak_pcie (d : Dev) (f : Fld) (n : Nat) : (d.peak f n).pcie = d.pcie := by exact d.upd_pcie f _
@[simp] theorem Dev.peak_reed (d : Dev) (f : Fld) (n : Nat) : (d.peak f n).reed = d.reed := by exact d.upd_reed f _
@[simp] theorem Dev.peak_flash (d : Dev) (f : Fld) (n : Nat) : (d.peak f n).flash = d.flash := by exact d.upd_flash f _
@[simp] theorem Dev.peak_cal (d : Dev) (f : Fld) (n : Nat) : (d.peak f n).cal = d.cal := by exact d.upd_cal f _
@[simp] theorem Dev.peak_therm (d : Dev) (f : Fld) (n : Nat) : (d.peak f n).therm = d.therm := by exact d.upd_therm f _
@[simp] theorem Dev.peak_log (d : Dev) (f : Fld) (n : Nat) : (d.peak f n).log = d.log := by exact d.upd_log f _
@[simp] theorem Dev.peak_ucode (d : Dev) (f : Fld) (n : Nat) : (d.peak f n).ucode = d.ucode := by exact d.upd_ucode f _
@[simp] theorem Dev.peak_contain (d : Dev) (f : Fld) (n : Nat) : (d.peak f n).contain = d.contain := by exact d.upd_contain f _
@[simp] theorem Dev.peak_supply (d : Dev) (f : Fld) (n : Nat) : (d.peak f n).supply = d.supply := by exact d.upd_supply f _
@[simp] theorem Dev.peak_jtag (d : Dev) (f : Fld) (n : Nat) : (d.peak f n).jtag = d.jtag := by exact d.upd_jtag f _
@[simp] theorem Dev.peak_boot (d : Dev) (f : Fld) (n : Nat) : (d.peak f n).boot = d.boot := by exact d.upd_boot f _
@[simp] theorem Dev.peak_evcRun (d : Dev) (f : Fld) (n : Nat) : (d.peak f n).evcRun = d.evcRun := by exact d.upd_evcRun f _
@[simp] theorem Dev.peak_judging (d : Dev) (f : Fld) (n : Nat) : (d.peak f n).judging = d.judging := by exact d.upd_judging f _
@[simp] theorem Dev.peak_freeCtr (d : Dev) (f : Fld) (n : Nat) : (d.peak f n).freeCtr = d.freeCtr := by exact d.upd_freeCtr f _
@[simp] theorem Dev.peak_ctx (d : Dev) (f : Fld) (n : Nat) (q : Nat) : (d.peak f n).ctx q = d.ctx q := by simp only [Dev.ctx, Dev.peak_ctxs]
@[simp] theorem Dev.peak_chan (d : Dev) (f : Fld) (n : Nat) (q : Nat) : (d.peak f n).chan q = d.chan q := by simp only [Dev.chan, Dev.peak_chans]
@[simp] theorem Dev.peak_pat (d : Dev) (f : Fld) (n : Nat) (q : Nat) : (d.peak f n).pat q = d.pat q := by simp only [Dev.pat, Dev.peak_pats]
@[simp] theorem Dev.peak_wfm (d : Dev) (f : Fld) (n : Nat) (q : Nat) : (d.peak f n).wfm q = d.wfm q := by simp only [Dev.wfm, Dev.peak_wfms]
@[simp] theorem Dev.peak_cap (d : Dev) (f : Fld) (n : Nat) (q : Nat) : (d.peak f n).cap q = d.cap q := by simp only [Dev.cap, Dev.peak_caps]
@[simp] theorem Dev.peak_tme (d : Dev) (f : Fld) (n : Nat) (q : Nat) : (d.peak f n).tme q = d.tme q := by simp only [Dev.tme, Dev.peak_tmes]
@[simp] theorem Dev.peak_mill (d : Dev) (f : Fld) (n : Nat) (q : Nat) : (d.peak f n).mill q = d.mill q := by simp only [Dev.mill, Dev.peak_mills]
@[simp] theorem Dev.peak_dma (d : Dev) (f : Fld) (n : Nat) (q : Nat) : (d.peak f n).dma q = d.dma q := by simp only [Dev.dma, Dev.peak_dmas]
@[simp] theorem Dev.peak_rast (d : Dev) (f : Fld) (n : Nat) (q : Nat) : (d.peak f n).rast q = d.rast q := by simp only [Dev.rast, Dev.peak_rasts]
@[simp] theorem Dev.peak_box (d : Dev) (f : Fld) (n : Nat) (q : Nat) : (d.peak f n).box q = d.box q := by simp only [Dev.box, Dev.peak_contain]
@[simp] theorem Dev.peak_ustore (d : Dev) (f : Fld) (n : Nat) (q : Nat) : (d.peak f n).ustore q = d.ustore q := by simp only [Dev.ustore, Dev.peak_ucode]
@[simp] theorem Dev.peak_unit (d : Dev) (f : Fld) (n : Nat) (q : Nat) : (d.peak f n).unit q = d.unit q := by simp only [Dev.unit, Dev.peak_units]
@[simp] theorem Dev.peak_byte (d : Dev) (f : Fld) (n : Nat) (q : Nat) : (d.peak f n).byte q = d.byte q := by simp only [Dev.byte, Dev.peak_gran]
@[simp] theorem Dev.peak_site (d : Dev) (f : Fld) (n : Nat) (q : Nat) : (d.peak f n).site q = d.site q := by simp only [Dev.site, Dev.peak_sites]
@[simp] theorem Dev.peak_inSite (d : Dev) (f : Fld) (n : Nat) (q i : Nat) : (d.peak f n).inSite q i = d.inSite q i := by simp only [Dev.inSite, Dev.peak_chmap]

/-! message. -/

@[simp] theorem Dev.message_units (d : Dev) (v : Nat) : (d.message v).units = d.units := by unfold Dev.message; split <;> rfl
@[simp] theorem Dev.message_inUse (d : Dev) (v : Nat) : (d.message v).inUse = d.inUse := by unfold Dev.message; split <;> rfl
@[simp] theorem Dev.message_waitGran (d : Dev) (v : Nat) : (d.message v).waitGran = d.waitGran := by unfold Dev.message; split <;> rfl
@[simp] theorem Dev.message_waitBus (d : Dev) (v : Nat) : (d.message v).waitBus = d.waitBus := by unfold Dev.message; split <;> rfl
@[simp] theorem Dev.message_serving (d : Dev) (v : Nat) : (d.message v).serving = d.serving := by unfold Dev.message; split <;> rfl
@[simp] theorem Dev.message_ports (d : Dev) (v : Nat) : (d.message v).ports = d.ports := by unfold Dev.message; split <;> rfl
@[simp] theorem Dev.message_gran (d : Dev) (v : Nat) : (d.message v).gran = d.gran := by unfold Dev.message; split <;> rfl
@[simp] theorem Dev.message_ctxs (d : Dev) (v : Nat) : (d.message v).ctxs = d.ctxs := by unfold Dev.message; split <;> rfl
@[simp] theorem Dev.message_sites (d : Dev) (v : Nat) : (d.message v).sites = d.sites := by unfold Dev.message; split <;> rfl
@[simp] theorem Dev.message_chmap (d : Dev) (v : Nat) : (d.message v).chmap = d.chmap := by unfold Dev.message; split <;> rfl
@[simp] theorem Dev.message_ctxCmd (d : Dev) (v : Nat) : (d.message v).ctxCmd = d.ctxCmd := by unfold Dev.message; split <;> rfl
@[simp] theorem Dev.message_icache (d : Dev) (v : Nat) : (d.message v).icache = d.icache := by unfold Dev.message; split <;> rfl
@[simp] theorem Dev.message_icacheBusy (d : Dev) (v : Nat) : (d.message v).icacheBusy = d.icacheBusy := by unfold Dev.message; split <;> rfl
@[simp] theorem Dev.message_chans (d : Dev) (v : Nat) : (d.message v).chans = d.chans := by unfold Dev.message; split <;> rfl
@[simp] theorem Dev.message_mons (d : Dev) (v : Nat) : (d.message v).mons = d.mons := by unfold Dev.message; split <;> rfl
@[simp] theorem Dev.message_pats (d : Dev) (v : Nat) : (d.message v).pats = d.pats := by unfold Dev.message; split <;> rfl
@[simp] theorem Dev.message_segw (d : Dev) (v : Nat) : (d.message v).segw = d.segw := by unfold Dev.message; split <;> rfl
@[simp] theorem Dev.message_wfms (d : Dev) (v : Nat) : (d.message v).wfms = d.wfms := by unfold Dev.message; split <;> rfl
@[simp] theorem Dev.message_caps (d : Dev) (v : Nat) : (d.message v).caps = d.caps := by unfold Dev.message; split <;> rfl
@[simp] theorem Dev.message_tmes (d : Dev) (v : Nat) : (d.message v).tmes = d.tmes := by unfold Dev.message; split <;> rfl
@[simp] theorem Dev.message_mills (d : Dev) (v : Nat) : (d.message v).mills = d.mills := by unfold Dev.message; split <;> rfl
@[simp] theorem Dev.message_rasts (d : Dev) (v : Nat) : (d.message v).rasts = d.rasts := by unfold Dev.message; split <;> rfl
@[simp] theorem Dev.message_dmas (d : Dev) (v : Nat) : (d.message v).dmas = d.dmas := by unfold Dev.message; split <;> rfl
@[simp] theorem Dev.message_reed (d : Dev) (v : Nat) : (d.message v).reed = d.reed := by unfold Dev.message; split <;> rfl
@[simp] theorem Dev.message_flash (d : Dev) (v : Nat) : (d.message v).flash = d.flash := by unfold Dev.message; split <;> rfl
@[simp] theorem Dev.message_bp (d : Dev) (v : Nat) : (d.message v).bp = d.bp := by unfold Dev.message; split <;> rfl
@[simp] theorem Dev.message_cal (d : Dev) (v : Nat) : (d.message v).cal = d.cal := by unfold Dev.message; split <;> rfl
@[simp] theorem Dev.message_therm (d : Dev) (v : Nat) : (d.message v).therm = d.therm := by unfold Dev.message; split <;> rfl
@[simp] theorem Dev.message_log (d : Dev) (v : Nat) : (d.message v).log = d.log := by unfold Dev.message; split <;> rfl
@[simp] theorem Dev.message_ucode (d : Dev) (v : Nat) : (d.message v).ucode = d.ucode := by unfold Dev.message; split <;> rfl
@[simp] theorem Dev.message_contain (d : Dev) (v : Nat) : (d.message v).contain = d.contain := by unfold Dev.message; split <;> rfl
@[simp] theorem Dev.message_supply (d : Dev) (v : Nat) : (d.message v).supply = d.supply := by unfold Dev.message; split <;> rfl
@[simp] theorem Dev.message_jtag (d : Dev) (v : Nat) : (d.message v).jtag = d.jtag := by unfold Dev.message; split <;> rfl
@[simp] theorem Dev.message_boot (d : Dev) (v : Nat) : (d.message v).boot = d.boot := by unfold Dev.message; split <;> rfl
@[simp] theorem Dev.message_evcRun (d : Dev) (v : Nat) : (d.message v).evcRun = d.evcRun := by unfold Dev.message; split <;> rfl
@[simp] theorem Dev.message_judging (d : Dev) (v : Nat) : (d.message v).judging = d.judging := by unfold Dev.message; split <;> rfl
@[simp] theorem Dev.message_freeCtr (d : Dev) (v : Nat) : (d.message v).freeCtr = d.freeCtr := by unfold Dev.message; split <;> rfl
@[simp] theorem Dev.message_ctx (d : Dev) (v : Nat) (q : Nat) : (d.message v).ctx q = d.ctx q := by simp only [Dev.ctx, Dev.message_ctxs]
@[simp] theorem Dev.message_chan (d : Dev) (v : Nat) (q : Nat) : (d.message v).chan q = d.chan q := by simp only [Dev.chan, Dev.message_chans]
@[simp] theorem Dev.message_pat (d : Dev) (v : Nat) (q : Nat) : (d.message v).pat q = d.pat q := by simp only [Dev.pat, Dev.message_pats]
@[simp] theorem Dev.message_wfm (d : Dev) (v : Nat) (q : Nat) : (d.message v).wfm q = d.wfm q := by simp only [Dev.wfm, Dev.message_wfms]
@[simp] theorem Dev.message_cap (d : Dev) (v : Nat) (q : Nat) : (d.message v).cap q = d.cap q := by simp only [Dev.cap, Dev.message_caps]
@[simp] theorem Dev.message_tme (d : Dev) (v : Nat) (q : Nat) : (d.message v).tme q = d.tme q := by simp only [Dev.tme, Dev.message_tmes]
@[simp] theorem Dev.message_mill (d : Dev) (v : Nat) (q : Nat) : (d.message v).mill q = d.mill q := by simp only [Dev.mill, Dev.message_mills]
@[simp] theorem Dev.message_dma (d : Dev) (v : Nat) (q : Nat) : (d.message v).dma q = d.dma q := by simp only [Dev.dma, Dev.message_dmas]
@[simp] theorem Dev.message_rast (d : Dev) (v : Nat) (q : Nat) : (d.message v).rast q = d.rast q := by simp only [Dev.rast, Dev.message_rasts]
@[simp] theorem Dev.message_box (d : Dev) (v : Nat) (q : Nat) : (d.message v).box q = d.box q := by simp only [Dev.box, Dev.message_contain]
@[simp] theorem Dev.message_ustore (d : Dev) (v : Nat) (q : Nat) : (d.message v).ustore q = d.ustore q := by simp only [Dev.ustore, Dev.message_ucode]
@[simp] theorem Dev.message_unit (d : Dev) (v : Nat) (q : Nat) : (d.message v).unit q = d.unit q := by simp only [Dev.unit, Dev.message_units]
@[simp] theorem Dev.message_byte (d : Dev) (v : Nat) (q : Nat) : (d.message v).byte q = d.byte q := by simp only [Dev.byte, Dev.message_gran]
@[simp] theorem Dev.message_site (d : Dev) (v : Nat) (q : Nat) : (d.message v).site q = d.site q := by simp only [Dev.site, Dev.message_sites]
@[simp] theorem Dev.message_inSite (d : Dev) (v : Nat) (q i : Nat) : (d.message v).inSite q i = d.inSite q i := by simp only [Dev.inSite, Dev.message_chmap]

/-! setBit. -/

@[simp] theorem Dev.setBit_units (d : Dev) (f : Fld) (j : Nat) : (d.setBit f j).units = d.units := by unfold Dev.setBit; simp only; (repeat' split) <;> simp
@[simp] theorem Dev.setBit_inUse (d : Dev) (f : Fld) (j : Nat) : (d.setBit f j).inUse = d.inUse := by unfold Dev.setBit; simp only; (repeat' split) <;> simp
@[simp] theorem Dev.setBit_waitGran (d : Dev) (f : Fld) (j : Nat) : (d.setBit f j).waitGran = d.waitGran := by unfold Dev.setBit; simp only; (repeat' split) <;> simp
@[simp] theorem Dev.setBit_waitBus (d : Dev) (f : Fld) (j : Nat) : (d.setBit f j).waitBus = d.waitBus := by unfold Dev.setBit; simp only; (repeat' split) <;> simp
@[simp] theorem Dev.setBit_serving (d : Dev) (f : Fld) (j : Nat) : (d.setBit f j).serving = d.serving := by unfold Dev.setBit; simp only; (repeat' split) <;> simp
@[simp] theorem Dev.setBit_ports (d : Dev) (f : Fld) (j : Nat) : (d.setBit f j).ports = d.ports := by unfold Dev.setBit; simp only; (repeat' split) <;> simp
@[simp] theorem Dev.setBit_gran (d : Dev) (f : Fld) (j : Nat) : (d.setBit f j).gran = d.gran := by unfold Dev.setBit; simp only; (repeat' split) <;> simp
@[simp] theorem Dev.setBit_ctxs (d : Dev) (f : Fld) (j : Nat) : (d.setBit f j).ctxs = d.ctxs := by unfold Dev.setBit; simp only; (repeat' split) <;> simp
@[simp] theorem Dev.setBit_sites (d : Dev) (f : Fld) (j : Nat) : (d.setBit f j).sites = d.sites := by unfold Dev.setBit; simp only; (repeat' split) <;> simp
@[simp] theorem Dev.setBit_chmap (d : Dev) (f : Fld) (j : Nat) : (d.setBit f j).chmap = d.chmap := by unfold Dev.setBit; simp only; (repeat' split) <;> simp
@[simp] theorem Dev.setBit_ctxCmd (d : Dev) (f : Fld) (j : Nat) : (d.setBit f j).ctxCmd = d.ctxCmd := by unfold Dev.setBit; simp only; (repeat' split) <;> simp
@[simp] theorem Dev.setBit_icache (d : Dev) (f : Fld) (j : Nat) : (d.setBit f j).icache = d.icache := by unfold Dev.setBit; simp only; (repeat' split) <;> simp
@[simp] theorem Dev.setBit_icacheBusy (d : Dev) (f : Fld) (j : Nat) : (d.setBit f j).icacheBusy = d.icacheBusy := by unfold Dev.setBit; simp only; (repeat' split) <;> simp
@[simp] theorem Dev.setBit_chans (d : Dev) (f : Fld) (j : Nat) : (d.setBit f j).chans = d.chans := by unfold Dev.setBit; simp only; (repeat' split) <;> simp
@[simp] theorem Dev.setBit_mons (d : Dev) (f : Fld) (j : Nat) : (d.setBit f j).mons = d.mons := by unfold Dev.setBit; simp only; (repeat' split) <;> simp
@[simp] theorem Dev.setBit_pats (d : Dev) (f : Fld) (j : Nat) : (d.setBit f j).pats = d.pats := by unfold Dev.setBit; simp only; (repeat' split) <;> simp
@[simp] theorem Dev.setBit_segw (d : Dev) (f : Fld) (j : Nat) : (d.setBit f j).segw = d.segw := by unfold Dev.setBit; simp only; (repeat' split) <;> simp
@[simp] theorem Dev.setBit_wfms (d : Dev) (f : Fld) (j : Nat) : (d.setBit f j).wfms = d.wfms := by unfold Dev.setBit; simp only; (repeat' split) <;> simp
@[simp] theorem Dev.setBit_caps (d : Dev) (f : Fld) (j : Nat) : (d.setBit f j).caps = d.caps := by unfold Dev.setBit; simp only; (repeat' split) <;> simp
@[simp] theorem Dev.setBit_tmes (d : Dev) (f : Fld) (j : Nat) : (d.setBit f j).tmes = d.tmes := by unfold Dev.setBit; simp only; (repeat' split) <;> simp
@[simp] theorem Dev.setBit_mills (d : Dev) (f : Fld) (j : Nat) : (d.setBit f j).mills = d.mills := by unfold Dev.setBit; simp only; (repeat' split) <;> simp
@[simp] theorem Dev.setBit_rasts (d : Dev) (f : Fld) (j : Nat) : (d.setBit f j).rasts = d.rasts := by unfold Dev.setBit; simp only; (repeat' split) <;> simp
@[simp] theorem Dev.setBit_dmas (d : Dev) (f : Fld) (j : Nat) : (d.setBit f j).dmas = d.dmas := by unfold Dev.setBit; simp only; (repeat' split) <;> simp
@[simp] theorem Dev.setBit_reed (d : Dev) (f : Fld) (j : Nat) : (d.setBit f j).reed = d.reed := by unfold Dev.setBit; simp only; (repeat' split) <;> simp
@[simp] theorem Dev.setBit_flash (d : Dev) (f : Fld) (j : Nat) : (d.setBit f j).flash = d.flash := by unfold Dev.setBit; simp only; (repeat' split) <;> simp
@[simp] theorem Dev.setBit_cal (d : Dev) (f : Fld) (j : Nat) : (d.setBit f j).cal = d.cal := by unfold Dev.setBit; simp only; (repeat' split) <;> simp
@[simp] theorem Dev.setBit_therm (d : Dev) (f : Fld) (j : Nat) : (d.setBit f j).therm = d.therm := by unfold Dev.setBit; simp only; (repeat' split) <;> simp
@[simp] theorem Dev.setBit_log (d : Dev) (f : Fld) (j : Nat) : (d.setBit f j).log = d.log := by unfold Dev.setBit; simp only; (repeat' split) <;> simp
@[simp] theorem Dev.setBit_ucode (d : Dev) (f : Fld) (j : Nat) : (d.setBit f j).ucode = d.ucode := by unfold Dev.setBit; simp only; (repeat' split) <;> simp
@[simp] theorem Dev.setBit_contain (d : Dev) (f : Fld) (j : Nat) : (d.setBit f j).contain = d.contain := by unfold Dev.setBit; simp only; (repeat' split) <;> simp
@[simp] theorem Dev.setBit_supply (d : Dev) (f : Fld) (j : Nat) : (d.setBit f j).supply = d.supply := by unfold Dev.setBit; simp only; (repeat' split) <;> simp
@[simp] theorem Dev.setBit_jtag (d : Dev) (f : Fld) (j : Nat) : (d.setBit f j).jtag = d.jtag := by unfold Dev.setBit; simp only; (repeat' split) <;> simp
@[simp] theorem Dev.setBit_boot (d : Dev) (f : Fld) (j : Nat) : (d.setBit f j).boot = d.boot := by unfold Dev.setBit; simp only; (repeat' split) <;> simp
@[simp] theorem Dev.setBit_evcRun (d : Dev) (f : Fld) (j : Nat) : (d.setBit f j).evcRun = d.evcRun := by unfold Dev.setBit; simp only; (repeat' split) <;> simp
@[simp] theorem Dev.setBit_judging (d : Dev) (f : Fld) (j : Nat) : (d.setBit f j).judging = d.judging := by unfold Dev.setBit; simp only; (repeat' split) <;> simp
@[simp] theorem Dev.setBit_freeCtr (d : Dev) (f : Fld) (j : Nat) : (d.setBit f j).freeCtr = d.freeCtr := by unfold Dev.setBit; simp only; (repeat' split) <;> simp
@[simp] theorem Dev.setBit_ctx (d : Dev) (f : Fld) (j : Nat) (q : Nat) : (d.setBit f j).ctx q = d.ctx q := by simp only [Dev.ctx, Dev.setBit_ctxs]
@[simp] theorem Dev.setBit_chan (d : Dev) (f : Fld) (j : Nat) (q : Nat) : (d.setBit f j).chan q = d.chan q := by simp only [Dev.chan, Dev.setBit_chans]
@[simp] theorem Dev.setBit_pat (d : Dev) (f : Fld) (j : Nat) (q : Nat) : (d.setBit f j).pat q = d.pat q := by simp only [Dev.pat, Dev.setBit_pats]
@[simp] theorem Dev.setBit_wfm (d : Dev) (f : Fld) (j : Nat) (q : Nat) : (d.setBit f j).wfm q = d.wfm q := by simp only [Dev.wfm, Dev.setBit_wfms]
@[simp] theorem Dev.setBit_cap (d : Dev) (f : Fld) (j : Nat) (q : Nat) : (d.setBit f j).cap q = d.cap q := by simp only [Dev.cap, Dev.setBit_caps]
@[simp] theorem Dev.setBit_tme (d : Dev) (f : Fld) (j : Nat) (q : Nat) : (d.setBit f j).tme q = d.tme q := by simp only [Dev.tme, Dev.setBit_tmes]
@[simp] theorem Dev.setBit_mill (d : Dev) (f : Fld) (j : Nat) (q : Nat) : (d.setBit f j).mill q = d.mill q := by simp only [Dev.mill, Dev.setBit_mills]
@[simp] theorem Dev.setBit_dma (d : Dev) (f : Fld) (j : Nat) (q : Nat) : (d.setBit f j).dma q = d.dma q := by simp only [Dev.dma, Dev.setBit_dmas]
@[simp] theorem Dev.setBit_rast (d : Dev) (f : Fld) (j : Nat) (q : Nat) : (d.setBit f j).rast q = d.rast q := by simp only [Dev.rast, Dev.setBit_rasts]
@[simp] theorem Dev.setBit_box (d : Dev) (f : Fld) (j : Nat) (q : Nat) : (d.setBit f j).box q = d.box q := by simp only [Dev.box, Dev.setBit_contain]
@[simp] theorem Dev.setBit_ustore (d : Dev) (f : Fld) (j : Nat) (q : Nat) : (d.setBit f j).ustore q = d.ustore q := by simp only [Dev.ustore, Dev.setBit_ucode]
@[simp] theorem Dev.setBit_unit (d : Dev) (f : Fld) (j : Nat) (q : Nat) : (d.setBit f j).unit q = d.unit q := by simp only [Dev.unit, Dev.setBit_units]
@[simp] theorem Dev.setBit_byte (d : Dev) (f : Fld) (j : Nat) (q : Nat) : (d.setBit f j).byte q = d.byte q := by simp only [Dev.byte, Dev.setBit_gran]
@[simp] theorem Dev.setBit_site (d : Dev) (f : Fld) (j : Nat) (q : Nat) : (d.setBit f j).site q = d.site q := by simp only [Dev.site, Dev.setBit_sites]
@[simp] theorem Dev.setBit_inSite (d : Dev) (f : Fld) (j : Nat) (q i : Nat) : (d.setBit f j).inSite q i = d.inSite q i := by simp only [Dev.inSite, Dev.setBit_chmap]

/-! flag. -/

@[simp] theorem Dev.flag_units (d : Dev) (f : Fld) : (d.flag f).units = d.units := by exact d.setBit_units f 0
@[simp] theorem Dev.flag_inUse (d : Dev) (f : Fld) : (d.flag f).inUse = d.inUse := by exact d.setBit_inUse f 0
@[simp] theorem Dev.flag_waitGran (d : Dev) (f : Fld) : (d.flag f).waitGran = d.waitGran := by exact d.setBit_waitGran f 0
@[simp] theorem Dev.flag_waitBus (d : Dev) (f : Fld) : (d.flag f).waitBus = d.waitBus := by exact d.setBit_waitBus f 0
@[simp] theorem Dev.flag_serving (d : Dev) (f : Fld) : (d.flag f).serving = d.serving := by exact d.setBit_serving f 0
@[simp] theorem Dev.flag_ports (d : Dev) (f : Fld) : (d.flag f).ports = d.ports := by exact d.setBit_ports f 0
@[simp] theorem Dev.flag_gran (d : Dev) (f : Fld) : (d.flag f).gran = d.gran := by exact d.setBit_gran f 0
@[simp] theorem Dev.flag_ctxs (d : Dev) (f : Fld) : (d.flag f).ctxs = d.ctxs := by exact d.setBit_ctxs f 0
@[simp] theorem Dev.flag_sites (d : Dev) (f : Fld) : (d.flag f).sites = d.sites := by exact d.setBit_sites f 0
@[simp] theorem Dev.flag_chmap (d : Dev) (f : Fld) : (d.flag f).chmap = d.chmap := by exact d.setBit_chmap f 0
@[simp] theorem Dev.flag_ctxCmd (d : Dev) (f : Fld) : (d.flag f).ctxCmd = d.ctxCmd := by exact d.setBit_ctxCmd f 0
@[simp] theorem Dev.flag_icache (d : Dev) (f : Fld) : (d.flag f).icache = d.icache := by exact d.setBit_icache f 0
@[simp] theorem Dev.flag_icacheBusy (d : Dev) (f : Fld) : (d.flag f).icacheBusy = d.icacheBusy := by exact d.setBit_icacheBusy f 0
@[simp] theorem Dev.flag_chans (d : Dev) (f : Fld) : (d.flag f).chans = d.chans := by exact d.setBit_chans f 0
@[simp] theorem Dev.flag_mons (d : Dev) (f : Fld) : (d.flag f).mons = d.mons := by exact d.setBit_mons f 0
@[simp] theorem Dev.flag_pats (d : Dev) (f : Fld) : (d.flag f).pats = d.pats := by exact d.setBit_pats f 0
@[simp] theorem Dev.flag_segw (d : Dev) (f : Fld) : (d.flag f).segw = d.segw := by exact d.setBit_segw f 0
@[simp] theorem Dev.flag_wfms (d : Dev) (f : Fld) : (d.flag f).wfms = d.wfms := by exact d.setBit_wfms f 0
@[simp] theorem Dev.flag_caps (d : Dev) (f : Fld) : (d.flag f).caps = d.caps := by exact d.setBit_caps f 0
@[simp] theorem Dev.flag_tmes (d : Dev) (f : Fld) : (d.flag f).tmes = d.tmes := by exact d.setBit_tmes f 0
@[simp] theorem Dev.flag_mills (d : Dev) (f : Fld) : (d.flag f).mills = d.mills := by exact d.setBit_mills f 0
@[simp] theorem Dev.flag_rasts (d : Dev) (f : Fld) : (d.flag f).rasts = d.rasts := by exact d.setBit_rasts f 0
@[simp] theorem Dev.flag_dmas (d : Dev) (f : Fld) : (d.flag f).dmas = d.dmas := by exact d.setBit_dmas f 0
@[simp] theorem Dev.flag_reed (d : Dev) (f : Fld) : (d.flag f).reed = d.reed := by exact d.setBit_reed f 0
@[simp] theorem Dev.flag_flash (d : Dev) (f : Fld) : (d.flag f).flash = d.flash := by exact d.setBit_flash f 0
@[simp] theorem Dev.flag_cal (d : Dev) (f : Fld) : (d.flag f).cal = d.cal := by exact d.setBit_cal f 0
@[simp] theorem Dev.flag_therm (d : Dev) (f : Fld) : (d.flag f).therm = d.therm := by exact d.setBit_therm f 0
@[simp] theorem Dev.flag_log (d : Dev) (f : Fld) : (d.flag f).log = d.log := by exact d.setBit_log f 0
@[simp] theorem Dev.flag_ucode (d : Dev) (f : Fld) : (d.flag f).ucode = d.ucode := by exact d.setBit_ucode f 0
@[simp] theorem Dev.flag_contain (d : Dev) (f : Fld) : (d.flag f).contain = d.contain := by exact d.setBit_contain f 0
@[simp] theorem Dev.flag_supply (d : Dev) (f : Fld) : (d.flag f).supply = d.supply := by exact d.setBit_supply f 0
@[simp] theorem Dev.flag_jtag (d : Dev) (f : Fld) : (d.flag f).jtag = d.jtag := by exact d.setBit_jtag f 0
@[simp] theorem Dev.flag_boot (d : Dev) (f : Fld) : (d.flag f).boot = d.boot := by exact d.setBit_boot f 0
@[simp] theorem Dev.flag_evcRun (d : Dev) (f : Fld) : (d.flag f).evcRun = d.evcRun := by exact d.setBit_evcRun f 0
@[simp] theorem Dev.flag_judging (d : Dev) (f : Fld) : (d.flag f).judging = d.judging := by exact d.setBit_judging f 0
@[simp] theorem Dev.flag_freeCtr (d : Dev) (f : Fld) : (d.flag f).freeCtr = d.freeCtr := by exact d.setBit_freeCtr f 0
@[simp] theorem Dev.flag_ctx (d : Dev) (f : Fld) (q : Nat) : (d.flag f).ctx q = d.ctx q := by simp only [Dev.ctx, Dev.flag_ctxs]
@[simp] theorem Dev.flag_chan (d : Dev) (f : Fld) (q : Nat) : (d.flag f).chan q = d.chan q := by simp only [Dev.chan, Dev.flag_chans]
@[simp] theorem Dev.flag_pat (d : Dev) (f : Fld) (q : Nat) : (d.flag f).pat q = d.pat q := by simp only [Dev.pat, Dev.flag_pats]
@[simp] theorem Dev.flag_wfm (d : Dev) (f : Fld) (q : Nat) : (d.flag f).wfm q = d.wfm q := by simp only [Dev.wfm, Dev.flag_wfms]
@[simp] theorem Dev.flag_cap (d : Dev) (f : Fld) (q : Nat) : (d.flag f).cap q = d.cap q := by simp only [Dev.cap, Dev.flag_caps]
@[simp] theorem Dev.flag_tme (d : Dev) (f : Fld) (q : Nat) : (d.flag f).tme q = d.tme q := by simp only [Dev.tme, Dev.flag_tmes]
@[simp] theorem Dev.flag_mill (d : Dev) (f : Fld) (q : Nat) : (d.flag f).mill q = d.mill q := by simp only [Dev.mill, Dev.flag_mills]
@[simp] theorem Dev.flag_dma (d : Dev) (f : Fld) (q : Nat) : (d.flag f).dma q = d.dma q := by simp only [Dev.dma, Dev.flag_dmas]
@[simp] theorem Dev.flag_rast (d : Dev) (f : Fld) (q : Nat) : (d.flag f).rast q = d.rast q := by simp only [Dev.rast, Dev.flag_rasts]
@[simp] theorem Dev.flag_box (d : Dev) (f : Fld) (q : Nat) : (d.flag f).box q = d.box q := by simp only [Dev.box, Dev.flag_contain]
@[simp] theorem Dev.flag_ustore (d : Dev) (f : Fld) (q : Nat) : (d.flag f).ustore q = d.ustore q := by simp only [Dev.ustore, Dev.flag_ucode]
@[simp] theorem Dev.flag_unit (d : Dev) (f : Fld) (q : Nat) : (d.flag f).unit q = d.unit q := by simp only [Dev.unit, Dev.flag_units]
@[simp] theorem Dev.flag_byte (d : Dev) (f : Fld) (q : Nat) : (d.flag f).byte q = d.byte q := by simp only [Dev.byte, Dev.flag_gran]
@[simp] theorem Dev.flag_site (d : Dev) (f : Fld) (q : Nat) : (d.flag f).site q = d.site q := by simp only [Dev.site, Dev.flag_sites]
@[simp] theorem Dev.flag_inSite (d : Dev) (f : Fld) (q i : Nat) : (d.flag f).inSite q i = d.inSite q i := by simp only [Dev.inSite, Dev.flag_chmap]

/-! irqLoom. -/

@[simp] theorem Dev.irqLoom_units (d : Dev) (h : Nat → Fld) (n : Nat) : (d.irqLoom h n).units = d.units := by unfold Dev.irqLoom; split <;> simp
@[simp] theorem Dev.irqLoom_inUse (d : Dev) (h : Nat → Fld) (n : Nat) : (d.irqLoom h n).inUse = d.inUse := by unfold Dev.irqLoom; split <;> simp
@[simp] theorem Dev.irqLoom_waitGran (d : Dev) (h : Nat → Fld) (n : Nat) : (d.irqLoom h n).waitGran = d.waitGran := by unfold Dev.irqLoom; split <;> simp
@[simp] theorem Dev.irqLoom_waitBus (d : Dev) (h : Nat → Fld) (n : Nat) : (d.irqLoom h n).waitBus = d.waitBus := by unfold Dev.irqLoom; split <;> simp
@[simp] theorem Dev.irqLoom_serving (d : Dev) (h : Nat → Fld) (n : Nat) : (d.irqLoom h n).serving = d.serving := by unfold Dev.irqLoom; split <;> simp
@[simp] theorem Dev.irqLoom_ports (d : Dev) (h : Nat → Fld) (n : Nat) : (d.irqLoom h n).ports = d.ports := by unfold Dev.irqLoom; split <;> simp
@[simp] theorem Dev.irqLoom_gran (d : Dev) (h : Nat → Fld) (n : Nat) : (d.irqLoom h n).gran = d.gran := by unfold Dev.irqLoom; split <;> simp
@[simp] theorem Dev.irqLoom_ctxs (d : Dev) (h : Nat → Fld) (n : Nat) : (d.irqLoom h n).ctxs = d.ctxs := by unfold Dev.irqLoom; split <;> simp
@[simp] theorem Dev.irqLoom_sites (d : Dev) (h : Nat → Fld) (n : Nat) : (d.irqLoom h n).sites = d.sites := by unfold Dev.irqLoom; split <;> simp
@[simp] theorem Dev.irqLoom_chmap (d : Dev) (h : Nat → Fld) (n : Nat) : (d.irqLoom h n).chmap = d.chmap := by unfold Dev.irqLoom; split <;> simp
@[simp] theorem Dev.irqLoom_ctxCmd (d : Dev) (h : Nat → Fld) (n : Nat) : (d.irqLoom h n).ctxCmd = d.ctxCmd := by unfold Dev.irqLoom; split <;> simp
@[simp] theorem Dev.irqLoom_icache (d : Dev) (h : Nat → Fld) (n : Nat) : (d.irqLoom h n).icache = d.icache := by unfold Dev.irqLoom; split <;> simp
@[simp] theorem Dev.irqLoom_icacheBusy (d : Dev) (h : Nat → Fld) (n : Nat) : (d.irqLoom h n).icacheBusy = d.icacheBusy := by unfold Dev.irqLoom; split <;> simp
@[simp] theorem Dev.irqLoom_chans (d : Dev) (h : Nat → Fld) (n : Nat) : (d.irqLoom h n).chans = d.chans := by unfold Dev.irqLoom; split <;> simp
@[simp] theorem Dev.irqLoom_mons (d : Dev) (h : Nat → Fld) (n : Nat) : (d.irqLoom h n).mons = d.mons := by unfold Dev.irqLoom; split <;> simp
@[simp] theorem Dev.irqLoom_pats (d : Dev) (h : Nat → Fld) (n : Nat) : (d.irqLoom h n).pats = d.pats := by unfold Dev.irqLoom; split <;> simp
@[simp] theorem Dev.irqLoom_segw (d : Dev) (h : Nat → Fld) (n : Nat) : (d.irqLoom h n).segw = d.segw := by unfold Dev.irqLoom; split <;> simp
@[simp] theorem Dev.irqLoom_wfms (d : Dev) (h : Nat → Fld) (n : Nat) : (d.irqLoom h n).wfms = d.wfms := by unfold Dev.irqLoom; split <;> simp
@[simp] theorem Dev.irqLoom_caps (d : Dev) (h : Nat → Fld) (n : Nat) : (d.irqLoom h n).caps = d.caps := by unfold Dev.irqLoom; split <;> simp
@[simp] theorem Dev.irqLoom_tmes (d : Dev) (h : Nat → Fld) (n : Nat) : (d.irqLoom h n).tmes = d.tmes := by unfold Dev.irqLoom; split <;> simp
@[simp] theorem Dev.irqLoom_mills (d : Dev) (h : Nat → Fld) (n : Nat) : (d.irqLoom h n).mills = d.mills := by unfold Dev.irqLoom; split <;> simp
@[simp] theorem Dev.irqLoom_rasts (d : Dev) (h : Nat → Fld) (n : Nat) : (d.irqLoom h n).rasts = d.rasts := by unfold Dev.irqLoom; split <;> simp
@[simp] theorem Dev.irqLoom_dmas (d : Dev) (h : Nat → Fld) (n : Nat) : (d.irqLoom h n).dmas = d.dmas := by unfold Dev.irqLoom; split <;> simp
@[simp] theorem Dev.irqLoom_reed (d : Dev) (h : Nat → Fld) (n : Nat) : (d.irqLoom h n).reed = d.reed := by unfold Dev.irqLoom; split <;> simp
@[simp] theorem Dev.irqLoom_flash (d : Dev) (h : Nat → Fld) (n : Nat) : (d.irqLoom h n).flash = d.flash := by unfold Dev.irqLoom; split <;> simp
@[simp] theorem Dev.irqLoom_cal (d : Dev) (h : Nat → Fld) (n : Nat) : (d.irqLoom h n).cal = d.cal := by unfold Dev.irqLoom; split <;> simp
@[simp] theorem Dev.irqLoom_therm (d : Dev) (h : Nat → Fld) (n : Nat) : (d.irqLoom h n).therm = d.therm := by unfold Dev.irqLoom; split <;> simp
@[simp] theorem Dev.irqLoom_log (d : Dev) (h : Nat → Fld) (n : Nat) : (d.irqLoom h n).log = d.log := by unfold Dev.irqLoom; split <;> simp
@[simp] theorem Dev.irqLoom_ucode (d : Dev) (h : Nat → Fld) (n : Nat) : (d.irqLoom h n).ucode = d.ucode := by unfold Dev.irqLoom; split <;> simp
@[simp] theorem Dev.irqLoom_contain (d : Dev) (h : Nat → Fld) (n : Nat) : (d.irqLoom h n).contain = d.contain := by unfold Dev.irqLoom; split <;> simp
@[simp] theorem Dev.irqLoom_supply (d : Dev) (h : Nat → Fld) (n : Nat) : (d.irqLoom h n).supply = d.supply := by unfold Dev.irqLoom; split <;> simp
@[simp] theorem Dev.irqLoom_jtag (d : Dev) (h : Nat → Fld) (n : Nat) : (d.irqLoom h n).jtag = d.jtag := by unfold Dev.irqLoom; split <;> simp
@[simp] theorem Dev.irqLoom_boot (d : Dev) (h : Nat → Fld) (n : Nat) : (d.irqLoom h n).boot = d.boot := by unfold Dev.irqLoom; split <;> simp
@[simp] theorem Dev.irqLoom_evcRun (d : Dev) (h : Nat → Fld) (n : Nat) : (d.irqLoom h n).evcRun = d.evcRun := by unfold Dev.irqLoom; split <;> simp
@[simp] theorem Dev.irqLoom_judging (d : Dev) (h : Nat → Fld) (n : Nat) : (d.irqLoom h n).judging = d.judging := by unfold Dev.irqLoom; split <;> simp
@[simp] theorem Dev.irqLoom_freeCtr (d : Dev) (h : Nat → Fld) (n : Nat) : (d.irqLoom h n).freeCtr = d.freeCtr := by unfold Dev.irqLoom; split <;> simp
@[simp] theorem Dev.irqLoom_ctx (d : Dev) (h : Nat → Fld) (n : Nat) (q : Nat) : (d.irqLoom h n).ctx q = d.ctx q := by simp only [Dev.ctx, Dev.irqLoom_ctxs]
@[simp] theorem Dev.irqLoom_chan (d : Dev) (h : Nat → Fld) (n : Nat) (q : Nat) : (d.irqLoom h n).chan q = d.chan q := by simp only [Dev.chan, Dev.irqLoom_chans]
@[simp] theorem Dev.irqLoom_pat (d : Dev) (h : Nat → Fld) (n : Nat) (q : Nat) : (d.irqLoom h n).pat q = d.pat q := by simp only [Dev.pat, Dev.irqLoom_pats]
@[simp] theorem Dev.irqLoom_wfm (d : Dev) (h : Nat → Fld) (n : Nat) (q : Nat) : (d.irqLoom h n).wfm q = d.wfm q := by simp only [Dev.wfm, Dev.irqLoom_wfms]
@[simp] theorem Dev.irqLoom_cap (d : Dev) (h : Nat → Fld) (n : Nat) (q : Nat) : (d.irqLoom h n).cap q = d.cap q := by simp only [Dev.cap, Dev.irqLoom_caps]
@[simp] theorem Dev.irqLoom_tme (d : Dev) (h : Nat → Fld) (n : Nat) (q : Nat) : (d.irqLoom h n).tme q = d.tme q := by simp only [Dev.tme, Dev.irqLoom_tmes]
@[simp] theorem Dev.irqLoom_mill (d : Dev) (h : Nat → Fld) (n : Nat) (q : Nat) : (d.irqLoom h n).mill q = d.mill q := by simp only [Dev.mill, Dev.irqLoom_mills]
@[simp] theorem Dev.irqLoom_dma (d : Dev) (h : Nat → Fld) (n : Nat) (q : Nat) : (d.irqLoom h n).dma q = d.dma q := by simp only [Dev.dma, Dev.irqLoom_dmas]
@[simp] theorem Dev.irqLoom_rast (d : Dev) (h : Nat → Fld) (n : Nat) (q : Nat) : (d.irqLoom h n).rast q = d.rast q := by simp only [Dev.rast, Dev.irqLoom_rasts]
@[simp] theorem Dev.irqLoom_box (d : Dev) (h : Nat → Fld) (n : Nat) (q : Nat) : (d.irqLoom h n).box q = d.box q := by simp only [Dev.box, Dev.irqLoom_contain]
@[simp] theorem Dev.irqLoom_ustore (d : Dev) (h : Nat → Fld) (n : Nat) (q : Nat) : (d.irqLoom h n).ustore q = d.ustore q := by simp only [Dev.ustore, Dev.irqLoom_ucode]
@[simp] theorem Dev.irqLoom_unit (d : Dev) (h : Nat → Fld) (n : Nat) (q : Nat) : (d.irqLoom h n).unit q = d.unit q := by simp only [Dev.unit, Dev.irqLoom_units]
@[simp] theorem Dev.irqLoom_byte (d : Dev) (h : Nat → Fld) (n : Nat) (q : Nat) : (d.irqLoom h n).byte q = d.byte q := by simp only [Dev.byte, Dev.irqLoom_gran]
@[simp] theorem Dev.irqLoom_site (d : Dev) (h : Nat → Fld) (n : Nat) (q : Nat) : (d.irqLoom h n).site q = d.site q := by simp only [Dev.site, Dev.irqLoom_sites]
@[simp] theorem Dev.irqLoom_inSite (d : Dev) (h : Nat → Fld) (n : Nat) (q i : Nat) : (d.irqLoom h n).inSite q i = d.inSite q i := by simp only [Dev.inSite, Dev.irqLoom_chmap]

/-! logRec. -/

@[simp] theorem Dev.logRec_units (d : Dev) (c v : Nat) : (d.logRec c v).units = d.units := by unfold Dev.logRec; (repeat' split) <;> simp
@[simp] theorem Dev.logRec_inUse (d : Dev) (c v : Nat) : (d.logRec c v).inUse = d.inUse := by unfold Dev.logRec; (repeat' split) <;> simp
@[simp] theorem Dev.logRec_waitGran (d : Dev) (c v : Nat) : (d.logRec c v).waitGran = d.waitGran := by unfold Dev.logRec; (repeat' split) <;> simp
@[simp] theorem Dev.logRec_waitBus (d : Dev) (c v : Nat) : (d.logRec c v).waitBus = d.waitBus := by unfold Dev.logRec; (repeat' split) <;> simp
@[simp] theorem Dev.logRec_serving (d : Dev) (c v : Nat) : (d.logRec c v).serving = d.serving := by unfold Dev.logRec; (repeat' split) <;> simp
@[simp] theorem Dev.logRec_ports (d : Dev) (c v : Nat) : (d.logRec c v).ports = d.ports := by unfold Dev.logRec; (repeat' split) <;> simp
@[simp] theorem Dev.logRec_gran (d : Dev) (c v : Nat) : (d.logRec c v).gran = d.gran := by unfold Dev.logRec; (repeat' split) <;> simp
@[simp] theorem Dev.logRec_ctxs (d : Dev) (c v : Nat) : (d.logRec c v).ctxs = d.ctxs := by unfold Dev.logRec; (repeat' split) <;> simp
@[simp] theorem Dev.logRec_sites (d : Dev) (c v : Nat) : (d.logRec c v).sites = d.sites := by unfold Dev.logRec; (repeat' split) <;> simp
@[simp] theorem Dev.logRec_chmap (d : Dev) (c v : Nat) : (d.logRec c v).chmap = d.chmap := by unfold Dev.logRec; (repeat' split) <;> simp
@[simp] theorem Dev.logRec_ctxCmd (d : Dev) (c v : Nat) : (d.logRec c v).ctxCmd = d.ctxCmd := by unfold Dev.logRec; (repeat' split) <;> simp
@[simp] theorem Dev.logRec_icache (d : Dev) (c v : Nat) : (d.logRec c v).icache = d.icache := by unfold Dev.logRec; (repeat' split) <;> simp
@[simp] theorem Dev.logRec_icacheBusy (d : Dev) (c v : Nat) : (d.logRec c v).icacheBusy = d.icacheBusy := by unfold Dev.logRec; (repeat' split) <;> simp
@[simp] theorem Dev.logRec_chans (d : Dev) (c v : Nat) : (d.logRec c v).chans = d.chans := by unfold Dev.logRec; (repeat' split) <;> simp
@[simp] theorem Dev.logRec_mons (d : Dev) (c v : Nat) : (d.logRec c v).mons = d.mons := by unfold Dev.logRec; (repeat' split) <;> simp
@[simp] theorem Dev.logRec_pats (d : Dev) (c v : Nat) : (d.logRec c v).pats = d.pats := by unfold Dev.logRec; (repeat' split) <;> simp
@[simp] theorem Dev.logRec_segw (d : Dev) (c v : Nat) : (d.logRec c v).segw = d.segw := by unfold Dev.logRec; (repeat' split) <;> simp
@[simp] theorem Dev.logRec_wfms (d : Dev) (c v : Nat) : (d.logRec c v).wfms = d.wfms := by unfold Dev.logRec; (repeat' split) <;> simp
@[simp] theorem Dev.logRec_caps (d : Dev) (c v : Nat) : (d.logRec c v).caps = d.caps := by unfold Dev.logRec; (repeat' split) <;> simp
@[simp] theorem Dev.logRec_tmes (d : Dev) (c v : Nat) : (d.logRec c v).tmes = d.tmes := by unfold Dev.logRec; (repeat' split) <;> simp
@[simp] theorem Dev.logRec_mills (d : Dev) (c v : Nat) : (d.logRec c v).mills = d.mills := by unfold Dev.logRec; (repeat' split) <;> simp
@[simp] theorem Dev.logRec_rasts (d : Dev) (c v : Nat) : (d.logRec c v).rasts = d.rasts := by unfold Dev.logRec; (repeat' split) <;> simp
@[simp] theorem Dev.logRec_dmas (d : Dev) (c v : Nat) : (d.logRec c v).dmas = d.dmas := by unfold Dev.logRec; (repeat' split) <;> simp
@[simp] theorem Dev.logRec_pcie (d : Dev) (c v : Nat) : (d.logRec c v).pcie = d.pcie := by unfold Dev.logRec; (repeat' split) <;> simp
@[simp] theorem Dev.logRec_reed (d : Dev) (c v : Nat) : (d.logRec c v).reed = d.reed := by unfold Dev.logRec; (repeat' split) <;> simp
@[simp] theorem Dev.logRec_flash (d : Dev) (c v : Nat) : (d.logRec c v).flash = d.flash := by unfold Dev.logRec; (repeat' split) <;> simp
@[simp] theorem Dev.logRec_cal (d : Dev) (c v : Nat) : (d.logRec c v).cal = d.cal := by unfold Dev.logRec; (repeat' split) <;> simp
@[simp] theorem Dev.logRec_therm (d : Dev) (c v : Nat) : (d.logRec c v).therm = d.therm := by unfold Dev.logRec; (repeat' split) <;> simp
@[simp] theorem Dev.logRec_ucode (d : Dev) (c v : Nat) : (d.logRec c v).ucode = d.ucode := by unfold Dev.logRec; (repeat' split) <;> simp
@[simp] theorem Dev.logRec_contain (d : Dev) (c v : Nat) : (d.logRec c v).contain = d.contain := by unfold Dev.logRec; (repeat' split) <;> simp
@[simp] theorem Dev.logRec_supply (d : Dev) (c v : Nat) : (d.logRec c v).supply = d.supply := by unfold Dev.logRec; (repeat' split) <;> simp
@[simp] theorem Dev.logRec_jtag (d : Dev) (c v : Nat) : (d.logRec c v).jtag = d.jtag := by unfold Dev.logRec; (repeat' split) <;> simp
@[simp] theorem Dev.logRec_boot (d : Dev) (c v : Nat) : (d.logRec c v).boot = d.boot := by unfold Dev.logRec; (repeat' split) <;> simp
@[simp] theorem Dev.logRec_evcRun (d : Dev) (c v : Nat) : (d.logRec c v).evcRun = d.evcRun := by unfold Dev.logRec; (repeat' split) <;> simp
@[simp] theorem Dev.logRec_judging (d : Dev) (c v : Nat) : (d.logRec c v).judging = d.judging := by unfold Dev.logRec; (repeat' split) <;> simp
@[simp] theorem Dev.logRec_freeCtr (d : Dev) (c v : Nat) : (d.logRec c v).freeCtr = d.freeCtr := by unfold Dev.logRec; (repeat' split) <;> simp
@[simp] theorem Dev.logRec_ctx (d : Dev) (c v : Nat) (q : Nat) : (d.logRec c v).ctx q = d.ctx q := by simp only [Dev.ctx, Dev.logRec_ctxs]
@[simp] theorem Dev.logRec_chan (d : Dev) (c v : Nat) (q : Nat) : (d.logRec c v).chan q = d.chan q := by simp only [Dev.chan, Dev.logRec_chans]
@[simp] theorem Dev.logRec_pat (d : Dev) (c v : Nat) (q : Nat) : (d.logRec c v).pat q = d.pat q := by simp only [Dev.pat, Dev.logRec_pats]
@[simp] theorem Dev.logRec_wfm (d : Dev) (c v : Nat) (q : Nat) : (d.logRec c v).wfm q = d.wfm q := by simp only [Dev.wfm, Dev.logRec_wfms]
@[simp] theorem Dev.logRec_cap (d : Dev) (c v : Nat) (q : Nat) : (d.logRec c v).cap q = d.cap q := by simp only [Dev.cap, Dev.logRec_caps]
@[simp] theorem Dev.logRec_tme (d : Dev) (c v : Nat) (q : Nat) : (d.logRec c v).tme q = d.tme q := by simp only [Dev.tme, Dev.logRec_tmes]
@[simp] theorem Dev.logRec_mill (d : Dev) (c v : Nat) (q : Nat) : (d.logRec c v).mill q = d.mill q := by simp only [Dev.mill, Dev.logRec_mills]
@[simp] theorem Dev.logRec_dma (d : Dev) (c v : Nat) (q : Nat) : (d.logRec c v).dma q = d.dma q := by simp only [Dev.dma, Dev.logRec_dmas]
@[simp] theorem Dev.logRec_rast (d : Dev) (c v : Nat) (q : Nat) : (d.logRec c v).rast q = d.rast q := by simp only [Dev.rast, Dev.logRec_rasts]
@[simp] theorem Dev.logRec_box (d : Dev) (c v : Nat) (q : Nat) : (d.logRec c v).box q = d.box q := by simp only [Dev.box, Dev.logRec_contain]
@[simp] theorem Dev.logRec_ustore (d : Dev) (c v : Nat) (q : Nat) : (d.logRec c v).ustore q = d.ustore q := by simp only [Dev.ustore, Dev.logRec_ucode]
@[simp] theorem Dev.logRec_unit (d : Dev) (c v : Nat) (q : Nat) : (d.logRec c v).unit q = d.unit q := by simp only [Dev.unit, Dev.logRec_units]
@[simp] theorem Dev.logRec_byte (d : Dev) (c v : Nat) (q : Nat) : (d.logRec c v).byte q = d.byte q := by simp only [Dev.byte, Dev.logRec_gran]
@[simp] theorem Dev.logRec_site (d : Dev) (c v : Nat) (q : Nat) : (d.logRec c v).site q = d.site q := by simp only [Dev.site, Dev.logRec_sites]
@[simp] theorem Dev.logRec_inSite (d : Dev) (c v : Nat) (q i : Nat) : (d.logRec c v).inSite q i = d.inSite q i := by simp only [Dev.inSite, Dev.logRec_chmap]

/-! elapse. -/

@[simp] theorem Dev.elapse_reed (d : Dev) (k : Nat) : (d.elapse k).reed = d.reed := by unfold Dev.elapse; split <;> simp
@[simp] theorem Dev.elapse_units (d : Dev) (k : Nat) : (d.elapse k).units = d.units := by unfold Dev.elapse; split <;> simp
@[simp] theorem Dev.elapse_inUse (d : Dev) (k : Nat) : (d.elapse k).inUse = d.inUse := by unfold Dev.elapse; split <;> simp
@[simp] theorem Dev.elapse_waitGran (d : Dev) (k : Nat) : (d.elapse k).waitGran = d.waitGran := by unfold Dev.elapse; split <;> simp
@[simp] theorem Dev.elapse_waitBus (d : Dev) (k : Nat) : (d.elapse k).waitBus = d.waitBus := by unfold Dev.elapse; split <;> simp
@[simp] theorem Dev.elapse_serving (d : Dev) (k : Nat) : (d.elapse k).serving = d.serving := by unfold Dev.elapse; split <;> simp
@[simp] theorem Dev.elapse_ports (d : Dev) (k : Nat) : (d.elapse k).ports = d.ports := by unfold Dev.elapse; split <;> simp
@[simp] theorem Dev.elapse_gran (d : Dev) (k : Nat) : (d.elapse k).gran = d.gran := by unfold Dev.elapse; split <;> simp
@[simp] theorem Dev.elapse_ctxs (d : Dev) (k : Nat) : (d.elapse k).ctxs = d.ctxs := by unfold Dev.elapse; split <;> simp
@[simp] theorem Dev.elapse_sites (d : Dev) (k : Nat) : (d.elapse k).sites = d.sites := by unfold Dev.elapse; split <;> simp
@[simp] theorem Dev.elapse_chmap (d : Dev) (k : Nat) : (d.elapse k).chmap = d.chmap := by unfold Dev.elapse; split <;> simp
@[simp] theorem Dev.elapse_ctxCmd (d : Dev) (k : Nat) : (d.elapse k).ctxCmd = d.ctxCmd := by unfold Dev.elapse; split <;> simp
@[simp] theorem Dev.elapse_icache (d : Dev) (k : Nat) : (d.elapse k).icache = d.icache := by unfold Dev.elapse; split <;> simp
@[simp] theorem Dev.elapse_icacheBusy (d : Dev) (k : Nat) : (d.elapse k).icacheBusy = d.icacheBusy := by unfold Dev.elapse; split <;> simp
@[simp] theorem Dev.elapse_chans (d : Dev) (k : Nat) : (d.elapse k).chans = d.chans := by unfold Dev.elapse; split <;> simp
@[simp] theorem Dev.elapse_mons (d : Dev) (k : Nat) : (d.elapse k).mons = d.mons := by unfold Dev.elapse; split <;> simp
@[simp] theorem Dev.elapse_pats (d : Dev) (k : Nat) : (d.elapse k).pats = d.pats := by unfold Dev.elapse; split <;> simp
@[simp] theorem Dev.elapse_segw (d : Dev) (k : Nat) : (d.elapse k).segw = d.segw := by unfold Dev.elapse; split <;> simp
@[simp] theorem Dev.elapse_wfms (d : Dev) (k : Nat) : (d.elapse k).wfms = d.wfms := by unfold Dev.elapse; split <;> simp
@[simp] theorem Dev.elapse_caps (d : Dev) (k : Nat) : (d.elapse k).caps = d.caps := by unfold Dev.elapse; split <;> simp
@[simp] theorem Dev.elapse_tmes (d : Dev) (k : Nat) : (d.elapse k).tmes = d.tmes := by unfold Dev.elapse; split <;> simp
@[simp] theorem Dev.elapse_mills (d : Dev) (k : Nat) : (d.elapse k).mills = d.mills := by unfold Dev.elapse; split <;> simp
@[simp] theorem Dev.elapse_rasts (d : Dev) (k : Nat) : (d.elapse k).rasts = d.rasts := by unfold Dev.elapse; split <;> simp
@[simp] theorem Dev.elapse_dmas (d : Dev) (k : Nat) : (d.elapse k).dmas = d.dmas := by unfold Dev.elapse; split <;> simp
@[simp] theorem Dev.elapse_pcie (d : Dev) (k : Nat) : (d.elapse k).pcie = d.pcie := by unfold Dev.elapse; split <;> simp
@[simp] theorem Dev.elapse_flash (d : Dev) (k : Nat) : (d.elapse k).flash = d.flash := by unfold Dev.elapse; split <;> simp
@[simp] theorem Dev.elapse_cal (d : Dev) (k : Nat) : (d.elapse k).cal = d.cal := by unfold Dev.elapse; split <;> simp
@[simp] theorem Dev.elapse_therm (d : Dev) (k : Nat) : (d.elapse k).therm = d.therm := by unfold Dev.elapse; split <;> simp
@[simp] theorem Dev.elapse_log (d : Dev) (k : Nat) : (d.elapse k).log = d.log := by unfold Dev.elapse; split <;> simp
@[simp] theorem Dev.elapse_ucode (d : Dev) (k : Nat) : (d.elapse k).ucode = d.ucode := by unfold Dev.elapse; split <;> simp
@[simp] theorem Dev.elapse_contain (d : Dev) (k : Nat) : (d.elapse k).contain = d.contain := by unfold Dev.elapse; split <;> simp
@[simp] theorem Dev.elapse_supply (d : Dev) (k : Nat) : (d.elapse k).supply = d.supply := by unfold Dev.elapse; split <;> simp
@[simp] theorem Dev.elapse_jtag (d : Dev) (k : Nat) : (d.elapse k).jtag = d.jtag := by unfold Dev.elapse; split <;> simp
@[simp] theorem Dev.elapse_boot (d : Dev) (k : Nat) : (d.elapse k).boot = d.boot := by unfold Dev.elapse; split <;> simp
@[simp] theorem Dev.elapse_evcRun (d : Dev) (k : Nat) : (d.elapse k).evcRun = d.evcRun := by unfold Dev.elapse; split <;> simp
@[simp] theorem Dev.elapse_judging (d : Dev) (k : Nat) : (d.elapse k).judging = d.judging := by unfold Dev.elapse; split <;> simp
@[simp] theorem Dev.elapse_freeCtr (d : Dev) (k : Nat) : (d.elapse k).freeCtr = d.freeCtr := by unfold Dev.elapse; split <;> simp

/-! advanceTo. -/

@[simp] theorem Dev.advanceTo_units (d : Dev) (t : Nat) : (d.advanceTo t).units = d.units := by unfold Dev.advanceTo; split <;> simp
@[simp] theorem Dev.advanceTo_inUse (d : Dev) (t : Nat) : (d.advanceTo t).inUse = d.inUse := by unfold Dev.advanceTo; split <;> simp
@[simp] theorem Dev.advanceTo_waitGran (d : Dev) (t : Nat) : (d.advanceTo t).waitGran = d.waitGran := by unfold Dev.advanceTo; split <;> simp
@[simp] theorem Dev.advanceTo_waitBus (d : Dev) (t : Nat) : (d.advanceTo t).waitBus = d.waitBus := by unfold Dev.advanceTo; split <;> simp
@[simp] theorem Dev.advanceTo_serving (d : Dev) (t : Nat) : (d.advanceTo t).serving = d.serving := by unfold Dev.advanceTo; split <;> simp
@[simp] theorem Dev.advanceTo_ports (d : Dev) (t : Nat) : (d.advanceTo t).ports = d.ports := by unfold Dev.advanceTo; split <;> simp
@[simp] theorem Dev.advanceTo_gran (d : Dev) (t : Nat) : (d.advanceTo t).gran = d.gran := by unfold Dev.advanceTo; split <;> simp
@[simp] theorem Dev.advanceTo_ctxs (d : Dev) (t : Nat) : (d.advanceTo t).ctxs = d.ctxs := by unfold Dev.advanceTo; split <;> simp
@[simp] theorem Dev.advanceTo_sites (d : Dev) (t : Nat) : (d.advanceTo t).sites = d.sites := by unfold Dev.advanceTo; split <;> simp
@[simp] theorem Dev.advanceTo_chmap (d : Dev) (t : Nat) : (d.advanceTo t).chmap = d.chmap := by unfold Dev.advanceTo; split <;> simp
@[simp] theorem Dev.advanceTo_ctxCmd (d : Dev) (t : Nat) : (d.advanceTo t).ctxCmd = d.ctxCmd := by unfold Dev.advanceTo; split <;> simp
@[simp] theorem Dev.advanceTo_icache (d : Dev) (t : Nat) : (d.advanceTo t).icache = d.icache := by unfold Dev.advanceTo; split <;> simp
@[simp] theorem Dev.advanceTo_icacheBusy (d : Dev) (t : Nat) : (d.advanceTo t).icacheBusy = d.icacheBusy := by unfold Dev.advanceTo; split <;> simp
@[simp] theorem Dev.advanceTo_chans (d : Dev) (t : Nat) : (d.advanceTo t).chans = d.chans := by unfold Dev.advanceTo; split <;> simp
@[simp] theorem Dev.advanceTo_mons (d : Dev) (t : Nat) : (d.advanceTo t).mons = d.mons := by unfold Dev.advanceTo; split <;> simp
@[simp] theorem Dev.advanceTo_pats (d : Dev) (t : Nat) : (d.advanceTo t).pats = d.pats := by unfold Dev.advanceTo; split <;> simp
@[simp] theorem Dev.advanceTo_segw (d : Dev) (t : Nat) : (d.advanceTo t).segw = d.segw := by unfold Dev.advanceTo; split <;> simp
@[simp] theorem Dev.advanceTo_wfms (d : Dev) (t : Nat) : (d.advanceTo t).wfms = d.wfms := by unfold Dev.advanceTo; split <;> simp
@[simp] theorem Dev.advanceTo_caps (d : Dev) (t : Nat) : (d.advanceTo t).caps = d.caps := by unfold Dev.advanceTo; split <;> simp
@[simp] theorem Dev.advanceTo_tmes (d : Dev) (t : Nat) : (d.advanceTo t).tmes = d.tmes := by unfold Dev.advanceTo; split <;> simp
@[simp] theorem Dev.advanceTo_mills (d : Dev) (t : Nat) : (d.advanceTo t).mills = d.mills := by unfold Dev.advanceTo; split <;> simp
@[simp] theorem Dev.advanceTo_rasts (d : Dev) (t : Nat) : (d.advanceTo t).rasts = d.rasts := by unfold Dev.advanceTo; split <;> simp
@[simp] theorem Dev.advanceTo_dmas (d : Dev) (t : Nat) : (d.advanceTo t).dmas = d.dmas := by unfold Dev.advanceTo; split <;> simp
@[simp] theorem Dev.advanceTo_pcie (d : Dev) (t : Nat) : (d.advanceTo t).pcie = d.pcie := by unfold Dev.advanceTo; split <;> simp
@[simp] theorem Dev.advanceTo_flash (d : Dev) (t : Nat) : (d.advanceTo t).flash = d.flash := by unfold Dev.advanceTo; split <;> simp
@[simp] theorem Dev.advanceTo_cal (d : Dev) (t : Nat) : (d.advanceTo t).cal = d.cal := by unfold Dev.advanceTo; split <;> simp
@[simp] theorem Dev.advanceTo_therm (d : Dev) (t : Nat) : (d.advanceTo t).therm = d.therm := by unfold Dev.advanceTo; split <;> simp
@[simp] theorem Dev.advanceTo_log (d : Dev) (t : Nat) : (d.advanceTo t).log = d.log := by unfold Dev.advanceTo; split <;> simp
@[simp] theorem Dev.advanceTo_ucode (d : Dev) (t : Nat) : (d.advanceTo t).ucode = d.ucode := by unfold Dev.advanceTo; split <;> simp
@[simp] theorem Dev.advanceTo_contain (d : Dev) (t : Nat) : (d.advanceTo t).contain = d.contain := by unfold Dev.advanceTo; split <;> simp
@[simp] theorem Dev.advanceTo_supply (d : Dev) (t : Nat) : (d.advanceTo t).supply = d.supply := by unfold Dev.advanceTo; split <;> simp
@[simp] theorem Dev.advanceTo_jtag (d : Dev) (t : Nat) : (d.advanceTo t).jtag = d.jtag := by unfold Dev.advanceTo; split <;> simp
@[simp] theorem Dev.advanceTo_boot (d : Dev) (t : Nat) : (d.advanceTo t).boot = d.boot := by unfold Dev.advanceTo; split <;> simp
@[simp] theorem Dev.advanceTo_evcRun (d : Dev) (t : Nat) : (d.advanceTo t).evcRun = d.evcRun := by unfold Dev.advanceTo; split <;> simp
@[simp] theorem Dev.advanceTo_judging (d : Dev) (t : Nat) : (d.advanceTo t).judging = d.judging := by unfold Dev.advanceTo; split <;> simp
@[simp] theorem Dev.advanceTo_freeCtr (d : Dev) (t : Nat) : (d.advanceTo t).freeCtr = d.freeCtr := by unfold Dev.advanceTo; split <;> simp
@[simp] theorem Dev.advanceTo_ctx (d : Dev) (t : Nat) (q : Nat) : (d.advanceTo t).ctx q = d.ctx q := by simp only [Dev.ctx, Dev.advanceTo_ctxs]
@[simp] theorem Dev.advanceTo_chan (d : Dev) (t : Nat) (q : Nat) : (d.advanceTo t).chan q = d.chan q := by simp only [Dev.chan, Dev.advanceTo_chans]
@[simp] theorem Dev.advanceTo_pat (d : Dev) (t : Nat) (q : Nat) : (d.advanceTo t).pat q = d.pat q := by simp only [Dev.pat, Dev.advanceTo_pats]
@[simp] theorem Dev.advanceTo_wfm (d : Dev) (t : Nat) (q : Nat) : (d.advanceTo t).wfm q = d.wfm q := by simp only [Dev.wfm, Dev.advanceTo_wfms]
@[simp] theorem Dev.advanceTo_cap (d : Dev) (t : Nat) (q : Nat) : (d.advanceTo t).cap q = d.cap q := by simp only [Dev.cap, Dev.advanceTo_caps]
@[simp] theorem Dev.advanceTo_tme (d : Dev) (t : Nat) (q : Nat) : (d.advanceTo t).tme q = d.tme q := by simp only [Dev.tme, Dev.advanceTo_tmes]
@[simp] theorem Dev.advanceTo_mill (d : Dev) (t : Nat) (q : Nat) : (d.advanceTo t).mill q = d.mill q := by simp only [Dev.mill, Dev.advanceTo_mills]
@[simp] theorem Dev.advanceTo_dma (d : Dev) (t : Nat) (q : Nat) : (d.advanceTo t).dma q = d.dma q := by simp only [Dev.dma, Dev.advanceTo_dmas]
@[simp] theorem Dev.advanceTo_rast (d : Dev) (t : Nat) (q : Nat) : (d.advanceTo t).rast q = d.rast q := by simp only [Dev.rast, Dev.advanceTo_rasts]
@[simp] theorem Dev.advanceTo_box (d : Dev) (t : Nat) (q : Nat) : (d.advanceTo t).box q = d.box q := by simp only [Dev.box, Dev.advanceTo_contain]
@[simp] theorem Dev.advanceTo_ustore (d : Dev) (t : Nat) (q : Nat) : (d.advanceTo t).ustore q = d.ustore q := by simp only [Dev.ustore, Dev.advanceTo_ucode]
@[simp] theorem Dev.advanceTo_unit (d : Dev) (t : Nat) (q : Nat) : (d.advanceTo t).unit q = d.unit q := by simp only [Dev.unit, Dev.advanceTo_units]
@[simp] theorem Dev.advanceTo_byte (d : Dev) (t : Nat) (q : Nat) : (d.advanceTo t).byte q = d.byte q := by simp only [Dev.byte, Dev.advanceTo_gran]
@[simp] theorem Dev.advanceTo_site (d : Dev) (t : Nat) (q : Nat) : (d.advanceTo t).site q = d.site q := by simp only [Dev.site, Dev.advanceTo_sites]
@[simp] theorem Dev.advanceTo_inSite (d : Dev) (t : Nat) (q i : Nat) : (d.advanceTo t).inSite q i = d.inSite q i := by simp only [Dev.inSite, Dev.advanceTo_chmap]

/-! localTo. -/

@[simp] theorem Dev.localTo_units (d : Dev) (t : Nat) : (d.localTo t).units = d.units := by unfold Dev.localTo; split <;> simp
@[simp] theorem Dev.localTo_inUse (d : Dev) (t : Nat) : (d.localTo t).inUse = d.inUse := by unfold Dev.localTo; split <;> simp
@[simp] theorem Dev.localTo_waitGran (d : Dev) (t : Nat) : (d.localTo t).waitGran = d.waitGran := by unfold Dev.localTo; split <;> simp
@[simp] theorem Dev.localTo_waitBus (d : Dev) (t : Nat) : (d.localTo t).waitBus = d.waitBus := by unfold Dev.localTo; split <;> simp
@[simp] theorem Dev.localTo_serving (d : Dev) (t : Nat) : (d.localTo t).serving = d.serving := by unfold Dev.localTo; split <;> simp
@[simp] theorem Dev.localTo_ports (d : Dev) (t : Nat) : (d.localTo t).ports = d.ports := by unfold Dev.localTo; split <;> simp
@[simp] theorem Dev.localTo_gran (d : Dev) (t : Nat) : (d.localTo t).gran = d.gran := by unfold Dev.localTo; split <;> simp
@[simp] theorem Dev.localTo_ctxs (d : Dev) (t : Nat) : (d.localTo t).ctxs = d.ctxs := by unfold Dev.localTo; split <;> simp
@[simp] theorem Dev.localTo_sites (d : Dev) (t : Nat) : (d.localTo t).sites = d.sites := by unfold Dev.localTo; split <;> simp
@[simp] theorem Dev.localTo_chmap (d : Dev) (t : Nat) : (d.localTo t).chmap = d.chmap := by unfold Dev.localTo; split <;> simp
@[simp] theorem Dev.localTo_ctxCmd (d : Dev) (t : Nat) : (d.localTo t).ctxCmd = d.ctxCmd := by unfold Dev.localTo; split <;> simp
@[simp] theorem Dev.localTo_icache (d : Dev) (t : Nat) : (d.localTo t).icache = d.icache := by unfold Dev.localTo; split <;> simp
@[simp] theorem Dev.localTo_icacheBusy (d : Dev) (t : Nat) : (d.localTo t).icacheBusy = d.icacheBusy := by unfold Dev.localTo; split <;> simp
@[simp] theorem Dev.localTo_chans (d : Dev) (t : Nat) : (d.localTo t).chans = d.chans := by unfold Dev.localTo; split <;> simp
@[simp] theorem Dev.localTo_mons (d : Dev) (t : Nat) : (d.localTo t).mons = d.mons := by unfold Dev.localTo; split <;> simp
@[simp] theorem Dev.localTo_pats (d : Dev) (t : Nat) : (d.localTo t).pats = d.pats := by unfold Dev.localTo; split <;> simp
@[simp] theorem Dev.localTo_segw (d : Dev) (t : Nat) : (d.localTo t).segw = d.segw := by unfold Dev.localTo; split <;> simp
@[simp] theorem Dev.localTo_wfms (d : Dev) (t : Nat) : (d.localTo t).wfms = d.wfms := by unfold Dev.localTo; split <;> simp
@[simp] theorem Dev.localTo_caps (d : Dev) (t : Nat) : (d.localTo t).caps = d.caps := by unfold Dev.localTo; split <;> simp
@[simp] theorem Dev.localTo_tmes (d : Dev) (t : Nat) : (d.localTo t).tmes = d.tmes := by unfold Dev.localTo; split <;> simp
@[simp] theorem Dev.localTo_mills (d : Dev) (t : Nat) : (d.localTo t).mills = d.mills := by unfold Dev.localTo; split <;> simp
@[simp] theorem Dev.localTo_rasts (d : Dev) (t : Nat) : (d.localTo t).rasts = d.rasts := by unfold Dev.localTo; split <;> simp
@[simp] theorem Dev.localTo_dmas (d : Dev) (t : Nat) : (d.localTo t).dmas = d.dmas := by unfold Dev.localTo; split <;> simp
@[simp] theorem Dev.localTo_pcie (d : Dev) (t : Nat) : (d.localTo t).pcie = d.pcie := by unfold Dev.localTo; split <;> simp
@[simp] theorem Dev.localTo_flash (d : Dev) (t : Nat) : (d.localTo t).flash = d.flash := by unfold Dev.localTo; split <;> simp
@[simp] theorem Dev.localTo_cal (d : Dev) (t : Nat) : (d.localTo t).cal = d.cal := by unfold Dev.localTo; split <;> simp
@[simp] theorem Dev.localTo_therm (d : Dev) (t : Nat) : (d.localTo t).therm = d.therm := by unfold Dev.localTo; split <;> simp
@[simp] theorem Dev.localTo_log (d : Dev) (t : Nat) : (d.localTo t).log = d.log := by unfold Dev.localTo; split <;> simp
@[simp] theorem Dev.localTo_ucode (d : Dev) (t : Nat) : (d.localTo t).ucode = d.ucode := by unfold Dev.localTo; split <;> simp
@[simp] theorem Dev.localTo_contain (d : Dev) (t : Nat) : (d.localTo t).contain = d.contain := by unfold Dev.localTo; split <;> simp
@[simp] theorem Dev.localTo_supply (d : Dev) (t : Nat) : (d.localTo t).supply = d.supply := by unfold Dev.localTo; split <;> simp
@[simp] theorem Dev.localTo_jtag (d : Dev) (t : Nat) : (d.localTo t).jtag = d.jtag := by unfold Dev.localTo; split <;> simp
@[simp] theorem Dev.localTo_boot (d : Dev) (t : Nat) : (d.localTo t).boot = d.boot := by unfold Dev.localTo; split <;> simp
@[simp] theorem Dev.localTo_evcRun (d : Dev) (t : Nat) : (d.localTo t).evcRun = d.evcRun := by unfold Dev.localTo; split <;> simp
@[simp] theorem Dev.localTo_judging (d : Dev) (t : Nat) : (d.localTo t).judging = d.judging := by unfold Dev.localTo; split <;> simp
@[simp] theorem Dev.localTo_freeCtr (d : Dev) (t : Nat) : (d.localTo t).freeCtr = d.freeCtr := by unfold Dev.localTo; split <;> simp
@[simp] theorem Dev.localTo_ctx (d : Dev) (t : Nat) (q : Nat) : (d.localTo t).ctx q = d.ctx q := by simp only [Dev.ctx, Dev.localTo_ctxs]
@[simp] theorem Dev.localTo_chan (d : Dev) (t : Nat) (q : Nat) : (d.localTo t).chan q = d.chan q := by simp only [Dev.chan, Dev.localTo_chans]
@[simp] theorem Dev.localTo_pat (d : Dev) (t : Nat) (q : Nat) : (d.localTo t).pat q = d.pat q := by simp only [Dev.pat, Dev.localTo_pats]
@[simp] theorem Dev.localTo_wfm (d : Dev) (t : Nat) (q : Nat) : (d.localTo t).wfm q = d.wfm q := by simp only [Dev.wfm, Dev.localTo_wfms]
@[simp] theorem Dev.localTo_cap (d : Dev) (t : Nat) (q : Nat) : (d.localTo t).cap q = d.cap q := by simp only [Dev.cap, Dev.localTo_caps]
@[simp] theorem Dev.localTo_tme (d : Dev) (t : Nat) (q : Nat) : (d.localTo t).tme q = d.tme q := by simp only [Dev.tme, Dev.localTo_tmes]
@[simp] theorem Dev.localTo_mill (d : Dev) (t : Nat) (q : Nat) : (d.localTo t).mill q = d.mill q := by simp only [Dev.mill, Dev.localTo_mills]
@[simp] theorem Dev.localTo_dma (d : Dev) (t : Nat) (q : Nat) : (d.localTo t).dma q = d.dma q := by simp only [Dev.dma, Dev.localTo_dmas]
@[simp] theorem Dev.localTo_rast (d : Dev) (t : Nat) (q : Nat) : (d.localTo t).rast q = d.rast q := by simp only [Dev.rast, Dev.localTo_rasts]
@[simp] theorem Dev.localTo_box (d : Dev) (t : Nat) (q : Nat) : (d.localTo t).box q = d.box q := by simp only [Dev.box, Dev.localTo_contain]
@[simp] theorem Dev.localTo_ustore (d : Dev) (t : Nat) (q : Nat) : (d.localTo t).ustore q = d.ustore q := by simp only [Dev.ustore, Dev.localTo_ucode]
@[simp] theorem Dev.localTo_unit (d : Dev) (t : Nat) (q : Nat) : (d.localTo t).unit q = d.unit q := by simp only [Dev.unit, Dev.localTo_units]
@[simp] theorem Dev.localTo_byte (d : Dev) (t : Nat) (q : Nat) : (d.localTo t).byte q = d.byte q := by simp only [Dev.byte, Dev.localTo_gran]
@[simp] theorem Dev.localTo_site (d : Dev) (t : Nat) (q : Nat) : (d.localTo t).site q = d.site q := by simp only [Dev.site, Dev.localTo_sites]
@[simp] theorem Dev.localTo_inSite (d : Dev) (t : Nat) (q i : Nat) : (d.localTo t).inSite q i = d.inSite q i := by simp only [Dev.inSite, Dev.localTo_chmap]

/-! notePeaks. -/

@[simp] theorem Dev.notePeaks_units (d : Dev) (r : Partition) (n : Nat) : (d.notePeaks r n).units = d.units := by unfold Dev.notePeaks; simp only; (repeat' split) <;> simp
@[simp] theorem Dev.notePeaks_inUse (d : Dev) (r : Partition) (n : Nat) : (d.notePeaks r n).inUse = d.inUse := by unfold Dev.notePeaks; simp only; (repeat' split) <;> simp
@[simp] theorem Dev.notePeaks_waitGran (d : Dev) (r : Partition) (n : Nat) : (d.notePeaks r n).waitGran = d.waitGran := by unfold Dev.notePeaks; simp only; (repeat' split) <;> simp
@[simp] theorem Dev.notePeaks_waitBus (d : Dev) (r : Partition) (n : Nat) : (d.notePeaks r n).waitBus = d.waitBus := by unfold Dev.notePeaks; simp only; (repeat' split) <;> simp
@[simp] theorem Dev.notePeaks_serving (d : Dev) (r : Partition) (n : Nat) : (d.notePeaks r n).serving = d.serving := by unfold Dev.notePeaks; simp only; (repeat' split) <;> simp
@[simp] theorem Dev.notePeaks_ports (d : Dev) (r : Partition) (n : Nat) : (d.notePeaks r n).ports = d.ports := by unfold Dev.notePeaks; simp only; (repeat' split) <;> simp
@[simp] theorem Dev.notePeaks_gran (d : Dev) (r : Partition) (n : Nat) : (d.notePeaks r n).gran = d.gran := by unfold Dev.notePeaks; simp only; (repeat' split) <;> simp
@[simp] theorem Dev.notePeaks_ctxs (d : Dev) (r : Partition) (n : Nat) : (d.notePeaks r n).ctxs = d.ctxs := by unfold Dev.notePeaks; simp only; (repeat' split) <;> simp
@[simp] theorem Dev.notePeaks_sites (d : Dev) (r : Partition) (n : Nat) : (d.notePeaks r n).sites = d.sites := by unfold Dev.notePeaks; simp only; (repeat' split) <;> simp
@[simp] theorem Dev.notePeaks_chmap (d : Dev) (r : Partition) (n : Nat) : (d.notePeaks r n).chmap = d.chmap := by unfold Dev.notePeaks; simp only; (repeat' split) <;> simp
@[simp] theorem Dev.notePeaks_ctxCmd (d : Dev) (r : Partition) (n : Nat) : (d.notePeaks r n).ctxCmd = d.ctxCmd := by unfold Dev.notePeaks; simp only; (repeat' split) <;> simp
@[simp] theorem Dev.notePeaks_icache (d : Dev) (r : Partition) (n : Nat) : (d.notePeaks r n).icache = d.icache := by unfold Dev.notePeaks; simp only; (repeat' split) <;> simp
@[simp] theorem Dev.notePeaks_icacheBusy (d : Dev) (r : Partition) (n : Nat) : (d.notePeaks r n).icacheBusy = d.icacheBusy := by unfold Dev.notePeaks; simp only; (repeat' split) <;> simp
@[simp] theorem Dev.notePeaks_chans (d : Dev) (r : Partition) (n : Nat) : (d.notePeaks r n).chans = d.chans := by unfold Dev.notePeaks; simp only; (repeat' split) <;> simp
@[simp] theorem Dev.notePeaks_mons (d : Dev) (r : Partition) (n : Nat) : (d.notePeaks r n).mons = d.mons := by unfold Dev.notePeaks; simp only; (repeat' split) <;> simp
@[simp] theorem Dev.notePeaks_pats (d : Dev) (r : Partition) (n : Nat) : (d.notePeaks r n).pats = d.pats := by unfold Dev.notePeaks; simp only; (repeat' split) <;> simp
@[simp] theorem Dev.notePeaks_segw (d : Dev) (r : Partition) (n : Nat) : (d.notePeaks r n).segw = d.segw := by unfold Dev.notePeaks; simp only; (repeat' split) <;> simp
@[simp] theorem Dev.notePeaks_wfms (d : Dev) (r : Partition) (n : Nat) : (d.notePeaks r n).wfms = d.wfms := by unfold Dev.notePeaks; simp only; (repeat' split) <;> simp
@[simp] theorem Dev.notePeaks_caps (d : Dev) (r : Partition) (n : Nat) : (d.notePeaks r n).caps = d.caps := by unfold Dev.notePeaks; simp only; (repeat' split) <;> simp
@[simp] theorem Dev.notePeaks_tmes (d : Dev) (r : Partition) (n : Nat) : (d.notePeaks r n).tmes = d.tmes := by unfold Dev.notePeaks; simp only; (repeat' split) <;> simp
@[simp] theorem Dev.notePeaks_mills (d : Dev) (r : Partition) (n : Nat) : (d.notePeaks r n).mills = d.mills := by unfold Dev.notePeaks; simp only; (repeat' split) <;> simp
@[simp] theorem Dev.notePeaks_rasts (d : Dev) (r : Partition) (n : Nat) : (d.notePeaks r n).rasts = d.rasts := by unfold Dev.notePeaks; simp only; (repeat' split) <;> simp
@[simp] theorem Dev.notePeaks_dmas (d : Dev) (r : Partition) (n : Nat) : (d.notePeaks r n).dmas = d.dmas := by unfold Dev.notePeaks; simp only; (repeat' split) <;> simp
@[simp] theorem Dev.notePeaks_pcie (d : Dev) (r : Partition) (n : Nat) : (d.notePeaks r n).pcie = d.pcie := by unfold Dev.notePeaks; simp only; (repeat' split) <;> simp
@[simp] theorem Dev.notePeaks_reed (d : Dev) (r : Partition) (n : Nat) : (d.notePeaks r n).reed = d.reed := by unfold Dev.notePeaks; simp only; (repeat' split) <;> simp
@[simp] theorem Dev.notePeaks_flash (d : Dev) (r : Partition) (n : Nat) : (d.notePeaks r n).flash = d.flash := by unfold Dev.notePeaks; simp only; (repeat' split) <;> simp
@[simp] theorem Dev.notePeaks_cal (d : Dev) (r : Partition) (n : Nat) : (d.notePeaks r n).cal = d.cal := by unfold Dev.notePeaks; simp only; (repeat' split) <;> simp
@[simp] theorem Dev.notePeaks_therm (d : Dev) (r : Partition) (n : Nat) : (d.notePeaks r n).therm = d.therm := by unfold Dev.notePeaks; simp only; (repeat' split) <;> simp
@[simp] theorem Dev.notePeaks_log (d : Dev) (r : Partition) (n : Nat) : (d.notePeaks r n).log = d.log := by unfold Dev.notePeaks; simp only; (repeat' split) <;> simp
@[simp] theorem Dev.notePeaks_ucode (d : Dev) (r : Partition) (n : Nat) : (d.notePeaks r n).ucode = d.ucode := by unfold Dev.notePeaks; simp only; (repeat' split) <;> simp
@[simp] theorem Dev.notePeaks_contain (d : Dev) (r : Partition) (n : Nat) : (d.notePeaks r n).contain = d.contain := by unfold Dev.notePeaks; simp only; (repeat' split) <;> simp
@[simp] theorem Dev.notePeaks_supply (d : Dev) (r : Partition) (n : Nat) : (d.notePeaks r n).supply = d.supply := by unfold Dev.notePeaks; simp only; (repeat' split) <;> simp
@[simp] theorem Dev.notePeaks_jtag (d : Dev) (r : Partition) (n : Nat) : (d.notePeaks r n).jtag = d.jtag := by unfold Dev.notePeaks; simp only; (repeat' split) <;> simp
@[simp] theorem Dev.notePeaks_boot (d : Dev) (r : Partition) (n : Nat) : (d.notePeaks r n).boot = d.boot := by unfold Dev.notePeaks; simp only; (repeat' split) <;> simp
@[simp] theorem Dev.notePeaks_evcRun (d : Dev) (r : Partition) (n : Nat) : (d.notePeaks r n).evcRun = d.evcRun := by unfold Dev.notePeaks; simp only; (repeat' split) <;> simp
@[simp] theorem Dev.notePeaks_judging (d : Dev) (r : Partition) (n : Nat) : (d.notePeaks r n).judging = d.judging := by unfold Dev.notePeaks; simp only; (repeat' split) <;> simp
@[simp] theorem Dev.notePeaks_freeCtr (d : Dev) (r : Partition) (n : Nat) : (d.notePeaks r n).freeCtr = d.freeCtr := by unfold Dev.notePeaks; simp only; (repeat' split) <;> simp
@[simp] theorem Dev.notePeaks_ctx (d : Dev) (r : Partition) (n : Nat) (q : Nat) : (d.notePeaks r n).ctx q = d.ctx q := by simp only [Dev.ctx, Dev.notePeaks_ctxs]
@[simp] theorem Dev.notePeaks_chan (d : Dev) (r : Partition) (n : Nat) (q : Nat) : (d.notePeaks r n).chan q = d.chan q := by simp only [Dev.chan, Dev.notePeaks_chans]
@[simp] theorem Dev.notePeaks_pat (d : Dev) (r : Partition) (n : Nat) (q : Nat) : (d.notePeaks r n).pat q = d.pat q := by simp only [Dev.pat, Dev.notePeaks_pats]
@[simp] theorem Dev.notePeaks_wfm (d : Dev) (r : Partition) (n : Nat) (q : Nat) : (d.notePeaks r n).wfm q = d.wfm q := by simp only [Dev.wfm, Dev.notePeaks_wfms]
@[simp] theorem Dev.notePeaks_cap (d : Dev) (r : Partition) (n : Nat) (q : Nat) : (d.notePeaks r n).cap q = d.cap q := by simp only [Dev.cap, Dev.notePeaks_caps]
@[simp] theorem Dev.notePeaks_tme (d : Dev) (r : Partition) (n : Nat) (q : Nat) : (d.notePeaks r n).tme q = d.tme q := by simp only [Dev.tme, Dev.notePeaks_tmes]
@[simp] theorem Dev.notePeaks_mill (d : Dev) (r : Partition) (n : Nat) (q : Nat) : (d.notePeaks r n).mill q = d.mill q := by simp only [Dev.mill, Dev.notePeaks_mills]
@[simp] theorem Dev.notePeaks_dma (d : Dev) (r : Partition) (n : Nat) (q : Nat) : (d.notePeaks r n).dma q = d.dma q := by simp only [Dev.dma, Dev.notePeaks_dmas]
@[simp] theorem Dev.notePeaks_rast (d : Dev) (r : Partition) (n : Nat) (q : Nat) : (d.notePeaks r n).rast q = d.rast q := by simp only [Dev.rast, Dev.notePeaks_rasts]
@[simp] theorem Dev.notePeaks_box (d : Dev) (r : Partition) (n : Nat) (q : Nat) : (d.notePeaks r n).box q = d.box q := by simp only [Dev.box, Dev.notePeaks_contain]
@[simp] theorem Dev.notePeaks_ustore (d : Dev) (r : Partition) (n : Nat) (q : Nat) : (d.notePeaks r n).ustore q = d.ustore q := by simp only [Dev.ustore, Dev.notePeaks_ucode]
@[simp] theorem Dev.notePeaks_unit (d : Dev) (r : Partition) (n : Nat) (q : Nat) : (d.notePeaks r n).unit q = d.unit q := by simp only [Dev.unit, Dev.notePeaks_units]
@[simp] theorem Dev.notePeaks_byte (d : Dev) (r : Partition) (n : Nat) (q : Nat) : (d.notePeaks r n).byte q = d.byte q := by simp only [Dev.byte, Dev.notePeaks_gran]
@[simp] theorem Dev.notePeaks_site (d : Dev) (r : Partition) (n : Nat) (q : Nat) : (d.notePeaks r n).site q = d.site q := by simp only [Dev.site, Dev.notePeaks_sites]
@[simp] theorem Dev.notePeaks_inSite (d : Dev) (r : Partition) (n : Nat) (q i : Nat) : (d.notePeaks r n).inSite q i = d.inSite q i := by simp only [Dev.inSite, Dev.notePeaks_chmap]

/-! passing. -/

@[simp] theorem Dev.passing_units (d : Dev) (r : Partition) (n : Nat) : (d.passing r n).units = d.units := by exact d.notePeaks_units r _
@[simp] theorem Dev.passing_inUse (d : Dev) (r : Partition) (n : Nat) : (d.passing r n).inUse = d.inUse := by exact d.notePeaks_inUse r _
@[simp] theorem Dev.passing_waitGran (d : Dev) (r : Partition) (n : Nat) : (d.passing r n).waitGran = d.waitGran := by exact d.notePeaks_waitGran r _
@[simp] theorem Dev.passing_waitBus (d : Dev) (r : Partition) (n : Nat) : (d.passing r n).waitBus = d.waitBus := by exact d.notePeaks_waitBus r _
@[simp] theorem Dev.passing_serving (d : Dev) (r : Partition) (n : Nat) : (d.passing r n).serving = d.serving := by exact d.notePeaks_serving r _
@[simp] theorem Dev.passing_ports (d : Dev) (r : Partition) (n : Nat) : (d.passing r n).ports = d.ports := by exact d.notePeaks_ports r _
@[simp] theorem Dev.passing_gran (d : Dev) (r : Partition) (n : Nat) : (d.passing r n).gran = d.gran := by exact d.notePeaks_gran r _
@[simp] theorem Dev.passing_ctxs (d : Dev) (r : Partition) (n : Nat) : (d.passing r n).ctxs = d.ctxs := by exact d.notePeaks_ctxs r _
@[simp] theorem Dev.passing_sites (d : Dev) (r : Partition) (n : Nat) : (d.passing r n).sites = d.sites := by exact d.notePeaks_sites r _
@[simp] theorem Dev.passing_chmap (d : Dev) (r : Partition) (n : Nat) : (d.passing r n).chmap = d.chmap := by exact d.notePeaks_chmap r _
@[simp] theorem Dev.passing_ctxCmd (d : Dev) (r : Partition) (n : Nat) : (d.passing r n).ctxCmd = d.ctxCmd := by exact d.notePeaks_ctxCmd r _
@[simp] theorem Dev.passing_icache (d : Dev) (r : Partition) (n : Nat) : (d.passing r n).icache = d.icache := by exact d.notePeaks_icache r _
@[simp] theorem Dev.passing_icacheBusy (d : Dev) (r : Partition) (n : Nat) : (d.passing r n).icacheBusy = d.icacheBusy := by exact d.notePeaks_icacheBusy r _
@[simp] theorem Dev.passing_chans (d : Dev) (r : Partition) (n : Nat) : (d.passing r n).chans = d.chans := by exact d.notePeaks_chans r _
@[simp] theorem Dev.passing_mons (d : Dev) (r : Partition) (n : Nat) : (d.passing r n).mons = d.mons := by exact d.notePeaks_mons r _
@[simp] theorem Dev.passing_pats (d : Dev) (r : Partition) (n : Nat) : (d.passing r n).pats = d.pats := by exact d.notePeaks_pats r _
@[simp] theorem Dev.passing_segw (d : Dev) (r : Partition) (n : Nat) : (d.passing r n).segw = d.segw := by exact d.notePeaks_segw r _
@[simp] theorem Dev.passing_wfms (d : Dev) (r : Partition) (n : Nat) : (d.passing r n).wfms = d.wfms := by exact d.notePeaks_wfms r _
@[simp] theorem Dev.passing_caps (d : Dev) (r : Partition) (n : Nat) : (d.passing r n).caps = d.caps := by exact d.notePeaks_caps r _
@[simp] theorem Dev.passing_tmes (d : Dev) (r : Partition) (n : Nat) : (d.passing r n).tmes = d.tmes := by exact d.notePeaks_tmes r _
@[simp] theorem Dev.passing_mills (d : Dev) (r : Partition) (n : Nat) : (d.passing r n).mills = d.mills := by exact d.notePeaks_mills r _
@[simp] theorem Dev.passing_rasts (d : Dev) (r : Partition) (n : Nat) : (d.passing r n).rasts = d.rasts := by exact d.notePeaks_rasts r _
@[simp] theorem Dev.passing_dmas (d : Dev) (r : Partition) (n : Nat) : (d.passing r n).dmas = d.dmas := by exact d.notePeaks_dmas r _
@[simp] theorem Dev.passing_pcie (d : Dev) (r : Partition) (n : Nat) : (d.passing r n).pcie = d.pcie := by exact d.notePeaks_pcie r _
@[simp] theorem Dev.passing_reed (d : Dev) (r : Partition) (n : Nat) : (d.passing r n).reed = d.reed := by exact d.notePeaks_reed r _
@[simp] theorem Dev.passing_flash (d : Dev) (r : Partition) (n : Nat) : (d.passing r n).flash = d.flash := by exact d.notePeaks_flash r _
@[simp] theorem Dev.passing_cal (d : Dev) (r : Partition) (n : Nat) : (d.passing r n).cal = d.cal := by exact d.notePeaks_cal r _
@[simp] theorem Dev.passing_therm (d : Dev) (r : Partition) (n : Nat) : (d.passing r n).therm = d.therm := by exact d.notePeaks_therm r _
@[simp] theorem Dev.passing_log (d : Dev) (r : Partition) (n : Nat) : (d.passing r n).log = d.log := by exact d.notePeaks_log r _
@[simp] theorem Dev.passing_ucode (d : Dev) (r : Partition) (n : Nat) : (d.passing r n).ucode = d.ucode := by exact d.notePeaks_ucode r _
@[simp] theorem Dev.passing_contain (d : Dev) (r : Partition) (n : Nat) : (d.passing r n).contain = d.contain := by exact d.notePeaks_contain r _
@[simp] theorem Dev.passing_supply (d : Dev) (r : Partition) (n : Nat) : (d.passing r n).supply = d.supply := by exact d.notePeaks_supply r _
@[simp] theorem Dev.passing_jtag (d : Dev) (r : Partition) (n : Nat) : (d.passing r n).jtag = d.jtag := by exact d.notePeaks_jtag r _
@[simp] theorem Dev.passing_boot (d : Dev) (r : Partition) (n : Nat) : (d.passing r n).boot = d.boot := by exact d.notePeaks_boot r _
@[simp] theorem Dev.passing_evcRun (d : Dev) (r : Partition) (n : Nat) : (d.passing r n).evcRun = d.evcRun := by exact d.notePeaks_evcRun r _
@[simp] theorem Dev.passing_judging (d : Dev) (r : Partition) (n : Nat) : (d.passing r n).judging = d.judging := by exact d.notePeaks_judging r _
@[simp] theorem Dev.passing_freeCtr (d : Dev) (r : Partition) (n : Nat) : (d.passing r n).freeCtr = d.freeCtr := by exact d.notePeaks_freeCtr r _
@[simp] theorem Dev.passing_ctx (d : Dev) (r : Partition) (n : Nat) (q : Nat) : (d.passing r n).ctx q = d.ctx q := by simp only [Dev.ctx, Dev.passing_ctxs]
@[simp] theorem Dev.passing_chan (d : Dev) (r : Partition) (n : Nat) (q : Nat) : (d.passing r n).chan q = d.chan q := by simp only [Dev.chan, Dev.passing_chans]
@[simp] theorem Dev.passing_pat (d : Dev) (r : Partition) (n : Nat) (q : Nat) : (d.passing r n).pat q = d.pat q := by simp only [Dev.pat, Dev.passing_pats]
@[simp] theorem Dev.passing_wfm (d : Dev) (r : Partition) (n : Nat) (q : Nat) : (d.passing r n).wfm q = d.wfm q := by simp only [Dev.wfm, Dev.passing_wfms]
@[simp] theorem Dev.passing_cap (d : Dev) (r : Partition) (n : Nat) (q : Nat) : (d.passing r n).cap q = d.cap q := by simp only [Dev.cap, Dev.passing_caps]
@[simp] theorem Dev.passing_tme (d : Dev) (r : Partition) (n : Nat) (q : Nat) : (d.passing r n).tme q = d.tme q := by simp only [Dev.tme, Dev.passing_tmes]
@[simp] theorem Dev.passing_mill (d : Dev) (r : Partition) (n : Nat) (q : Nat) : (d.passing r n).mill q = d.mill q := by simp only [Dev.mill, Dev.passing_mills]
@[simp] theorem Dev.passing_dma (d : Dev) (r : Partition) (n : Nat) (q : Nat) : (d.passing r n).dma q = d.dma q := by simp only [Dev.dma, Dev.passing_dmas]
@[simp] theorem Dev.passing_rast (d : Dev) (r : Partition) (n : Nat) (q : Nat) : (d.passing r n).rast q = d.rast q := by simp only [Dev.rast, Dev.passing_rasts]
@[simp] theorem Dev.passing_box (d : Dev) (r : Partition) (n : Nat) (q : Nat) : (d.passing r n).box q = d.box q := by simp only [Dev.box, Dev.passing_contain]
@[simp] theorem Dev.passing_ustore (d : Dev) (r : Partition) (n : Nat) (q : Nat) : (d.passing r n).ustore q = d.ustore q := by simp only [Dev.ustore, Dev.passing_ucode]
@[simp] theorem Dev.passing_unit (d : Dev) (r : Partition) (n : Nat) (q : Nat) : (d.passing r n).unit q = d.unit q := by simp only [Dev.unit, Dev.passing_units]
@[simp] theorem Dev.passing_byte (d : Dev) (r : Partition) (n : Nat) (q : Nat) : (d.passing r n).byte q = d.byte q := by simp only [Dev.byte, Dev.passing_gran]
@[simp] theorem Dev.passing_site (d : Dev) (r : Partition) (n : Nat) (q : Nat) : (d.passing r n).site q = d.site q := by simp only [Dev.site, Dev.passing_sites]
@[simp] theorem Dev.passing_inSite (d : Dev) (r : Partition) (n : Nat) (q i : Nat) : (d.passing r n).inSite q i = d.inSite q i := by simp only [Dev.inSite, Dev.passing_chmap]

/-! useLow. -/

@[simp] theorem Dev.useLow_regs (d : Dev) (pk low : Nat) : (d.useLow pk low).regs = d.regs := by unfold Dev.useLow; split <;> first | rfl | (split <;> rfl)
@[simp] theorem Dev.useLow_units (d : Dev) (pk low : Nat) : (d.useLow pk low).units = d.units := by unfold Dev.useLow; split <;> first | rfl | (split <;> rfl)
@[simp] theorem Dev.useLow_inUse (d : Dev) (pk low : Nat) : (d.useLow pk low).inUse = d.inUse := by unfold Dev.useLow; split <;> first | rfl | (split <;> rfl)
@[simp] theorem Dev.useLow_waitGran (d : Dev) (pk low : Nat) : (d.useLow pk low).waitGran = d.waitGran := by unfold Dev.useLow; split <;> first | rfl | (split <;> rfl)
@[simp] theorem Dev.useLow_waitBus (d : Dev) (pk low : Nat) : (d.useLow pk low).waitBus = d.waitBus := by unfold Dev.useLow; split <;> first | rfl | (split <;> rfl)
@[simp] theorem Dev.useLow_serving (d : Dev) (pk low : Nat) : (d.useLow pk low).serving = d.serving := by unfold Dev.useLow; split <;> first | rfl | (split <;> rfl)
@[simp] theorem Dev.useLow_gran (d : Dev) (pk low : Nat) : (d.useLow pk low).gran = d.gran := by unfold Dev.useLow; split <;> first | rfl | (split <;> rfl)
@[simp] theorem Dev.useLow_ctxs (d : Dev) (pk low : Nat) : (d.useLow pk low).ctxs = d.ctxs := by unfold Dev.useLow; split <;> first | rfl | (split <;> rfl)
@[simp] theorem Dev.useLow_sites (d : Dev) (pk low : Nat) : (d.useLow pk low).sites = d.sites := by unfold Dev.useLow; split <;> first | rfl | (split <;> rfl)
@[simp] theorem Dev.useLow_chmap (d : Dev) (pk low : Nat) : (d.useLow pk low).chmap = d.chmap := by unfold Dev.useLow; split <;> first | rfl | (split <;> rfl)
@[simp] theorem Dev.useLow_ctxCmd (d : Dev) (pk low : Nat) : (d.useLow pk low).ctxCmd = d.ctxCmd := by unfold Dev.useLow; split <;> first | rfl | (split <;> rfl)
@[simp] theorem Dev.useLow_icache (d : Dev) (pk low : Nat) : (d.useLow pk low).icache = d.icache := by unfold Dev.useLow; split <;> first | rfl | (split <;> rfl)
@[simp] theorem Dev.useLow_icacheBusy (d : Dev) (pk low : Nat) : (d.useLow pk low).icacheBusy = d.icacheBusy := by unfold Dev.useLow; split <;> first | rfl | (split <;> rfl)
@[simp] theorem Dev.useLow_chans (d : Dev) (pk low : Nat) : (d.useLow pk low).chans = d.chans := by unfold Dev.useLow; split <;> first | rfl | (split <;> rfl)
@[simp] theorem Dev.useLow_mons (d : Dev) (pk low : Nat) : (d.useLow pk low).mons = d.mons := by unfold Dev.useLow; split <;> first | rfl | (split <;> rfl)
@[simp] theorem Dev.useLow_pats (d : Dev) (pk low : Nat) : (d.useLow pk low).pats = d.pats := by unfold Dev.useLow; split <;> first | rfl | (split <;> rfl)
@[simp] theorem Dev.useLow_segw (d : Dev) (pk low : Nat) : (d.useLow pk low).segw = d.segw := by unfold Dev.useLow; split <;> first | rfl | (split <;> rfl)
@[simp] theorem Dev.useLow_wfms (d : Dev) (pk low : Nat) : (d.useLow pk low).wfms = d.wfms := by unfold Dev.useLow; split <;> first | rfl | (split <;> rfl)
@[simp] theorem Dev.useLow_caps (d : Dev) (pk low : Nat) : (d.useLow pk low).caps = d.caps := by unfold Dev.useLow; split <;> first | rfl | (split <;> rfl)
@[simp] theorem Dev.useLow_tmes (d : Dev) (pk low : Nat) : (d.useLow pk low).tmes = d.tmes := by unfold Dev.useLow; split <;> first | rfl | (split <;> rfl)
@[simp] theorem Dev.useLow_mills (d : Dev) (pk low : Nat) : (d.useLow pk low).mills = d.mills := by unfold Dev.useLow; split <;> first | rfl | (split <;> rfl)
@[simp] theorem Dev.useLow_rasts (d : Dev) (pk low : Nat) : (d.useLow pk low).rasts = d.rasts := by unfold Dev.useLow; split <;> first | rfl | (split <;> rfl)
@[simp] theorem Dev.useLow_dmas (d : Dev) (pk low : Nat) : (d.useLow pk low).dmas = d.dmas := by unfold Dev.useLow; split <;> first | rfl | (split <;> rfl)
@[simp] theorem Dev.useLow_pcie (d : Dev) (pk low : Nat) : (d.useLow pk low).pcie = d.pcie := by unfold Dev.useLow; split <;> first | rfl | (split <;> rfl)
@[simp] theorem Dev.useLow_reed (d : Dev) (pk low : Nat) : (d.useLow pk low).reed = d.reed := by unfold Dev.useLow; split <;> first | rfl | (split <;> rfl)
@[simp] theorem Dev.useLow_flash (d : Dev) (pk low : Nat) : (d.useLow pk low).flash = d.flash := by unfold Dev.useLow; split <;> first | rfl | (split <;> rfl)
@[simp] theorem Dev.useLow_bp (d : Dev) (pk low : Nat) : (d.useLow pk low).bp = d.bp := by unfold Dev.useLow; split <;> first | rfl | (split <;> rfl)
@[simp] theorem Dev.useLow_cal (d : Dev) (pk low : Nat) : (d.useLow pk low).cal = d.cal := by unfold Dev.useLow; split <;> first | rfl | (split <;> rfl)
@[simp] theorem Dev.useLow_therm (d : Dev) (pk low : Nat) : (d.useLow pk low).therm = d.therm := by unfold Dev.useLow; split <;> first | rfl | (split <;> rfl)
@[simp] theorem Dev.useLow_log (d : Dev) (pk low : Nat) : (d.useLow pk low).log = d.log := by unfold Dev.useLow; split <;> first | rfl | (split <;> rfl)
@[simp] theorem Dev.useLow_ucode (d : Dev) (pk low : Nat) : (d.useLow pk low).ucode = d.ucode := by unfold Dev.useLow; split <;> first | rfl | (split <;> rfl)
@[simp] theorem Dev.useLow_contain (d : Dev) (pk low : Nat) : (d.useLow pk low).contain = d.contain := by unfold Dev.useLow; split <;> first | rfl | (split <;> rfl)
@[simp] theorem Dev.useLow_supply (d : Dev) (pk low : Nat) : (d.useLow pk low).supply = d.supply := by unfold Dev.useLow; split <;> first | rfl | (split <;> rfl)
@[simp] theorem Dev.useLow_jtag (d : Dev) (pk low : Nat) : (d.useLow pk low).jtag = d.jtag := by unfold Dev.useLow; split <;> first | rfl | (split <;> rfl)
@[simp] theorem Dev.useLow_boot (d : Dev) (pk low : Nat) : (d.useLow pk low).boot = d.boot := by unfold Dev.useLow; split <;> first | rfl | (split <;> rfl)
@[simp] theorem Dev.useLow_evcRun (d : Dev) (pk low : Nat) : (d.useLow pk low).evcRun = d.evcRun := by unfold Dev.useLow; split <;> first | rfl | (split <;> rfl)
@[simp] theorem Dev.useLow_judging (d : Dev) (pk low : Nat) : (d.useLow pk low).judging = d.judging := by unfold Dev.useLow; split <;> first | rfl | (split <;> rfl)
@[simp] theorem Dev.useLow_freeCtr (d : Dev) (pk low : Nat) : (d.useLow pk low).freeCtr = d.freeCtr := by unfold Dev.useLow; split <;> first | rfl | (split <;> rfl)
@[simp] theorem Dev.useLow_ctx (d : Dev) (pk low : Nat) (q : Nat) : (d.useLow pk low).ctx q = d.ctx q := by simp only [Dev.ctx, Dev.useLow_ctxs]
@[simp] theorem Dev.useLow_chan (d : Dev) (pk low : Nat) (q : Nat) : (d.useLow pk low).chan q = d.chan q := by simp only [Dev.chan, Dev.useLow_chans]
@[simp] theorem Dev.useLow_pat (d : Dev) (pk low : Nat) (q : Nat) : (d.useLow pk low).pat q = d.pat q := by simp only [Dev.pat, Dev.useLow_pats]
@[simp] theorem Dev.useLow_wfm (d : Dev) (pk low : Nat) (q : Nat) : (d.useLow pk low).wfm q = d.wfm q := by simp only [Dev.wfm, Dev.useLow_wfms]
@[simp] theorem Dev.useLow_cap (d : Dev) (pk low : Nat) (q : Nat) : (d.useLow pk low).cap q = d.cap q := by simp only [Dev.cap, Dev.useLow_caps]
@[simp] theorem Dev.useLow_tme (d : Dev) (pk low : Nat) (q : Nat) : (d.useLow pk low).tme q = d.tme q := by simp only [Dev.tme, Dev.useLow_tmes]
@[simp] theorem Dev.useLow_mill (d : Dev) (pk low : Nat) (q : Nat) : (d.useLow pk low).mill q = d.mill q := by simp only [Dev.mill, Dev.useLow_mills]
@[simp] theorem Dev.useLow_dma (d : Dev) (pk low : Nat) (q : Nat) : (d.useLow pk low).dma q = d.dma q := by simp only [Dev.dma, Dev.useLow_dmas]
@[simp] theorem Dev.useLow_rast (d : Dev) (pk low : Nat) (q : Nat) : (d.useLow pk low).rast q = d.rast q := by simp only [Dev.rast, Dev.useLow_rasts]
@[simp] theorem Dev.useLow_box (d : Dev) (pk low : Nat) (q : Nat) : (d.useLow pk low).box q = d.box q := by simp only [Dev.box, Dev.useLow_contain]
@[simp] theorem Dev.useLow_ustore (d : Dev) (pk low : Nat) (q : Nat) : (d.useLow pk low).ustore q = d.ustore q := by simp only [Dev.ustore, Dev.useLow_ucode]
@[simp] theorem Dev.useLow_unit (d : Dev) (pk low : Nat) (q : Nat) : (d.useLow pk low).unit q = d.unit q := by simp only [Dev.unit, Dev.useLow_units]
@[simp] theorem Dev.useLow_rd (d : Dev) (pk low : Nat) (q : Fld) : (d.useLow pk low).rd q = d.rd q := by simp only [Dev.rd, Dev.useLow_regs]
@[simp] theorem Dev.useLow_on (d : Dev) (pk low : Nat) (q : Fld) : (d.useLow pk low).on q = d.on q := by simp only [Dev.on, Dev.rd, Dev.useLow_regs]
@[simp] theorem Dev.useLow_byte (d : Dev) (pk low : Nat) (q : Nat) : (d.useLow pk low).byte q = d.byte q := by simp only [Dev.byte, Dev.useLow_gran]
@[simp] theorem Dev.useLow_site (d : Dev) (pk low : Nat) (q : Nat) : (d.useLow pk low).site q = d.site q := by simp only [Dev.site, Dev.useLow_sites]
@[simp] theorem Dev.useLow_owns (d : Dev) (pk low : Nat) (m : Master) (q : Nat) : (d.useLow pk low).owns m q = d.owns m q := by simp only [Dev.owns, Dev.rd, Dev.useLow_regs]
@[simp] theorem Dev.useLow_inSite (d : Dev) (pk low : Nat) (q i : Nat) : (d.useLow pk low).inSite q i = d.inSite q i := by simp only [Dev.inSite, Dev.useLow_chmap]

end Sys2Proof.Machine
end

