-- ==== Sys2Proof/Laws/Regs.lean ====
section
/-! SUPPORT. What the shared register operations leave of every field: event counting, flags, counts, messages. -/
namespace Sys2Proof.Machine
open Sys2Proof

theorem regRd_regWr_same (r : Tab Nat) (f : Fld) (v : Nat) : regRd (regWr r f v) f = v % 2 ^ f.w := Tab.get_set_same _ _ _ _
theorem regRd_regWr_other (r : Tab Nat) (f g : Fld) (v : Nat) (h : g.key ≠ f.key) : regRd (regWr r f v) g = regRd r g :=
  Tab.get_set_other _ _ _ _ _ _ h

theorem iter_keeps {α β : Type} (f : Nat → α → α) (p : α → β) (n : Nat) (h : ∀ i < n, ∀ x, p (f i x) = p x) (x : α) :
    p (iter f n x) = p x := by
  induction n generalizing x with
  | zero => rfl
  | succ n ih => rw [iter]; rw [h n (by omega), ih fun i hi => h i (by omega)]

theorem evcAdd_rd (r : Tab Nat) (f o g : Fld) (i k : Nat) (h1 : g.key ≠ f.key) (h2 : g.key ≠ o.key) :
    regRd (evcAdd r f o i k) g = regRd r g := by
  unfold evcAdd; dsimp only; split <;> simp only [regRd_regWr_other _ _ _ _ h1, regRd_regWr_other _ _ _ _ h2]

theorem counts_global (g : Fld) (h : g.counts = false) (i : Nat) (hi : i < 16) :
    g.key ≠ (Reg.EVC.count i).key ∧ g.key ≠ Reg.EVC_STATUS.ovf.key := by
  simp only [Fld.counts, Bool.or_eq_false_iff, Bool.and_eq_false_iff, decide_eq_false_iff_not, beq_eq_false_iff_ne] at h
  refine ⟨?_, h.1.1.2⟩
  have := h.1.1.1
  intro e; rw [e] at this; simp only [Fld.key, Reg.EVC.count] at this; omega

theorem counts_loom (g : Fld) (h : g.counts = false) (n i : Nat) (hn : n < 24) (hi : i < 4) :
    g.key ≠ (Reg.LOOM.EVC.count n i).key ∧ g.key ≠ Reg.EVC_STATUS.lovf.key := by
  simp only [Fld.counts, Bool.or_eq_false_iff, Bool.and_eq_false_iff, decide_eq_false_iff_not, beq_eq_false_iff_ne] at h
  refine ⟨?_, h.1.2⟩
  have := h.2
  intro e; rw [e] at this; simp only [Fld.key, Reg.LOOM.EVC.count] at this; omega

/-- Counting events moves the event counters only. -/
theorem Dev.evcBy_rd (d : Dev) (src n k : Nat) (g : Fld) (h : g.counts = false) : (d.evcBy src n k).rd g = d.rd g := by
  show regRd (iter (evcLoom src n k) 4 (iter (evcGlobal src n k) 16 d.regs)) g = regRd d.regs g
  rw [iter_keeps (evcLoom src n k) (regRd · g) 4, iter_keeps (evcGlobal src n k) (regRd · g) 16]
  · intro i hi x
    unfold evcGlobal; split
    · exact evcAdd_rd _ _ _ _ _ _ (counts_global g h i hi).1 (counts_global g h i hi).2
    · rfl
  · intro i hi x
    unfold evcLoom; split
    · rename_i hc
      have hn : n < 24 := by simp at hc; omega
      exact evcAdd_rd _ _ _ _ _ _ (counts_loom g h n i hn hi).1 (counts_loom g h n i hn hi).2
    · rfl

theorem Dev.evc_rd (d : Dev) (src n : Nat) (g : Fld) (h : g.counts = false) : (d.evc src n).rd g = d.rd g := Dev.evcBy_rd d src n 1 g h
theorem Dev.evc_on (d : Dev) (src n : Nat) (g : Fld) (h : g.counts = false) : (d.evc src n).on g = d.on g := by
  simp only [Dev.on, Dev.evc_rd d src n g h]

@[simp] theorem Dev.upd_rd_same (d : Dev) (f : Fld) (g : Nat → Nat) : (d.upd f g).rd f = g (d.rd f) % 2 ^ f.w := by
  unfold Dev.upd; split <;> simp [Dev.rd, Dev.wr, regRd_regWr_same]
theorem Dev.upd_rd_other (d : Dev) (f g : Fld) (h : Nat → Nat) (hk : g.key ≠ f.key) : (d.upd f h).rd g = d.rd g := by
  unfold Dev.upd; split <;> simp [Dev.rd, Dev.wr, regRd_regWr_other _ _ _ _ hk]

@[simp] theorem Dev.message_rd (d : Dev) (v : Nat) (g : Fld) (h : g.counts = false) : (d.message v).rd g = d.rd g := by
  unfold Dev.message; split
  · exact Dev.evc_rd _ _ _ g h
  · rfl

theorem Dev.setBit_rd_same (d : Dev) (f : Fld) (i : Nat) (h : f.counts = false) :
    (d.setBit f i).rd f = putBits (d.rd f) i 1 1 % 2 ^ f.w := by
  unfold Dev.setBit; dsimp only; split
  · split
    · rw [Dev.message_rd _ _ _ h, Dev.upd_rd_same]
    · rw [Dev.upd_rd_same]
  · rw [Dev.upd_rd_same]

theorem Dev.setBit_rd_other (d : Dev) (f g : Fld) (i : Nat) (h : g.counts = false) (hk : g.key ≠ f.key) : (d.setBit f i).rd g = d.rd g := by
  unfold Dev.setBit; dsimp only; split
  · split
    · rw [Dev.message_rd _ _ _ h, Dev.upd_rd_other _ _ _ _ hk]
    · rw [Dev.upd_rd_other _ _ _ _ hk]
  · rw [Dev.upd_rd_other _ _ _ _ hk]

theorem Dev.flag_rd_other (d : Dev) (f g : Fld) (h : g.counts = false) (hk : g.key ≠ f.key) : (d.flag f).rd g = d.rd g :=
  Dev.setBit_rd_other d f g 0 h hk

theorem Dev.bump_rd_same (d : Dev) (f : Fld) : (d.bump f).rd f = satInc f.w (d.rd f) % 2 ^ f.w := Dev.upd_rd_same d f _
theorem Dev.bump_rd_other (d : Dev) (f g : Fld) (hk : g.key ≠ f.key) : (d.bump f).rd g = d.rd g := Dev.upd_rd_other d f g _ hk

theorem Dev.logRec_rd (d : Dev) (c v : Nat) (g : Fld) (h : g.counts = false) (hk : g.key ≠ Reg.LOG_STATUS.lost.key) :
    (d.logRec c v).rd g = d.rd g := by
  unfold Dev.logRec; dsimp only; split
  · rfl
  · split
    · rfl
    · rw [Dev.evc_rd _ _ _ g h, Dev.bump_rd_other _ _ _ hk]; rfl

theorem regsKept_refl (d : Dev) (fs : List Fld) : regsKept d d fs := fun _ _ _ => rfl
theorem regsKept_trans {d e f : Dev} {fs : List Fld} (h : regsKept d e fs) (k : regsKept e f fs) : regsKept d f fs :=
  fun g a b => (k g a b).trans (h g a b)
theorem regsKept_evc (d : Dev) (src n : Nat) (fs : List Fld) : regsKept d (d.evc src n) fs := fun g a _ => Dev.evc_rd d src n g a

end Sys2Proof.Machine
end

