-- ==== Sys2Proof/Laws/Issue.lean ====
section
/-! SUPPORT. What issuing an instruction can do (R66 to R68, R76, R111, R114): one lemma for each of its outcomes. -/
namespace Sys2Proof.Machine
open Sys2Proof

/-- The device as an instruction of context `c` finds it: a retry is over, and the issue is counted. -/
def Dev.begun (d : Dev) (c : Nat) : Dev :=
  (d.retryOver (d.ctx c).home.toNat c).evc (if (d.ctx c).home.toNat < 24 then 0x23 else 0x8D) (if (d.ctx c).home.toNat < 24 then (d.ctx c).home.toNat else 24)

theorem Dev.retryOver_eq (d : Dev) (n c : Nat) : d.retryOver n c = { d with ucode := (d.retryOver n c).ucode } := by
  unfold Dev.retryOver; dsimp only; split <;> rfl

theorem Dev.begun_eq (d : Dev) (c : Nat) : d.begun c = { d with regs := (d.begun c).regs, ucode := (d.begun c).ucode } := by
  unfold Dev.begun; rw [Dev.retryOver_eq]; rfl

@[simp] theorem Dev.begun_ctx (d : Dev) (c k : Nat) : (d.begun c).ctx k = d.ctx k := by rw [Dev.begun_eq]; rfl
@[simp] theorem Dev.begun_gran (d : Dev) (c : Nat) : (d.begun c).gran = d.gran := by rw [Dev.begun_eq]
@[simp] theorem Dev.begun_sites (d : Dev) (c : Nat) : (d.begun c).sites = d.sites := by rw [Dev.begun_eq]
@[simp] theorem Dev.begun_chmap (d : Dev) (c : Nat) : (d.begun c).chmap = d.chmap := by rw [Dev.begun_eq]
@[simp] theorem Dev.begun_reed (d : Dev) (c : Nat) : (d.begun c).reed = d.reed := by rw [Dev.begun_eq]
@[simp] theorem Dev.begun_now (d : Dev) (c : Nat) : (d.begun c).now = d.now := by unfold Dev.now; rw [Dev.begun_reed]
@[simp] theorem Dev.begun_pats (d : Dev) (c : Nat) : (d.begun c).pats = d.pats := by rw [Dev.begun_eq]
@[simp] theorem Dev.begun_chans (d : Dev) (c : Nat) : (d.begun c).chans = d.chans := by rw [Dev.begun_eq]
@[simp] theorem Dev.begun_mills (d : Dev) (c : Nat) : (d.begun c).mills = d.mills := by rw [Dev.begun_eq]
@[simp] theorem Dev.begun_caps (d : Dev) (c : Nat) : (d.begun c).caps = d.caps := by rw [Dev.begun_eq]
@[simp] theorem Dev.begun_units (d : Dev) (c : Nat) : (d.begun c).units = d.units := by rw [Dev.begun_eq]
@[simp] theorem Dev.begun_ctxs (d : Dev) (c : Nat) : (d.begun c).ctxs = d.ctxs := by rw [Dev.begun_eq]

theorem Dev.begun_rd (d : Dev) (c : Nat) (g : Fld) (h : g.counts = false) : (d.begun c).rd g = d.rd g := by
  unfold Dev.begun; rw [Dev.evc_rd _ _ _ g h, Dev.retryOver_eq]; rfl

theorem Dev.begun_on (d : Dev) (c : Nat) (g : Fld) (h : g.counts = false) : (d.begun c).on g = d.on g := by
  simp only [Dev.on, Dev.begun_rd d c g h]

theorem Dev.runs_iff (d : Dev) (c len : Nat) : d.runs c len = true ↔ d.canIssue c = true ∧ (d.ctx c).pc.toNat + len < 2 ^ 24 := by
  simp [Dev.runs]

/-- A context that runs issues: what its instruction gives decides. -/
theorem Dev.issue_runs (d : Dev) (c : Nat) (x : Bool) (run : Dev → Ctx → IRes) (h : d.runs c (if x then 2 else 1) = true) :
    d.issue c x run =
      match run (d.begun c) (d.ctx c) with
      | .ok e => e.advancePc c (if x then 2 else 1)
      | .jump e pc => e.modCtx c fun x => { x with pc := pc }
      | .stays e => e
      | .fault w => (d.begun c).faultCtx c w
      | .faultIn e w => e.faultCtx c w := by
  rw [Dev.runs_iff] at h
  have hb : (if (d.ctx c).home.toNat < 24 then (d.retryOver (d.ctx c).home.toNat c).evc 0x23 (d.ctx c).home.toNat
      else (d.retryOver (d.ctx c).home.toNat c).evc 0x8D 24) = d.begun c := by
    unfold Dev.begun; split <;> rfl
  have hx : (x && (d.ctx c).pc == 0xFFFFFF) = false := by
    cases x
    · rfl
    · simp only [Bool.true_and, beq_eq_false_iff_ne]
      intro e; rw [e] at h; simp at h
  unfold Dev.issue
  simp only [h.1, if_true, hx, Bool.false_eq_true, if_false, hb, Dev.begun_ctx] <;> rfl

/-- An instruction that completes with a new record for its context: the PC moves on (R68). -/
theorem Dev.issue_ok (d : Dev) (c : Nat) (x : Bool) (run : Dev → Ctx → IRes) (y : Ctx) (h : d.runs c (if x then 2 else 1) = true)
    (hr : run (d.begun c) (d.ctx c) = .ok ((d.begun c).setCtx c y)) (hp : y.pc = (d.ctx c).pc) :
    d.issue c x run = ((d.begun c).setCtx c y).setCtx c (y.onward (if x then 2 else 1)) := by
  rw [Dev.issue_runs d c x run h, hr]
  rw [Dev.runs_iff] at h
  simp only [Dev.advancePc, Dev.ctx_setCtx_same, hp, if_neg (Nat.not_le.mpr h.2)]
  unfold Ctx.onward; rw [hp]

/-- Only the record of context `c` has changed since the issue began. -/
theorem CtxOnly_of (s : State) (c : Nat) (e : Dev) (h : e = { s.dev.begun c with ctxs := e.ctxs })
    (hk : ∀ k, k ≠ c → e.ctx k = s.dev.ctx k) : CtxOnly s { s with dev := e } c := by
  refine ⟨rfl, hk, fun f hf _ => ?_, ?_⟩
  · show e.rd f = _
    rw [h]; exact Dev.begun_rd s.dev c f hf
  · show e = _
    rw [h, Dev.begun_eq]

/-- A completed instruction that changes its own context alone: what its record becomes, and that nothing else changes. -/
theorem Dev.issue_ctx (s : State) (c : Nat) (x : Bool) (run : Dev → Ctx → IRes) (y : Ctx) (h : s.dev.runs c (if x then 2 else 1) = true)
    (hr : run (s.dev.begun c) (s.dev.ctx c) = .ok ((s.dev.begun c).setCtx c y)) (hp : y.pc = (s.dev.ctx c).pc) :
    (s.dev.issue c x run).ctx c = y.onward (if x then 2 else 1) ∧ CtxOnly s { s with dev := s.dev.issue c x run } c := by
  rw [Dev.issue_ok s.dev c x run y h hr hp]
  refine ⟨Dev.ctx_setCtx_same _ _ _, CtxOnly_of _ _ _ rfl fun k hk => ?_⟩
  rw [Dev.ctx_setCtx_other _ _ _ _ hk, Dev.ctx_setCtx_other _ _ _ _ hk, Dev.begun_ctx]

/-- A completed instruction that changes nothing but the PC of its context. -/
theorem Dev.issue_same (s : State) (c : Nat) (x : Bool) (run : Dev → Ctx → IRes) (h : s.dev.runs c (if x then 2 else 1) = true)
    (hr : run (s.dev.begun c) (s.dev.ctx c) = .ok (s.dev.begun c)) :
    (s.dev.issue c x run).ctx c = (s.dev.ctx c).onward (if x then 2 else 1) ∧ CtxOnly s { s with dev := s.dev.issue c x run } c := by
  have e : s.dev.issue c x run = (s.dev.begun c).setCtx c ((s.dev.ctx c).onward (if x then 2 else 1)) := by
    rw [Dev.issue_runs s.dev c x run h, hr]
    rw [Dev.runs_iff] at h
    simp only [Dev.advancePc, Dev.begun_ctx, if_neg (Nat.not_le.mpr h.2)]
    rfl
  rw [e]
  refine ⟨Dev.ctx_setCtx_same _ _ _, CtxOnly_of _ _ _ rfl fun k hk => ?_⟩
  rw [Dev.ctx_setCtx_other _ _ _ _ hk, Dev.begun_ctx]

/-- A taken branch or jump. -/
theorem Dev.issue_jump (s : State) (c : Nat) (x : Bool) (run : Dev → Ctx → IRes) (e : Dev) (pc : BitVec 24)
    (h : s.dev.runs c (if x then 2 else 1) = true) (hr : run (s.dev.begun c) (s.dev.ctx c) = .jump e pc)
    (he : e = { s.dev.begun c with ctxs := e.ctxs }) (hk : ∀ k, k ≠ c → e.ctx k = s.dev.ctx k) :
    (s.dev.issue c x run).ctx c = { e.ctx c with pc := pc } ∧ CtxOnly s { s with dev := s.dev.issue c x run } c := by
  have q : s.dev.issue c x run = e.modCtx c fun x => { x with pc := pc } := by rw [Dev.issue_runs s.dev c x run h, hr]
  rw [q]
  refine ⟨Dev.ctx_modCtx_same _ _ _, CtxOnly_of _ _ _ ?_ fun k k' => ?_⟩
  · unfold Dev.modCtx Dev.setCtx; rw [he]
  · rw [Dev.ctx_modCtx_other _ _ _ _ k', hk k k']

end Sys2Proof.Machine
end

