-- ==== Sys2Proof/Laws/Mem.lean ====
section
/-! SUPPORT. The laws of the Granary: a read after a write, and that every memory operation keeps the canonical form. -/
namespace Sys2Proof.Machine
open Sys2Proof

/-- A write of bytes changes no byte below its first. -/
theorem putCells_below (a : Nat) : ∀ (bs : List (Option Byte)) (c : List Host.Cell) (k : Nat), k < a → Tab.get 0 (putCells c a bs) k = Tab.get 0 c k
  | [], _, _, _ => rfl
  | none :: t, c, k, h => by
    simp only [putCells]; exact putCells_below (a + 1) t c k (by omega)
  | some b :: t, c, k, h => by
    simp only [putCells]
    rw [putCells_below (a + 1) t _ k (by omega)]
    split
    · exact Tab.get_set_other _ _ _ _ _ _ (by omega)
    · rfl

/-- A write of bytes changes no byte past its last. -/
theorem putCells_above : ∀ (bs : List (Option Byte)) (c : List Host.Cell) (a k : Nat), a + bs.length ≤ k → Tab.get 0 (putCells c a bs) k = Tab.get 0 c k
  | [], _, _, _, _ => rfl
  | none :: t, c, a, k, h => by
    simp only [putCells]; exact putCells_above t c (a + 1) k (by simp only [List.length_cons] at h; omega)
  | some b :: t, c, a, k, h => by
    simp only [List.length_cons] at h
    simp only [putCells]
    rw [putCells_above t _ (a + 1) k (by omega)]
    split
    · exact Tab.get_set_other _ _ _ _ _ _ (by omega)
    · rfl

/-- What a byte holds after a write: the byte written there, if one was and it lies in the Granary. -/
theorem putCells_get : ∀ (bs : List (Option Byte)) (c : List Host.Cell) (a i : Nat) (h : i < bs.length), a + i < granSize →
    Tab.get 0 (putCells c a bs) (a + i) = (match bs[i] with | some b => b | none => Tab.get 0 c (a + i))
  | [], _, _, _, h, _ => absurd h (by simp)
  | none :: t, c, a, 0, _, _ => by
    simp only [putCells, Nat.add_zero, List.getElem_cons_zero]; exact putCells_below (a + 1) t c a (by omega)
  | some b :: t, c, a, 0, _, hg => by
    simp only [putCells, Nat.add_zero, List.getElem_cons_zero]
    rw [putCells_below (a + 1) t _ a (by omega), if_pos (by omega)]
    exact Tab.get_set_same _ _ _ _
  | none :: t, c, a, i + 1, h, hg => by
    simp only [putCells, List.getElem_cons_succ]
    have := putCells_get t c (a + 1) i (by simpa using h) (by omega)
    rw [show a + (i + 1) = a + 1 + i by omega]; exact this
  | some b :: t, c, a, i + 1, h, hg => by
    simp only [putCells, List.getElem_cons_succ]
    rw [show a + (i + 1) = a + 1 + i by omega, putCells_get t _ (a + 1) i (by simpa using h) (by omega)]
    cases t[i]'(by simpa using h) with
    | some v => rfl
    | none =>
      simp only
      split
      · exact Tab.get_set_other 0 0 c a (a + 1 + i) b (by omega)
      · rfl

/-- The canonical form in its two parts. -/
theorem Memory.wf_iff (c : List Host.Cell) : Memory.wf c = true ↔ Tab.wf 0 c = true ∧ ∀ p ∈ c, p.1 < granSize := by
  simp [Memory.wf, List.all_eq_true]

/-- A write of bytes keeps the canonical form. -/
theorem putCells_wf : ∀ (bs : List (Option Byte)) (c : List Host.Cell) (a : Nat), Memory.wf c = true → Memory.wf (putCells c a bs) = true
  | [], _, _, h => h
  | none :: t, c, a, h => putCells_wf t c (a + 1) h
  | some b :: t, c, a, h => by
    simp only [putCells]
    apply putCells_wf t _ (a + 1)
    split
    · rename_i ha
      rw [Memory.wf_iff] at h ⊢
      refine ⟨Tab.wf_set 0 c a b h.1, fun p hp => ?_⟩
      rcases Tab.mem_set 0 c a b p hp with rfl | hp
      · exact ha
      · exact h.2 p hp
    · exact h

/-- The Granary of a device is in its canonical form. -/
def Dev.memWf (d : Dev) : Bool := Memory.wf d.gran.cells

/-! What leaves the bytes of the Granary as they are. -/

@[simp] theorem Dev.setEcc_cells (d : Dev) (h : Nat) (e : Ecc) : (d.setEcc h e).gran.cells = d.gran.cells := rfl
@[simp] theorem Dev.reportUe_gran (d : Dev) (g : GSrc) (h : Nat) : (d.reportUe g h).gran = d.gran := by
  unfold Dev.reportUe; simp only; split <;> simp
@[simp] theorem Dev.reportCe_cells (d : Dev) (h : Nat) : (d.reportCe h).gran.cells = d.gran.cells := by
  unfold Dev.reportCe; simp only; split <;> split <;> simp
@[simp] theorem Dev.touch_cells (d : Dev) (g : GSrc) (h : Nat) (e : Ecc) : (d.touch g h e).1.gran.cells = d.gran.cells := by
  unfold Dev.touch; split <;> simp
@[simp] theorem Dev.touchAll_cells (d : Dev) (g : GSrc) (h : Nat) (e : Nat → Ecc) : ∀ k, (d.touchAll g h e k).1.gran.cells = d.gran.cells
  | 0 => rfl
  | k + 1 => by simp only [Dev.touchAll, Dev.touch_cells, Dev.touchAll_cells d g h e k]
@[simp] theorem Dev.readBytes_cells (d : Dev) (g : GSrc) (a n : Nat) : (d.readBytes g a n).1.gran.cells = d.gran.cells := by
  simp [Dev.readBytes]
@[simp] theorem Dev.readLine_cells (d : Dev) (g : GSrc) (l : Nat) (e0 e1 : Ecc) : (d.readLine g l e0 e1).1.gran.cells = d.gran.cells := by
  simp [Dev.readLine]

/-! What writes the Granary keeps the canonical form. -/

theorem Dev.segTouched_wf (d : Dev) (s : Nat) (h : d.memWf = true) : (d.segTouched s).memWf = true := by
  unfold Dev.segTouched
  simp only
  split
  · exact h
  · simp only [Dev.memWf, Dev.bump_gran, Dev.flag_gran, Dev.wr_gran]
    exact putCells_wf _ _ _ h

theorem Dev.segCheck_wf (d : Dev) (k : Nat) (part : List (Option Byte)) (h : d.memWf = true) : (d.segCheck k part).memWf = true := by
  unfold Dev.segCheck
  split
  · simp only
    split <;> split <;> first | exact h | exact Dev.segTouched_wf _ _ h | exact Dev.segTouched_wf _ _ (Dev.segTouched_wf _ _ h)
  · exact h

theorem Dev.writeHalf_wf (d : Dev) (g : GSrc) (k : Nat) (e : Ecc) (part : List (Option Byte)) (h : d.memWf = true) :
    (d.writeHalf g k e part).1.memWf = true := by
  unfold Dev.writeHalf
  split
  · exact h
  · simp only
    split
    · exact Dev.segCheck_wf _ _ _ (putCells_wf _ _ _ h)
    · have ht : (d.touch g k e).1.memWf = true := by simpa [Dev.memWf] using h
      split
      · exact Dev.segCheck_wf _ _ _ (putCells_wf _ _ _ ht)
      · exact ht

theorem Dev.writeHalves_wf (d : Dev) (g : GSrc) (a : Nat) (bs : List (Option Byte)) (k0 : Nat) (e : Nat → Ecc) (h : d.memWf = true) :
    ∀ k, (d.writeHalves g a bs k0 e k).1.memWf = true
  | 0 => h
  | k + 1 => Dev.writeHalf_wf _ _ _ _ _ (Dev.writeHalves_wf d g a bs k0 e h k)

/-- A write of bytes to the Granary keeps the canonical form. -/
theorem Dev.writeBytes_wf (d : Dev) (g : GSrc) (a : Nat) (bs : List (Option Byte)) (h : d.memWf = true) : (d.writeBytes g a bs).1.memWf = true :=
  Dev.writeHalves_wf d g a bs _ _ h _

/-- The memory that reset leaves is in its canonical form. -/
theorem reset_memWf : State.reset.dev.memWf = true := by decide

end Sys2Proof.Machine
end

