-- ==== Sys2Proof/Laws/Queue.lean ====
section
/-! SUPPORT. What waiting does to the device (R33, R39, R377, R626): which fields a request that joins a queue can change, and when a
command is carried out at once. -/
namespace Sys2Proof.Machine
open Sys2Proof

/-- A request that joins a queue changes the queue and, of the registers, event counts only. -/
theorem Dev.joinQueue_eq (d : Dev) (h : Held) : d.joinQueue h = { d with regs := (d.joinQueue h).regs, waitGran := (d.joinQueue h).waitGran } := by
  unfold Dev.joinQueue; dsimp only; (repeat' split) <;> rfl

theorem Dev.asks_eq (d : Dev) (q : Partition) (i : Instr) : d.asks q i = { d with regs := (d.asks q i).regs, waitGran := (d.asks q i).waitGran } := by
  unfold Dev.asks; dsimp only; split
  · rfl
  · exact Dev.joinQueue_eq _ _

theorem Dev.asksOne_eq (d : Dev) (q : Partition) (i : Instr) :
    d.asksOne q i = { d with regs := (d.asksOne q i).regs, waitGran := (d.asksOne q i).waitGran } := by
  unfold Dev.asksOne; split
  · rfl
  · exact Dev.joinQueue_eq _ _

/-- An access that waits on the register bus changes the queue of its master only. -/
theorem Dev.onBus_eq (d : Dev) (m : Master) (i : Instr) (c : Option Nat) : d.onBus m i c = { d with waitBus := (d.onBus m i c).waitBus } := rfl

/-- A command that finds its credit, or needs none, is carried out. -/
theorem Dev.accessing_done (d : Dev) (q : Option Partition) (i : Instr) (f : Dev → Dev) (h : ∀ r, q = some r → d.mayAccess r = true) :
    d.accessing q i f = f d := by
  cases q with
  | none => rfl
  | some r => simp only [Dev.accessing, h r rfl, if_true]

/-- A write of a master that nothing holds up, and that finds its credit or needs none, is carried out. -/
theorem Dev.writing_done (d : Dev) (m : Master) (q : Option Partition) (i : Instr) (f : Dev → Dev) (hb : d.busBlocked m = false)
    (h : ∀ r, q = some r → d.mayAccess r = true) : d.writing m q i f = f d := by
  cases q with
  | none => simp [Dev.writing, hb]
  | some r => simp [Dev.writing, hb, h r rfl]

theorem Dev.inTurn_done (d : Dev) (m : Master) (i : Instr) (f : Dev → Dev) (hb : d.busBlocked m = false) : d.inTurn m i f = f d := by
  simp [Dev.inTurn, hb]

/-- An access that something holds up joins the queue of its master, and has no other effect. -/
theorem Dev.inTurn_waits (d : Dev) (m : Master) (i : Instr) (f : Dev → Dev) (hb : d.busBlocked m = true) :
    d.inTurn m i f = d.onBus m i none := by simp [Dev.inTurn, hb]

/-- An instruction is carried out where its shuttle's credit is free; where a condition stops it, no credit is asked for. -/
theorem Dev.withCredit_done (d : Dev) (c : Nat) (x : Bool) (i : Instr) (l : Ctx → List (Bool × BitVec 24)) (f : Dev → Dev)
    (h : d.waitsGran c x l = false) : d.withCredit c x i l f = f d := by simp [Dev.withCredit, h]

/-- A partition in which nothing waits: a credit that returns serves nothing, and the state is as it was. -/
theorem State.freed_none (s : State) (k : Nat) (h : (Tab.get [] s.dev.waitGran k).isEmpty = true) : s.freed k = s := by
  simp [State.freed, h]

end Sys2Proof.Machine
end

