-- ==== Sys2Proof/Tests/Slice0.lean ====
section
/-! SUPPORT. Tests: the well-formedness checks refuse, words decode as the spec encodes them, single steps give what the rules
give by hand, and the hypotheses of every statement are met. -/
namespace Sys2Proof.Tests
set_option Elab.async false
open Sys2Proof Sys2Proof.Machine

/-- A state with an empty queue. -/
def st (d : Dev) : State := ⟨d, []⟩
/-- The device after reset: every block is the core's, no unit is ON. -/
def d0 : Dev := State.reset.dev
/-- Fields set one after the other. -/
def wf (d : Dev) (l : List (Fld × Nat)) : Dev := l.foldl (fun d p => d.wr p.1 p.2) d
/-- A context of loom 3 and site 5 that can issue. -/
def x0 : Ctx :=
  { state := .ready, slot := some 0, home := 3, site := 5, regGrant := true, pc := 0x10, flags := 0x2A,
    w := [(0, 100), (1, 7), (2, 0xFFFFFF), (3, 0x200003), (4, 1), (5, 31), (6, 96), (7, 3), (8, 6)],
    a := [(0, 0x4000), (1, 0x5000), (2, 0x6000), (3, 0x1FFFFFFFE)], lc := [(0, 2)] }
/-- Its shuttle and the loom's units ON, channel 96 in its site, the Granary initialized; half 0x300 holds an error. -/
def on3 (b : Dev) : Dev :=
  let d := (((wf b [(Reg.GLB_STATUS.gran_ready, 1)]).setUnit (kShuttle 3) .on).setUnit (kPattern 3) .on).setUnit (kMill 3) .on
  { (d.setUnit (kCapture 3) .on).setEcc 0x300 .uncorr with sites := Tab.put d.sites 5 ⟨true, 0x8000⟩, chmap := Tab.put d.chmap 96 1029 }
/-- Context 0 is `x`. -/
def run3 (b : Dev) (x : Ctx) : Dev := (on3 b).setCtx 0 x
/-- Descriptor 6 of the segment table: one pass of 256 vectors. -/
def seg6 : List Host.Cell := [(96, 2), (101, 1), (109, 1)]
/-- A capture descriptor at 0x4000: converter codes of channel 0 of the loom every 16th sample. -/
def cap40 : List Host.Cell := [(0x4000, 1), (0x4004, 4), (0x4008 + 3, 1), (0x400E, 1), (0x401C, 16), (0x4027, 1)]
/-- The Reed interface enabled: its state and role, and what it holds. -/
def rd (b : Dev) (s r : Nat) (x : Reed := {}) : Dev :=
  { wf b [(Reg.REED_CTRL.en, 1), (Reg.REED_STATE.state, s), (Reg.REED_CTRL.role, r), (Reg.REED_CTRL.position, 1), (Reg.REED_LAT.ticks, 60), (Reg.REED_LAT.upslots_log2, 3)] with reed := x }
/-- The Mill of loom 2 is `x`. -/
def mi (b : Dev) (x : Mill) : Dev := ((wf b [(Reg.GLB_STATUS.gran_ready, 1)]).setUnit (kMill 2) .on).setMill 2 x
/-- A running Mill: two lanes, values in v, a at 5. -/
def mr : Mill :=
  { state := 2, a := 5, v := [(1, 3), (2, 0xFFFFFE)], dm := [(0, 2), (7, 9)], mask := 0b101, lg := 4, hist := 1, avail := [(0, 3), (1, 2)],
    ags := [(1, { base := 7, length := 4, index := 1, mod := -1 })], steps := 100, pc := 9, gaddr := 0x80000 }
/-- The capture unit of loom 2 in state `s`. -/
def cp (b : Dev) (s : Nat) (x : Cap) : Dev := ((wf b [(Reg.LOOM.CAP_STATUS.state 2, s), (Reg.GLB_STATUS.gran_ready, 1)]).setUnit (kCapture 2) .on).setCap 2 x
/-- A capture of one converter channel. -/
def ce : CapDesc :=
  { ring := 0x2000, ringLines := 4, lanes := 1, pre := 1, post := 3, captures := 2, lane := [3], div := 16, occ := 1, trig := 0xFF1205, record := 0x3000 }
/-- The same capture descriptor, for loom 2 and no class of channel: event frames. -/
def cap45 : List Host.Cell := [(0x4000, 1), (0x4004, 4), (0x4007, 1), (0x400B, 1), (0x400E, 1), (0x401E, 1), (0x4020, 6)]
/-- A Mill image at 0x4000: two operations and one data word. -/
def img40 : List Host.Cell :=
  [(0x4000, 1), (0x4002, 2), (0x4004, 1), (0x4006, 5), (0x4008, 1), (0x400D, 100), (0x400F, 4), (0x4010, 2), (0x4020, 0x12), (0x4023, 0x34), (0x4026, 0xFF)]
/-- The Granary initialized, and a site table of one valid entry. -/
def gr (b : Dev) : Dev := { wf b [(Reg.GLB_STATUS.gran_ready, 1)] with sites := Tab.put b.sites 5 ⟨true, 0x80000⟩ }
/-- A burst of context 0 on loom 3. -/
def bst : Burst := { serial := 1, ctx := 0, site := 5, blocking := false, mloop := false, strict := false }
/-- Loom 3 plays a burst. -/
def pl (b : Dev) (x : Burst) (p : Pat := {}) : Dev := (run3 b x0).setPat 3 { p with burst := some x }
/-- Two lines of vectors whose pin codes are all 0. -/
def ln0 : List BobLine := [.data 0, .data 0, .data 0, .data 0, .data 0]
/-- One entry of 256 vectors. -/
def en : Entry := { seg := 6, desc := { start := 2, length := 256, valid := true, last := true }, lines := ln0 }
/-- A waveform source of channel 40 in state `s`, its channel forcing. -/
def wv (b : Dev) (s : Nat) (x : Wfm := {}) : Dev :=
  (wf b [(Reg.GLB_STATUS.gran_ready, 1), (Reg.CHAN.CTRL.mode 40, 1), (Reg.CHAN.CTRL.conn 40, 1), (Reg.WFM.STATUS.state 40, s), (Reg.WFM.CTRL.filter 40, 1), (Reg.WFM.CTRL.end_hold 40, 1)]).setWfm 40 x
/-- A waveform descriptor at 0x4000. -/
def wd40 : List Host.Cell := [(0x4001, 0x80), (0x4005, 64), (0x4008, 2), (0x400B, 3)]
/-- A DMA engine 3 that is ON, with descriptor `v` fetched and `p` bytes of it done. -/
def dm (b : Dev) (v : BitVec 256) (p : Nat) : Dev :=
  let d := (wf (gr b) [(Reg.DMA.RING_CFG.size_log2 3, 4), (Reg.DMA.TAIL.tail 3, 5), (Reg.DMA.PROGRESS.bytes 3, p)]).setUnit (kDma 3) .on
  { d with pcie := { d.pcie with bme := true }, dmas := [(3, { fetched := [some v] })] }
/-- A descriptor of 64 bytes at Granary address 0x80000; `o` its other bits from bit 160. -/
def dv (o : Nat) : BitVec 256 := BitVec.ofNat 256 (0x1000 + 0x80000 * 2 ^ 64 + 64 * 2 ^ 128 + o * 2 ^ 160)
/-- The board port open, in a frame. -/
def bp (b : Dev) (x : Bp := {}) : Dev := { wf b [(Reg.BP_CTRL.en, 1)] with bp := { x with active := true } }
/-- The flash with a page fill under way. -/
def fil (s : Bool) : Fill := { page := 3, second := s, ctx := 0, fetch := true }
/-- A core of loom 4 on the calibration bus. -/
def wk : CalCore := { j := 7, stand := none, stage := 1, rolling := false }
/-- Loom 4 shows a core at work. -/
def ca (b : Dev) (s : Nat) (w : Option CalCore := none) : Dev :=
  { wf (gr b) [(Reg.CAL_STATUS.state, s), (Reg.CAL_CTRL.roll_en, 1), (Reg.CAL_DUE.looms, 16)] with cal := { b.cal with work := Tab.set none [] 4 w } }
/-- A microcode store of shuttle 6. -/
def us (b : Dev) (x : Store) : Dev := b.modUstore 6 fun _ => x
/-- The first copy of the lifetime counters, all zeros, with its CRC. -/
def mr8 : Tab Byte := (List.range 4).map fun j => (0x813C + j, (leBytes 4 (crc32 (List.replicate 60 0))).getD j 0)
/-- A state whose Reed count runs, with an empty queue. -/
def stc (d : Dev) : State := st { d with reed := { d.reed with counting := true } }
/-- Out of reset, the Granary trained. -/
def up (d : Dev) : Dev := { d with boot := { d.boot with held := false }, gran := { d.gran with trained := true } }
/-- What holds of the value read where nothing is listed, and of every entry, holds of every read. -/
theorem tab_all {α : Type} {d : α} {P : Nat → α → Prop} (h0 : ∀ k, P k d) : ∀ t : Tab α, (∀ e ∈ t, P e.1 e.2) → ∀ k, P k (Tab.get d t k)
  | [], _, k => h0 k
  | (j, v) :: t, h, k => by
    rw [Tab.get]
    by_cases e : j = k
    · rw [if_pos e, ← e]; exact h (j, v) (List.mem_cons_self ..)
    · rw [if_neg e]; exact tab_all h0 t (fun x m => h x (List.mem_cons_of_mem _ m)) k
/-- No context but context 0 holds a result of a wait. -/
theorem rel_none (t : Tab Ctx) (h : ∀ e ∈ t, e.1 ≠ 0 → e.2.rel = .none) : ∀ k, k ≠ 0 → (Tab.get {} t k).rel = .none :=
  tab_all (P := fun k x => k ≠ 0 → x.rel = .none) (fun _ _ => rfl) t h
/-- Every context is ready. -/
def full : State := st { run3 d0 x0 with ctxs := (0, x0) :: (List.range 10239).map fun k => (k + 1, x0) }
theorem tab_full (n k : Nat) (h : k ≤ n) : Tab.get ({} : Ctx) ((0, x0) :: (List.range n).map fun j => (j + 1, x0)) k = x0 := by
  cases k with
  | zero => rfl
  | succ k =>
    have g : ∀ l : List Nat, k ∈ l → Tab.get {} (l.map fun j => (j + 1, x0)) (k + 1) = x0 := by
      intro l
      induction l with
      | nil => intro m; cases m
      | cons a l ih =>
        intro m
        rw [List.map_cons, Tab.get]
        by_cases e : a + 1 = k + 1
        · rw [if_pos e]
        · rw [if_neg e]; exact ih (by rcases List.mem_cons.1 m with r | r; exact absurd (by rw [r]) e; exact r)
    exact g _ (List.mem_range.2 (by omega))
theorem full_ctx (k : Nat) (h : k < 10240) : full.dev.ctx k = x0 := tab_full 10239 k (by omega)

/-! A term that each check of WellFormed refuses, and the fault that its meaning ends in. -/

theorem test_wf_bar2Read : Instr.wf (.bar2Read 0x1FFFFFFFF 2) = false := by decide
theorem test_wf_bar2Write : Instr.wf (.bar2Write 0 [1, 2] [true]) = false := by decide
theorem test_wf_bar2Write_end : Instr.wf (.bar2Write 0x1FFFFFFFF [1, 2] [true, true]) = false := by decide
theorem test_wf_boardPortFrameEnd : Instr.wf (.boardPortFrameEnd [1, 2] 24 24 false) = false := by decide
theorem test_wf_calPhaseComplete : Instr.wf (.calPhaseComplete (.ladder 3 true [1] 0)) = false := by decide
theorem test_wf_calPhaseComplete_timing : Instr.wf (.calPhaseComplete (.timing true [] [] [])) = false := by decide
theorem test_wf_coreCalibrationComplete : Instr.wf (.coreCalibrationComplete 3 true [1]) = false := by decide
theorem test_wf_coreCalibrationComplete_cells : Instr.wf (.coreCalibrationComplete 3 true (List.replicate 32 1)) = false := by decide +kernel
theorem test_wf_calPhaseComplete_segments :
    Instr.wf (.calPhaseComplete (.timing true (List.replicate 24 0) (List.replicate 24 1) (List.replicate 24 0))) = false := by decide +kernel
theorem test_wf_sensorUpdate : Instr.wf (.sensorUpdate [some 5]) = false := by decide
theorem test_wf_sensorUpdate_range : Instr.wf (.sensorUpdate (List.replicate 64 (some 40000))) = false := by decide
theorem test_wf_accepts : Instr.wf (.bar2Write 0x1FFFFFFFF [1] [true]) = true := by decide
theorem test_illFormed_faults : exec (.bar2Read 0x1FFFFFFFF 2) (st d0) = .fault (.illFormed "BAR2_READ") := rfl

/-! Words written out from the encodings of R69, R72, R77 and R341: opcode, d, s, x, function, or opcode, d, immediate. -/

theorem test_decode_add : decodeShuttle 9 0b00000_0001_0010_0_0000000001 0 = .add 9 ⟨1, 2, false, 0⟩ := by decide
theorem test_decode_addi : decodeShuttle 9 0b00001_0101_111111111111111 0 = .addi 9 ⟨5, 0x7FFF⟩ := by decide
theorem test_decode_alea : decodeShuttle 9 0b00110_0001_0011_1_0000000001 0xFFFFF0 = .alea 9 ⟨1, 3, true, 0xFFFFF0⟩ := by decide
theorem test_decode_ld : decodeShuttle 9 0b00111_0101_0010_0_0000001101 0 = .ld 9 ⟨5, 2, false, 0⟩ 5 true 0 := by decide
theorem test_decode_xadd : decodeShuttle 9 0b01001_0101_0010_1_0000000100 8 = .xadd 9 ⟨5, 2, true, 8⟩ 4 false 0 := by decide
theorem test_decode_br : decodeShuttle 9 0b01010_0010_000000000000110 0 = .br 9 ⟨2, 6⟩ := by decide
theorem test_decode_call : decodeShuttle 9 0b01011_0001_0000_1_0000000010 0x123 = .call 9 ⟨1, 0, true, 0x123⟩ := by decide
theorem test_decode_waite : decodeShuttle 9 0b01111_0001_0010_0_0000001010 0 = .waite 9 ⟨1, 2, false, 0⟩ true 0 := by decide
theorem test_decode_spawn : decodeShuttle 9 0b10000_0001_0010_1_0000000001 0x50 = .spawn 9 ⟨1, 2, true, 0x50⟩ := by decide
theorem test_decode_halt : decodeShuttle 9 0b10001_0000_0000_0_0000000010 0 = .halt 9 ⟨0, 0, false, 0⟩ := by decide
theorem test_decode_rdreg : decodeShuttle 9 0b10010_0001_0010_1_0000000001 0x10 = .rdreg 9 ⟨1, 2, true, 0x10⟩ := by decide
theorem test_decode_clamp : decodeShuttle 9 0b10011_0110_0010_0_0000110011 0 = .chanClamp 9 ⟨6, 2, false, 0⟩ 3 0 := by decide
theorem test_decode_burst : decodeShuttle 9 0b10100_0111_1000_0_0000010001 0 = .burst 9 ⟨7, 8, false, 0⟩ true 0 := by decide
theorem test_decode_arm : decodeShuttle 9 0b10101_0000_0001_1_0000000001 31 = .arm 9 ⟨0, 1, true, 31⟩ := by decide
theorem test_decode_mwait : decodeShuttle 9 0b10110_0001_0111_0_0000000011 0 = .mwait 9 ⟨1, 7, false, 0⟩ := by decide
theorem test_decode_send : decodeShuttle 9 0b10111_0000_0001_0_0000010001 0 = .send 9 ⟨0, 1, false, 0⟩ false true 0 := by decide
theorem test_decode_undefined : decodeShuttle 9 0b11000_0000_0000_0_0000000000 0 = .undefinedInstruction 9 0xC00000 := by decide
theorem test_decode_millMac : decodeMillOp 2 0b00010_0110000000000000000 = .millMac 2 0x30000 := by decide
theorem test_decode_millHalt : decodeMillOp 2 0b11100_0000000000000000111 = .millHalt 2 7 := by decide
theorem test_decode_millUndefined : decodeMillOp 2 0b11101_0000000000000000000 = .millUndefinedOperation 2 0xE80000 := by decide

/-! One step, and what the rules give by hand. -/

/-- The device after a command, where it answers a next state. -/
def after (i : Instr) (s : State) : Option Dev := match exec i s with | .next t => some t.dev | _ => none

/-- R64: 7 + 0xFFFFF9 wraps to 0, with Z and C and not V. -/
theorem test_add_wraps : (after (.add 0 ⟨1, 0, true, 0xFFFFF9⟩) (st (run3 d0 x0))).map (fun d => ((d.ctx 0).rw 1, (d.ctx 0).flags)) = some (0, 0b100101) := by
  decide +kernel
/-- R64: 7 − 0xFFFFFF borrows: 8, with C. -/
theorem test_sub_borrows : (after (.sub 0 ⟨1, 2, false, 0⟩) (st (run3 d0 x0))).map (fun d => ((d.ctx 0).rw 1, (d.ctx 0).flags)) = some (8, 0b100100) := by
  decide +kernel
/-- R78: the negative of the least value is itself, with N and V. -/
theorem test_neg_least : (after (.neg 0 ⟨1, 0, true, 0x800000⟩) (st (run3 d0 x0))).map (fun d => ((d.ctx 0).rw 1, (d.ctx 0).fN, (d.ctx 0).fV)) =
    some (0x800000, true, true) := by decide +kernel
/-- R78: the absolute value of a positive number is that number. -/
theorem test_abs_positive : (after (.abs 0 ⟨2, 1, false, 0⟩) (st (run3 d0 x0))).map (fun d => (d.ctx 0).rw 2) = some 7 := by decide +kernel
/-- R82: a load of width 3 extends the sign of 16 bits. -/
theorem test_ld_signs : (after (.ld 0 ⟨1, 2, false, 0⟩ 3 true 0) (st { run3 d0 { x0 with a := [(2, 0x5000)] } with gran := { cells := [(0x5000, 0x34), (0x5001, 0x92)] } })).map
    (fun d => ((d.ctx 0).rw 1, (d.ctx 0).ra 2)) = some (0xFF9234, 0x5002) := by decide +kernel
/-- R82: a store of width 4 writes three bytes, least significant first. -/
theorem test_st_bytes : (after (.st 0 ⟨3, 0, false, 0⟩ 4 false 0) (st (run3 d0 { x0 with a := [(0, 0x80000)] }))).map
    (fun d => [d.byte 0x80000, d.byte 0x80001, d.byte 0x80002, d.byte 0x80003]) = some [0x03, 0x00, 0x20, 0x00] := by decide +kernel
/-- R95: BRK parks its context with its detail. -/
theorem test_brk_parks : (after (.brk 0 ⟨0, 0, true, 0x1234⟩) (st (run3 d0 x0))).map (fun d => ((d.ctx 0).state, (d.ctx 0).fault)) =
    some (.parked, 0x0E1234) := by decide +kernel
/-- R341: MPY multiplies data word 0, which holds 2, by itself. -/
theorem test_mill_mpy : (after (.millMpy 2 0) (st (mi d0 mr))).map (fun d => ((d.mill 2).a, (d.mill 2).pc, (d.mill 2).steps)) = some (4, 10, 101) := by
  decide +kernel
/-- R396: an access that is no whole slot is refused, and nothing is written. -/
theorem test_size_reject : (after (.registerWrite .host 0x30 0 5 0x3) (st d0)).map (fun d => d.rd Reg.GLB_STATUS.size_reject) = some 1 := by decide +kernel
/-- R397: a slot outside the register map counts a void access. -/
theorem test_void_access : (after (.registerWrite (.ctx 5) 0x0F000 0 7 0xF) (st d0)).map (fun d => d.rd Reg.GLB_STATUS.void_access) = some 1 := by
  decide +kernel
/-- R122: CLAIM takes a FREE context. -/
theorem test_claim : (after (.claim .core false) (st (wf d0 [(Reg.CTX_SEL.context 1, 9)]))).map (fun d => (d.ctx 9).state) = some .claimed := by
  decide +kernel
/-- R536: a master that does not own a block is refused. -/
theorem test_claim_refused : (after (.claim .host false) (st (wf d0 [(Reg.CTX_SEL.context 0, 9)]))).map (fun d => (d.ctx 9).state) = some .free := by
  decide +kernel
/-- R514: the entry of ADD (opcode 0x00, function 1) and of a load (opcode 0x07, function 13), and of ADDI, which has no function. -/
theorem test_dispatch_index : dispatchIndex 0b00000_0001_0010_0_0000000001 = 1 ∧ dispatchIndex 0b00111_0101_0010_0_0000001101 = 237 ∧
    dispatchIndex 0b00001_0101_111111111111111 = 32 := by decide
/-- R496: the digest of "abc", as FIPS 180-4 gives it. -/
theorem test_sha256_abc : (sha256 [0x61, 0x62, 0x63]).take 4 = [0xBA, 0x78, 0x16, 0xBF] := by decide +kernel

/-! Every statement with hypotheses: states and operands that meet them, clause by clause. -/

theorem test_hypotheses_ShuttleRoundTrip :
    (∃ (i : Instr) (c : CtxId) (w : BitVec 24) (e : BitVec 24), encodeShuttle i = some (c, w, e) ∧ (xOf w = false → e = 0)) ∧
    (∃ (c : CtxId) (w : BitVec 24) (e : BitVec 24) (i : Instr), decodeDefined c w e = some i) ∧
    (∃ (w : BitVec 24), 0x18 ≤ (opOf w).toNat) :=
  ⟨⟨.add 5 ⟨3, 0, true, 0x0003E8⟩, 5, 0x018401, 0x0003E8, by decide +kernel⟩,
   ⟨5, 0x018401, 0x0003E8, .add 5 ⟨3, 0, true, 0x0003E8⟩, by decide +kernel⟩,
   ⟨0xC00000, by decide +kernel⟩⟩

theorem test_hypotheses_MillRoundTrip :
    (∃ (i : Instr) (n : LoomId) (w : BitVec 24), encodeMill i = some (n, w)) ∧
    (∃ (w : BitVec 24), 0x01 ≤ (opOf w).toNat ∧ (opOf w).toNat ≤ 0x1C) ∧
    (∃ (w : BitVec 24), ((opOf w).toNat = 0 ∨ 0x1C < (opOf w).toNat)) :=
  ⟨⟨.millArd 2 0x5F020, 2, 0x3DF020, by decide +kernel⟩,
   ⟨0x0FFFFF, by decide +kernel⟩,
   ⟨0xFFFFFF, by decide +kernel⟩⟩

theorem test_hypotheses_QueueInvariant :
    ∃ (s : State), s.queueWf = true :=
  ⟨⟨d0, [.drainComplete (.mill 3), .add 5 ⟨3, 0, true, 0x0003E8⟩]⟩, by decide +kernel⟩

theorem test_hypotheses_Arithmetic :
    (∃ (s : State) (c : CtxId) (i : RRX), s.dev.runs c (wordsOf i) = true ∧ (i.x = true → i.s = 0)) ∧
    (∃ (s : State) (c : CtxId), s.dev.runs c 1 = true) :=
  ⟨⟨st (run3 d0 x0), 0, ⟨1, 0, true, 0x800000⟩, by decide +kernel⟩,
   ⟨st (run3 d0 x0), 0, by decide +kernel⟩⟩

theorem test_hypotheses_LogicMovesAndShifts :
    (∃ (s : State) (c : CtxId) (i : RRX), s.dev.runs c (wordsOf i) = true ∧ (i.x = true → i.s = 0)) ∧
    (∃ (s : State) (c : CtxId), s.dev.runs c 1 = true) :=
  ⟨⟨st (run3 d0 x0), 0, ⟨1, 0, true, 0x800000⟩, by decide +kernel⟩,
   ⟨st (run3 d0 x0), 0, by decide +kernel⟩⟩

theorem test_hypotheses_AddressRegisters :
    (∃ (s : State) (c : CtxId) (i : RRX), s.dev.runs c (wordsOf i) = true ∧ ((fun i => !above3 i.d && !above3 i.s)) i = true) ∧
    (∃ (s : State) (c : CtxId) (i : RRX), s.dev.runs c (wordsOf i) = true ∧ ((fun i => !i.x && !above3 i.d)) i = true) ∧
    (∃ (s : State) (c : CtxId) (i : RRX), s.dev.runs c (wordsOf i) = true ∧ ((fun i => i.x && !above3 i.d && i.s == 0)) i = true) ∧
    (∃ (s : State) (c : CtxId) (i : RRX), s.dev.runs c (wordsOf i) = true ∧ ((fun i => !i.x && !above3 i.d && i.s == 0)) i = true) ∧
    (∃ (s : State) (c : CtxId) (i : RRX), s.dev.runs c (wordsOf i) = true ∧ ((fun i => !i.x && !above3 i.s)) i = true) ∧
    (∃ (s : State) (c : CtxId) (i : RRX), s.dev.runs c (wordsOf i) = true ∧ ((fun i => !i.x && !above3 i.d && !above3 i.s)) i = true) :=
  ⟨⟨st (run3 d0 x0), 0, ⟨1, 2, true, 0xFFFFF0⟩, by decide +kernel⟩,
   ⟨st (run3 d0 x0), 0, ⟨1, 2, false, 0⟩, by decide +kernel⟩,
   ⟨st (run3 d0 x0), 0, ⟨1, 0, true, 5⟩, by decide +kernel⟩,
   ⟨st (run3 d0 x0), 0, ⟨1, 0, false, 0⟩, by decide +kernel⟩,
   ⟨st (run3 d0 x0), 0, ⟨1, 3, false, 0⟩, by decide +kernel⟩,
   ⟨st (run3 d0 x0), 0, ⟨0, 1, false, 0⟩, by decide +kernel⟩⟩

theorem test_hypotheses_Load :
    ∃ (s : State) (c : CtxId) (i : RRX) (width : BitVec 3), let x := s.dev.ctx c; let n := widthBytes width.toNat; let a := effAddr x i; s.dev.runs c (wordsOf i) = true ∧ s.dev.reachesGran c = true ∧ width.toNat < 7 ∧ i.s.toNat < 4 ∧ (width.toNat = 6 → i.d.toNat < 4) ∧ a + n ≤ 2 ^ 33 ∧ s.dev.clean a n = true ∧ (∀ j < n, s.dev.xipOff x.home.toNat (a + j) = none) :=
  ⟨st (run3 d0 x0), 0, ⟨1, 0, false, 0⟩, 4, by decide +kernel⟩

theorem test_hypotheses_StoreAndExchange :
    (∃ (s : State) (c : CtxId) (i : RRX) (width : BitVec 3), let x := s.dev.ctx c; let n := widthBytes width.toNat; let a := effAddr x i; s.dev.runs c (wordsOf i) = true ∧ s.dev.reachesGran c = true ∧ width.toNat < 7 ∧ i.s.toNat < 4 ∧ (width.toNat = 6 → i.d.toNat < 4) ∧ a + n ≤ 2 ^ 33 ∧ s.dev.clean a n = true) ∧
    (∃ (s : State) (c : CtxId) (i : RRX) (width : BitVec 3), let x := s.dev.ctx c; let n := widthBytes width.toNat; let a := effAddr x i; s.dev.runs c (wordsOf i) = true ∧ s.dev.reachesGran c = true ∧ (width.toNat = 4 ∨ width.toNat = 5) ∧ i.s.toNat < 4 ∧ a + n ≤ 2 ^ 33 ∧ s.dev.clean a n = true ∧ s.dev.offTable a n = true) :=
  ⟨⟨st (run3 d0 { x0 with a := [(0, 0x80000), (1, 0x1FFFFFFFF)] }), 0, ⟨2, 0, false, 0⟩, 4, by decide +kernel⟩,
   ⟨st (run3 d0 { x0 with a := [(0, 0x80000), (1, 0x80040)] }), 0, ⟨2, 0, false, 0⟩, 4, by decide +kernel⟩⟩

theorem test_hypotheses_FlowOfControl :
    (∃ (s : State) (c : CtxId) (i : RI), s.dev.runs c 1 = true ∧ (s.dev.ctx c).cond i.d.toNat = true) ∧
    (∃ (s : State) (c : CtxId) (i : RI), s.dev.runs c 1 = true ∧ (s.dev.ctx c).cond i.d.toNat = false) ∧
    (∃ (s : State) (c : CtxId) (i : RRX), s.dev.runs c (wordsOf i) = true ∧ i.d = 0 ∧ (i.x = true → i.s = 0)) ∧
    (∃ (s : State) (c : CtxId) (i : RRX), s.dev.runs c (wordsOf i) = true ∧ (i.x = true → i.s = 0)) ∧
    (∃ (s : State) (c : CtxId) (i : RI), s.dev.runs c 1 = true ∧ i.d.toNat < 4 ∧ i.imm.msb = false) ∧
    (∃ (s : State) (c : CtxId) (i : RRX), s.dev.runs c (wordsOf i) = true ∧ ((fun i => !above3 i.d && (!i.x || i.s == 0))) i = true) ∧
    (∃ (s : State) (c : CtxId) (i : RRX), s.dev.runs c (wordsOf i) = true ∧ ((fun i => !i.x && !above3 i.s)) i = true) ∧
    (∃ (s : State) (c : CtxId) (i : RI), s.dev.runs c 1 = true ∧ i.d.toNat < 4 ∧ 1 < ((s.dev.ctx c).rl i.d.toNat).toNat) ∧
    (∃ (s : State) (c : CtxId) (i : RI), s.dev.runs c 1 = true ∧ i.d.toNat < 4 ∧ ((s.dev.ctx c).rl i.d.toNat).toNat ≤ 1) :=
  ⟨⟨st (run3 d0 x0), 0, ⟨0, 6⟩, by decide +kernel⟩,
   ⟨st (run3 d0 x0), 0, ⟨13, 6⟩, by decide +kernel⟩,
   ⟨st (run3 d0 x0), 0, ⟨0, 1, false, 0⟩, by decide +kernel⟩,
   ⟨st (run3 d0 x0), 0, ⟨1, 2, false, 0⟩, by decide +kernel⟩,
   ⟨st (run3 d0 x0), 0, ⟨1, 0x3FFF⟩, by decide +kernel⟩,
   ⟨st (run3 d0 x0), 0, ⟨1, 2, false, 0⟩, by decide +kernel⟩,
   ⟨st (run3 d0 x0), 0, ⟨1, 0, false, 0⟩, by decide +kernel⟩,
   ⟨st (run3 d0 x0), 0, ⟨0, 0x7FF0⟩, by decide +kernel⟩,
   ⟨st (run3 d0 x0), 0, ⟨1, 5⟩, by decide +kernel⟩⟩

theorem test_hypotheses_Waits :
    (∃ (s : State) (c : CtxId) (i : RRX), s.dev.runs c (wordsOf i) = true ∧ i.d = 0 ∧ (i.x = true → i.s = 0)) ∧
    (∃ (s : State) (c : CtxId) (i : RRX), s.dev.runs c 1 = true ∧ i.x = false) ∧
    (∃ (s : State) (c : CtxId) (i : RRX) (tmo : Bool), let x := s.dev.ctx c; s.dev.runs c (wordsOf i) = true ∧ (tmo = false → i.d = 0) ∧ (i.x = true → i.s = 0) ∧ selOk (opB x i).toNat = true ∧ s.dev.levelHolds (opB x i).toNat = true) ∧
    (∃ (s : State) (c : CtxId) (i : RRX) (tmo : Bool), let x := s.dev.ctx c; s.dev.runs c (wordsOf i) = true ∧ (tmo = false → i.d = 0) ∧ (i.x = true → i.s = 0) ∧ selOk (opB x i).toNat = true ∧ s.dev.levelHolds (opB x i).toNat = false) :=
  ⟨⟨st (run3 d0 x0), 0, ⟨0, 1, false, 0⟩, by decide +kernel⟩,
   ⟨st (run3 d0 x0), 0, ⟨1, 2, false, 0⟩, by decide +kernel⟩,
   ⟨st (run3 d0 x0), 0, ⟨0, 3, false, 0⟩, false, by decide +kernel⟩,
   ⟨st (run3 d0 x0), 0, ⟨0, 0, true, 1048831⟩, false, by decide +kernel⟩⟩

theorem test_hypotheses_Threads :
    (∃ (s : State) (c : CtxId) (i : RRX) (k : Nat) (l : Bool), let x := s.dev.ctx c; let home := if l then (x.rw i.d.toNat).setWidth 5 else x.home; s.dev.runs c 2 = true ∧ i.x = true ∧ (l = true → home.toNat ≤ 24) ∧ k < 10240 ∧ (s.dev.ctx k).state = .free ∧ (∀ j < k, (s.dev.ctx j).state ≠ .free)) ∧
    (∃ (s : State) (c : CtxId) (i : RRX) (l : Bool), let x := s.dev.ctx c; s.dev.runs c 2 = true ∧ i.x = true ∧ (l = true → ((x.rw i.d.toNat).setWidth 5).toNat ≤ 24) ∧ (∀ k < 10240, (s.dev.ctx k).state ≠ .free)) ∧
    (∃ (s : State) (c : CtxId) (i : RRX), let x := s.dev.ctx c; let k := (x.rw i.s.toNat).toNat; s.dev.runs c 1 = true ∧ i.x = false ∧ k < 10240 ∧ (s.dev.ctx k).parent.toNat = c.val ∧ (s.dev.ctx k).state = .halted) ∧
    (∃ (s : State) (c : CtxId) (i : RRX), let x := s.dev.ctx c; let k := (x.rw i.s.toNat).toNat; s.dev.runs c 1 = true ∧ i.x = false ∧ k < 10240 ∧ (s.dev.ctx k).parent.toNat = c.val ∧ (s.dev.ctx k).state = .parked) ∧
    (∃ (s : State) (c : CtxId) (i : RRX), let x := s.dev.ctx c; let k := (x.rw i.s.toNat).toNat; s.dev.runs c 1 = true ∧ i.x = false ∧ k < 10240 ∧ (s.dev.ctx k).parent.toNat = c.val ∧ ((s.dev.ctx k).state = .ready ∨ (s.dev.ctx k).state = .waiting)) ∧
    (∃ (s : State) (c : CtxId) (i : RRX), s.dev.runs c 1 = true ∧ i.x = false ∧ i.s = 0) :=
  ⟨⟨st (run3 d0 x0), 0, ⟨1, 2, true, 80⟩, 1, false, by decide +kernel⟩,
   ⟨full, 0, ⟨1, 2, true, 80⟩, false, by decide +kernel, rfl, fun h => absurd h (by decide), fun k hk => by rw [full_ctx k hk]; decide⟩,
   ⟨st ((run3 d0 x0).setCtx 1 { x0 with state := .halted, parent := 0 }), 0, ⟨2, 4, false, 0⟩, by decide +kernel⟩,
   ⟨st ((run3 d0 x0).setCtx 1 { x0 with state := .parked, parent := 0, fault := 0x123 }), 0, ⟨2, 4, false, 0⟩, by decide +kernel⟩,
   ⟨st ((run3 d0 x0).setCtx 1 { x0 with state := .waiting, parent := 0 }), 0, ⟨2, 4, false, 0⟩, by decide +kernel⟩,
   ⟨st (run3 d0 x0), 0, ⟨1, 0, false, 0⟩, by decide +kernel⟩⟩

theorem test_hypotheses_SystemInstructions :
    (∃ (s : State) (c : CtxId) (i : RRX), s.dev.runs c (wordsOf i) = true ∧ ((fun i => !i.x && i.d == 0 && i.s == 0)) i = true) ∧
    (∃ (s : State) (c : CtxId) (i : RRX), s.dev.runs c (wordsOf i) = true ∧ ((fun i => !i.x && i.d != i.s)) i = true) ∧
    (∃ (s : State) (c : CtxId) (i : RRX), s.dev.runs c (wordsOf i) = true ∧ ((fun i => !i.x && i.s == 0)) i = true) ∧
    (∃ (s : State) (c : CtxId) (i : RRX), s.dev.runs c (wordsOf i) = true ∧ ((fun i => !i.x && i.d == 0)) i = true) :=
  ⟨⟨st (run3 d0 x0), 0, ⟨0, 0, false, 0⟩, by decide +kernel⟩,
   ⟨st (run3 d0 x0), 0, ⟨1, 2, false, 0⟩, by decide +kernel⟩,
   ⟨st (run3 d0 x0), 0, ⟨1, 0, false, 0⟩, by decide +kernel⟩,
   ⟨st (run3 d0 x0), 0, ⟨0, 1, false, 0⟩, by decide +kernel⟩⟩

theorem test_hypotheses_HaltOrphansChildren :
    ∃ (s : State) (c : CtxId) (i : RRX), let x := s.dev.ctx c; s.dev.runs c 1 = true ∧ i.x = false ∧ i.d = 0 ∧ i.s = 0 ∧ x.parent.toNat ≠ c.val ∧ (∀ h, h ≠ c.val → (s.dev.ctx h).parent.toNat = c.val → (s.dev.ctx h).state = .halted → ∀ j, (s.dev.ctx j).parent.toNat = h → (s.dev.ctx j).state = .free ∨ (s.dev.ctx j).state = .claimed) :=
  ⟨st ((run3 d0 { x0 with parent := 0x3FFF }).setCtx 1 { x0 with parent := 0 }), 0, ⟨0, 0, false, 0⟩, by and_intros <;> first | decide +kernel | exact fun h n p q => absurd q (tab_all (α := Ctx) (d := {}) (P := fun _ x => x.state ≠ .halted) (fun _ => by decide) _ (by decide +kernel) h)⟩

theorem test_hypotheses_RegisterInstructions :
    (∃ (s : State) (c : CtxId) (i : RRX), let x := s.dev.ctx c; s.dev.runs c 2 = true ∧ s.dev.busBlocked .core = false ∧ i.x = true ∧ i.d ≠ i.s ∧ x.regGrant = true ∧ i.ext.toNat < 2 ^ 20 ∧ i.ext.toNat % 4 = 0) ∧
    (∃ (s : State) (c : CtxId) (i : RRX), let x := s.dev.ctx c; s.dev.runs c 2 = true ∧ s.dev.busBlocked .core = false ∧ i.x = true ∧ x.regGrant = true ∧ i.ext.toNat < 2 ^ 20 ∧ i.ext.toNat % 4 = 0 ∧ (∀ q, s.dev.slotReads (.ctx c) i.ext.toNat (wrregVal x i) = some q → s.dev.mayAccess q = true)) ∧
    (∃ (s : State) (c : CtxId) (i : RRX), let x := s.dev.ctx c; s.dev.runs c 2 = true ∧ s.dev.busBlocked .core = true ∧ i.x = true ∧ i.d ≠ i.s ∧ x.regGrant = true ∧ i.ext.toNat < 2 ^ 20 ∧ i.ext.toNat % 4 = 0) :=
  ⟨⟨st (run3 d0 x0), 0, ⟨1, 2, true, 16⟩, by decide +kernel⟩,
   ⟨st (run3 d0 x0), 0, ⟨1, 2, true, 16⟩, by decide +kernel⟩,
   ⟨st { run3 d0 x0 with ctxCmd := [⟨.core, 9, 1, false, some .free⟩, ⟨.core, 9, 1, false, none⟩] }, 0, ⟨1, 2, true, 16⟩, by decide +kernel⟩⟩

theorem test_hypotheses_IllegalInstructions :
    (∃ (s : State) (c : CtxId) (i : RRX), s.dev.runs c 2 = true ∧ i.x = true ∧ i.s ≠ 0) ∧
    (∃ (s : State) (c : CtxId) (i : RRX), s.dev.runs c 2 = true ∧ i.x = true) ∧
    (∃ (s : State) (c : CtxId) (i : RRX), s.dev.runs c 1 = true ∧ i.x = false) ∧
    (∃ (s : State) (c : CtxId) (i : RRX), s.dev.runs c 1 = true ∧ i.x = false ∧ 3 < i.d.toNat) ∧
    (∃ (s : State) (c : CtxId) (i : RRX), s.dev.runs c 1 = true ∧ i.x = false ∧ 3 < i.s.toNat) ∧
    (∃ (s : State) (c : CtxId) (i : RI), s.dev.runs c 1 = true ∧ 3 < i.d.toNat) ∧
    (∃ (s : State) (c : CtxId) (i : RRX), s.dev.runs c 1 = true ∧ i.x = false ∧ (i.d ≠ 0 ∨ i.s ≠ 0)) ∧
    (∃ (s : State) (c : CtxId) (w : BitVec 24) (e : BitVec 24), s.dev.runs c 2 = true ∧ decodeDefined c w e = none) ∧
    (∃ (s : State) (c : CtxId) (i : RRX), s.dev.runs c 2 = true ∧ i.x = true ∧ i.d = 0 ∧ i.s = 0 ∧ i.ext.toNat < 2 ^ 16) :=
  ⟨⟨st (run3 d0 x0), 0, ⟨1, 2, true, 0⟩, by decide +kernel⟩,
   ⟨st (run3 d0 x0), 0, ⟨0, 0, true, 0⟩, by decide +kernel⟩,
   ⟨st (run3 d0 x0), 0, ⟨0, 0, false, 0⟩, by decide +kernel⟩,
   ⟨st (run3 d0 x0), 0, ⟨4, 0, false, 0⟩, by decide +kernel⟩,
   ⟨st (run3 d0 x0), 0, ⟨0, 4, false, 0⟩, by decide +kernel⟩,
   ⟨st (run3 d0 x0), 0, ⟨4, 0⟩, by decide +kernel⟩,
   ⟨st (run3 d0 x0), 0, ⟨1, 0, false, 0⟩, by decide +kernel⟩,
   ⟨st (run3 d0 x0), 0, 0xC00000, 0, by decide +kernel⟩,
   ⟨st (run3 d0 x0), 0, ⟨0, 0, true, 65535⟩, by decide +kernel⟩⟩

theorem test_hypotheses_OperandFaults :
    (∃ (s : State) (c : CtxId) (i : RRX) (width : BitVec 3), let x := s.dev.ctx c; s.dev.runs c (wordsOf i) = true ∧ (width.toNat = 4 ∨ width.toNat = 5) ∧ i.s.toNat < 4 ∧ 2 ^ 33 < effAddr x i + widthBytes width.toNat) ∧
    (∃ (s : State) (c : CtxId) (i : RRX) (width : BitVec 3) (k : Nat), let x := s.dev.ctx c; let n := widthBytes width.toNat; let a := effAddr x i; s.dev.runs c (wordsOf i) = true ∧ s.dev.reachesGran c = true ∧ (width.toNat = 4 ∨ width.toNat = 5) ∧ i.s.toNat < 4 ∧ a + n ≤ 2 ^ 33 ∧ (∀ j < n, s.dev.xipOff x.home.toNat (a + j) = none) ∧ k < halves a n ∧ s.dev.ecc (a / 32 + k) = .uncorr) ∧
    (∃ (s : State) (c : CtxId) (i : RI), s.dev.runs c 1 = true ∧ i.d.toNat < 4 ∧ i.imm.msb = true) ∧
    (∃ (s : State) (c : CtxId) (i : RRX) (tmo : Bool), s.dev.runs c (wordsOf i) = true ∧ (tmo = false → i.d = 0) ∧ (i.x = true → i.s = 0) ∧ selOk (opB (s.dev.ctx c) i).toNat = false) ∧
    (∃ (s : State) (c : CtxId) (i : RRX), s.dev.runs c 2 = true ∧ i.x = true ∧ 24 < ((s.dev.ctx c).rw i.d.toNat).toNat % 32) ∧
    (∃ (s : State) (c : CtxId) (i : RRX), s.dev.runs c 1 = true ∧ i.x = false) ∧
    (∃ (s : State) (c : CtxId) (i : RRX), s.dev.runs c 2 = true ∧ i.x = true ∧ i.d ≠ i.s ∧ (s.dev.ctx c).regGrant = false) ∧
    (∃ (s : State) (c : CtxId) (i : RRX), s.dev.runs c 2 = true ∧ i.x = true ∧ i.d ≠ i.s ∧ (s.dev.ctx c).regGrant = true ∧ (2 ^ 20 ≤ i.ext.toNat ∨ i.ext.toNat % 4 ≠ 0)) :=
  ⟨⟨st (run3 d0 x0), 0, ⟨1, 3, false, 0⟩, 4, by decide +kernel⟩,
   ⟨st (run3 d0 x0), 0, ⟨1, 2, false, 0⟩, 4, 0, by decide +kernel⟩,
   ⟨st (run3 d0 x0), 0, ⟨0, 0x4000⟩, by decide +kernel⟩,
   ⟨st (run3 d0 x0), 0, ⟨0, 2, false, 0⟩, false, by decide +kernel⟩,
   ⟨st (run3 d0 x0), 0, ⟨5, 0, true, 0⟩, by decide +kernel⟩,
   ⟨st (run3 d0 x0), 0, ⟨1, 2, false, 0⟩, by decide +kernel⟩,
   ⟨st (run3 d0 { x0 with regGrant := false }), 0, ⟨1, 2, true, 16⟩, by decide +kernel⟩,
   ⟨st (run3 d0 x0), 0, ⟨1, 2, true, 0x100000⟩, by decide +kernel⟩⟩

theorem test_hypotheses_ChannelInstructions :
    (∃ (s : State) (c : CtxId) (i : RRX) (k : ChanId), s.dev.commands c i k = true ∧ (i.x = true → i.s = 0) ∧ ((fun d k b => (b == 1 || b == 2) && d.chMode k == 0 && d.chRole k == 0 && !d.flagged k)) s.dev k (opB (s.dev.ctx c) i) = true) ∧
    (∃ (s : State) (c : CtxId) (i : RRX) (k : ChanId), s.dev.commands c i k = true ∧ (i.x = true → i.s = 0) ∧ ((fun d k b => (b == 0 || b == 3) && d.chRole k == 0 && d.forcing k && d.chMode k != 0 && (d.chan k).ramp == .none)) s.dev k (opB (s.dev.ctx c) i) = true) ∧
    (∃ (s : State) (c : CtxId) (i : RRX) (k : ChanId), s.dev.commands c i k = true ∧ (i.x = true → i.s = 0) ∧ ((fun d k b => decide (b.toNat < 5) && d.chRole k == 0 && d.chMode k != 2)) s.dev k (opB (s.dev.ctx c) i) = true) ∧
    (∃ (s : State) (c : CtxId) (i : RRX) (k : ChanId), s.dev.commands c i k = true ∧ (i.x = true → i.s = 0) ∧ ((fun d k _ => d.chRole k == 0 && !d.wfmActive k && !(d.forcing k && d.flagged k))) s.dev k (opB (s.dev.ctx c) i) = true) ∧
    (∃ (s : State) (c : CtxId) (i : RRX) (k : ChanId), s.dev.commands c i k = true ∧ (i.x = true → i.s = 0) ∧ ((fun d k b => d.chRole k == 0 && decide (b.toInt ≤ 32767) && decide ((BitVec.ofNat 16 (d.rd (Reg.CHAN.VCLAMP.lo k))).toInt ≤ b.toInt))) s.dev k (opB (s.dev.ctx c) i) = true) ∧
    (∃ (s : State) (c : CtxId) (i : RRX) (k : ChanId), s.dev.commands c i k = true ∧ (i.x = true → i.s = 0) ∧ ((fun d k b => d.chRole k == 0 && decide (-32768 ≤ b.toInt) && decide (b.toInt ≤ (BitVec.ofNat 16 (d.rd (Reg.CHAN.ICLAMP.hi k))).toInt))) s.dev k (opB (s.dev.ctx c) i) = true) ∧
    (∃ (j : BitVec 3) (s : State) (c : CtxId) (i : RRX) (k : ChanId), j.toNat < 5 ∧ s.dev.commands c i k = true ∧ (i.x = true → i.s = 0) ∧ ((fun d k b => d.chRole k == 0 && decide (-32768 ≤ b.toInt) && decide (b.toInt ≤ 32767))) s.dev k (opB (s.dev.ctx c) i) = true) ∧
    (∃ (s : State) (c : CtxId) (i : RRX) (k : ChanId), s.dev.commands c i k = true ∧ (i.x = true → i.s = 0) ∧ ((fun d k b => decide (b.toNat < 2) && d.chRole k == 0 && !d.forcing k && !(b == 1 && d.flagged k))) s.dev k (opB (s.dev.ctx c) i) = true) ∧
    (∃ (s : State) (c : CtxId) (i : RRX) (k : ChanId), s.dev.commands c i k = true ∧ measCount i ≠ 0 ∧ s.dev.chMode (s.dev.lead k) ≠ 0 ∧ s.dev.capHolds k = false ∧ s.dev.swapWaits (s.dev.ctx c).home.toNat = false) :=
  ⟨⟨st (wf (run3 d0 { x0 with w := (2, 1) :: x0.w }) []), 0, ⟨6, 2, false, 0⟩, 96, by decide +kernel⟩,
   ⟨st (wf (run3 d0 { x0 with w := (2, 0) :: x0.w }) [(Reg.CHAN.CTRL.mode 96, 1), (Reg.CHAN.CTRL.conn 96, 1)]), 0, ⟨6, 2, false, 0⟩, 96, by decide +kernel⟩,
   ⟨st (wf (run3 d0 { x0 with w := (2, 4) :: x0.w }) []), 0, ⟨6, 2, false, 0⟩, 96, by decide +kernel⟩,
   ⟨st (wf (run3 d0 { x0 with w := (2, 0x7FFFFF) :: x0.w }) []), 0, ⟨6, 2, false, 0⟩, 96, by decide +kernel⟩,
   ⟨st (wf (run3 d0 { x0 with w := (2, 32767) :: x0.w }) []), 0, ⟨6, 2, false, 0⟩, 96, by decide +kernel⟩,
   ⟨st (wf (run3 d0 { x0 with w := (2, 0xFF8000) :: x0.w }) []), 0, ⟨6, 2, false, 0⟩, 96, by decide +kernel⟩,
   ⟨0, st (wf (run3 d0 { x0 with w := (2, 32767) :: x0.w }) []), 0, ⟨6, 2, false, 0⟩, 96, by decide +kernel⟩,
   ⟨st (wf (run3 d0 { x0 with w := (2, 1) :: x0.w }) []), 0, ⟨6, 2, false, 0⟩, 96, by decide +kernel⟩,
   ⟨st (wf (run3 d0 { x0 with w := (2, 1) :: x0.w }) [(Reg.CHAN.CTRL.mode 96, 1), (Reg.CHAN.CTRL.conn 96, 1)]), 0, ⟨6, 2, false, 0⟩, 96, by decide +kernel⟩⟩

theorem test_hypotheses_PatternInstructions :
    (∃ (s : State) (c : CtxId) (i : RRX) (n : LoomId), s.dev.starts c i n = true ∧ s.dev.patRunning n = false ∧ (s.dev.pat n).startQ = [] ∧ (s.dev.box n).moving = none) ∧
    (∃ (s : State) (c : CtxId) (i : RRX) (n : LoomId), s.dev.starts c i n = true ∧ s.dev.patRunning n = true) ∧
    (∃ (s : State) (c : CtxId) (i : RRX) (n : LoomId) (b : Burst), s.dev.starts c i n = true ∧ (s.dev.pat n).burst = some b ∧ b.ctx = c.val ∧ b.stopReq = none ∧ b.ended = none) ∧
    (∃ (s : State) (c : CtxId) (i : RRX) (n : LoomId) (b : Burst), let x := s.dev.ctx c; s.dev.runs c (wordsOf i) = true ∧ patLoom x i = n.val ∧ s.dev.reaches c n = true ∧ s.dev.unit (kPattern n) = .on ∧ i.s = 0 ∧ (i.x = true → i.ext = 0) ∧ (s.dev.pat n).burst = some b ∧ b.ended = none ∧ b.started = true ∧ b.stopReq = none) ∧
    (∃ (s : State) (n : LoomId) (c : CtxId) (rest : List Nat) (g : Nat) (blk : Bool), (s.dev.pat n).startQ = c.val :: rest ∧ (s.dev.ctx c).wait = .startBurst n g blk false ∧ (s.dev.ctx c).state = .waiting ∧ (s.dev.ctx c).rel = .none ∧ s.dev.patRunning n = false ∧ (s.dev.box n).moving = none ∧ s.dev.reaches c n = true ∧ s.dev.unit (kPattern n) = .on ∧ s.dev.segGood g = true ∧ s.dev.reachesGran c = true) :=
  ⟨⟨st ((id) { run3 d0 x0 with gran := { (run3 d0 x0).gran with cells := seg6 ++ (run3 d0 x0).gran.cells } }), 0, ⟨7, 8, false, 0⟩, 3, by decide +kernel⟩,
   ⟨st (((fun d => d.setPat 3 { burst := some { serial := 1, ctx := 0, site := 5, blocking := false, mloop := false, strict := false } })) { run3 d0 x0 with gran := { (run3 d0 x0).gran with cells := seg6 ++ (run3 d0 x0).gran.cells } }), 0, ⟨7, 8, false, 0⟩, 3, by decide +kernel⟩,
   ⟨st (((fun d => d.setPat 3 { burst := some { serial := 1, ctx := 0, site := 5, blocking := false, mloop := false, strict := false, started := true } })) { run3 d0 x0 with gran := { (run3 d0 x0).gran with cells := seg6 ++ (run3 d0 x0).gran.cells } }), 0, ⟨7, 8, false, 0⟩, 3, { serial := 1, ctx := 0, site := 5, blocking := false, mloop := false, strict := false, started := true }, by decide +kernel⟩,
   ⟨st (((fun d => d.setPat 3 { burst := some { serial := 1, ctx := 0, site := 5, blocking := false, mloop := false, strict := false, started := true } })) { run3 d0 x0 with gran := { (run3 d0 x0).gran with cells := seg6 ++ (run3 d0 x0).gran.cells } }), 0, ⟨7, 0, false, 0⟩, 3, { serial := 1, ctx := 0, site := 5, blocking := false, mloop := false, strict := false, started := true }, by decide +kernel⟩,
   ⟨st ((fun d => d.setPat 3 { startQ := [0, 4] }) { run3 d0 { x0 with state := .waiting, wait := .startBurst 3 6 true false } with gran := { (run3 d0 x0).gran with cells := seg6 ++ (run3 d0 x0).gran.cells } }), 3, 0, [4], 6, true, by decide +kernel⟩⟩

theorem test_hypotheses_UnitInstructions :
    (∃ (s : State) (c : CtxId) (i : RRX) (n : LoomId), let x := s.dev.ctx c; let a := (x.ra i.s.toNat).toNat; s.dev.runs c 2 = true ∧ s.dev.reachesGran c = true ∧ i.x = true ∧ i.s.toNat < 4 ∧ loomOf x (i.ext.toNat % 32) = n.val ∧ s.dev.reaches c n = true ∧ s.dev.unit (kCapture n) = .on ∧ s.dev.capBusy n = false ∧ a + 48 ≤ 2 ^ 33 ∧ s.dev.clean a 48 = true) ∧
    (∃ (s : State) (c : CtxId) (i : RRX) (n : LoomId), let x := s.dev.ctx c; s.dev.runs c (wordsOf i) = true ∧ i.d = 0 ∧ (i.x = true → i.s = 0) ∧ loomOf x ((opB x i).toNat % 32) = n.val ∧ s.dev.reaches c n = true ∧ s.dev.unit (kCapture n) = .on ∧ (s.dev.capState n = 2 ∨ s.dev.capState n = 3)) ∧
    (∃ (s : State) (c : CtxId) (i : RRX) (n : LoomId), let x := s.dev.ctx c; s.dev.runs c (wordsOf i) = true ∧ i.d = 0 ∧ (i.x = true → i.s = 0) ∧ loomOf x ((opB x i).toNat % 32) = n.val ∧ s.dev.reaches c n = true ∧ s.dev.unit (kCapture n) = .on ∧ s.dev.capState n = 2 ∧ (s.dev.cap n).closing = none ∧ (s.dev.cap n).endAt ≠ some s.dev.nowTaps ∧ atOrAfter s.dev.nowTaps (s.dev.cap n).from_ = true) ∧
    (∃ (s : State) (c : CtxId) (i : RRX) (n : LoomId), let x := s.dev.ctx c; s.dev.runs c 2 = true ∧ s.dev.swapWaits x.home.toNat = false ∧ i.x = true ∧ i.d = 0 ∧ i.s.toNat < 4 ∧ loomOf x (i.ext.toNat % 32) = n.val ∧ s.dev.reaches c n = true ∧ s.dev.unit (kMill n) = .on ∧ s.dev.millBusy n = false ∧ (x.ra i.s.toNat).toNat + 32 ≤ 2 ^ 33) ∧
    (∃ (s : State) (c : CtxId) (i : RRX) (n : LoomId), let x := s.dev.ctx c; s.dev.runs c (wordsOf i) = true ∧ (i.x = true → i.s = 0) ∧ loomOf x ((x.rw i.d.toNat).toNat % 32) = n.val ∧ s.dev.reaches c n = true ∧ s.dev.unit (kMill n) = .on ∧ s.dev.millBusy n = false) ∧
    (∃ (s : State) (c : CtxId) (i : RRX) (n : LoomId), let x := s.dev.ctx c; s.dev.runs c (wordsOf i) = true ∧ (i.x = true → i.s = 0) ∧ loomOf x ((opB x i).toNat % 32) = n.val ∧ s.dev.reaches c n = true ∧ s.dev.unit (kMill n) = .on ∧ (s.dev.mill n).state = mIdle) ∧
    (∃ (s : State) (c : CtxId) (i : RRX) (n : LoomId), let x := s.dev.ctx c; s.dev.runs c (wordsOf i) = true ∧ (i.x = true → i.s = 0) ∧ loomOf x ((opB x i).toNat % 32) = n.val ∧ s.dev.reaches c n = true ∧ s.dev.unit (kMill n) = .on ∧ (s.dev.mill n).state ≠ mIdle ∧ s.dev.swapWaits x.home.toNat = false) ∧
    (∃ (s : State) (c : CtxId) (i : RRX) (lane : Bool), let x := s.dev.ctx c; s.dev.runs c (wordsOf i) = true ∧ i.d = 0 ∧ (i.x = true → i.s = 0) ∧ (opB x i).toNat < 256 ∧ s.dev.rd Reg.REED_STATE.state = 3 ∧ s.dev.rd Reg.REED_CTRL.role = 1 ∧ (if lane then s.dev.reed.lane1 else s.dev.reed.lane0).length < 64) ∧
    (∃ (s : State) (c : CtxId) (i : RRX), let x := s.dev.ctx c; s.dev.runs c (wordsOf i) = true ∧ i.d = 0 ∧ (i.x = true → i.s = 0) ∧ (opB x i).toNat < 256 ∧ (s.dev.rd Reg.REED_STATE.state = 0 ∨ s.dev.rd Reg.REED_STATE.state = 4)) ∧
    (∃ (s : State) (c : CtxId) (i : RRX), s.dev.runs c 2 = true ∧ i.x = true) :=
  ⟨⟨st (run3 d0 x0), 0, ⟨0, 0, true, 3⟩, 3, by decide +kernel⟩,
   ⟨st (((fun d => wf d [(Reg.LOOM.CAP_STATUS.state 3, 2)])) (run3 d0 x0)), 0, ⟨0, 7, false, 0⟩, 3, by decide +kernel⟩,
   ⟨st (((fun d => wf d [(Reg.LOOM.CAP_STATUS.state 3, 2)])) (run3 d0 x0)), 0, ⟨0, 7, false, 0⟩, 3, by decide +kernel⟩,
   ⟨st (run3 d0 x0), 0, ⟨0, 0, true, 3⟩, 3, by decide +kernel⟩,
   ⟨st (run3 d0 x0), 0, ⟨7, 1, false, 0⟩, 3, by decide +kernel⟩,
   ⟨st (run3 d0 x0), 0, ⟨1, 7, false, 0⟩, 3, by decide +kernel⟩,
   ⟨st ((fun d => d.setMill 3 { state := 2 }) (run3 d0 x0)), 0, ⟨1, 7, false, 0⟩, 3, by decide +kernel⟩,
   ⟨st (((fun d => wf d [(Reg.REED_STATE.state, 3), (Reg.REED_CTRL.role, 1)])) (run3 d0 x0)), 0, ⟨0, 1, false, 0⟩, false, by decide +kernel⟩,
   ⟨st (((fun d => wf d [(Reg.REED_STATE.state, 0), (Reg.REED_CTRL.role, 1)])) (run3 d0 x0)), 0, ⟨0, 1, false, 0⟩, by decide +kernel⟩,
   ⟨st (run3 d0 x0), 0, ⟨1, 2, true, 0xFF01⟩, by decide +kernel⟩⟩

theorem test_hypotheses_ReedCommands :
    (∃ (s : State) (m : Master), s.dev.on Reg.REED_CTRL.en = false ∧ s.dev.owns m 8 = true ∧ 16 * s.dev.rd Reg.REED_CTRL.branch + s.dev.rd Reg.REED_CTRL.position < 2 ^ s.dev.rd Reg.REED_LAT.upslots_log2) ∧
    (∃ (s : State), s.dev.on Reg.REED_CTRL.en = true ∧ s.dev.reed.sendWait = []) ∧
    (∃ (s : State) (m : Master), s.dev.owns m 8 = true ∧ s.dev.rd Reg.REED_CTRL.role = 2 ∧ s.dev.rd Reg.REED_STATE.state = 5) ∧
    (∃ (s : State) (m : Master), s.dev.owns m 8 = true ∧ s.dev.rd Reg.REED_CTRL.role = 1 ∧ s.dev.rd Reg.REED_STATE.state = 3) ∧
    (∃ (s : State) (m : Master), s.dev.owns m 8 = true ∧ (s.dev.rd Reg.REED_CTRL.role ≠ 2 ∨ s.dev.reed.hasDelay = false)) ∧
    (∃ (s : State), (s.dev.rd Reg.REED_STATE.state = 1 ∨ s.dev.rd Reg.REED_STATE.state = 4)) ∧
    (∃ (s : State), (s.dev.rd Reg.REED_STATE.state = 2 ∨ s.dev.rd Reg.REED_STATE.state = 3 ∨ s.dev.rd Reg.REED_STATE.state = 5) ∧ s.dev.reed.sendWait = []) ∧
    (∃ (s : State), s.dev.reed.hasDelay = true ∧ s.dev.reed.tOffset = 0 ∧ s.dev.delay < s.dev.reed.dTarget ∧ s.dev.delay < 2 ^ 31 - 1 ∧ 0 ≤ s.dev.reed.tapsOff ∧ s.dev.reed.tapsOff < 10239) :=
  ⟨⟨st (wf d0 [(Reg.REED_CTRL.position, 1), (Reg.REED_LAT.upslots_log2, 1), (Reg.REED_CTRL.role, 2)]), .core, by decide +kernel⟩,
   ⟨st ((id) (rd d0 3 1 {})), by decide +kernel⟩,
   ⟨st ((id) (rd d0 5 2 {})), .core, by decide +kernel⟩,
   ⟨st ((id) (rd d0 3 1 {})), .core, by decide +kernel⟩,
   ⟨st ((id) (rd d0 3 1 {})), .core, by decide +kernel⟩,
   ⟨st ((id) (rd d0 1 2 {})), by decide +kernel⟩,
   ⟨st ((id) (rd d0 2 2 {})), by decide +kernel⟩,
   ⟨st ((id) (rd d0 3 2 { hasDelay := true, dTarget := 1 })), by decide +kernel⟩⟩

theorem test_hypotheses_ReedFrames :
    (∃ (s : State) (f : BitVec 64), let at_ := (fullTime s.dev.now (f.toNat / 2 ^ 8 % 2 ^ 32) + s.dev.rd Reg.REED_LAT.ticks) % 2 ^ 48; s.dev.listens = true ∧ frameOk 1 f = true ∧ (reached s.dev.now at_ = false ∨ s.dev.now = at_)) ∧
    (∃ (s : State) (f : BitVec 64), s.dev.listens = true ∧ frameOk 2 f = true ∧ s.dev.rd Reg.REED_STATE.state = 5 ∧ s.dev.reed.resync = true ∧ s.dev.delay = 0) ∧
    (∃ (s : State) (f : BitVec 64), s.dev.listens = true ∧ frameOk 3 f = true ∧ s.dev.rd Reg.REED_STATE.state = 3 ∧ f.toNat / 2 ^ 40 % 256 ≠ 0 ∧ f.toNat / 2 ^ 48 % 256 = s.dev.reedSlot) ∧
    (∃ (s : State) (f : BitVec 64), s.dev.listens = true ∧ frameOk 4 f = true ∧ s.dev.rd Reg.REED_STATE.state = 2 ∧ f.toNat / 2 ^ 48 % 256 = s.dev.reedSlot) ∧
    (∃ (s : State) (f : BitVec 64), s.dev.rd Reg.REED_CTRL.role = 1 ∧ s.dev.rd Reg.REED_STATE.state = 3 ∧ frameOk 8 f = true ∧ (s.dev.reed.lane (f.toNat / 2 ^ 40 % 2 == 1)).length < 64) ∧
    (∃ (s : State) (f : BitVec 64), s.dev.rd Reg.REED_CTRL.role = 1 ∧ s.dev.rd Reg.REED_STATE.state = 3 ∧ frameOk 8 f = true ∧ 64 ≤ (s.dev.reed.lane (f.toNat / 2 ^ 40 % 2 == 1)).length) ∧
    (∃ (s : State) (f : BitVec 64) (rtt : BitVec 32) (r : EchoRound), s.dev.rd Reg.REED_CTRL.role = 1 ∧ s.dev.rd Reg.REED_STATE.state = 3 ∧ frameOk 9 f = true ∧ s.dev.reed.round = some r ∧ f.toNat / 2 ^ 48 % 256 ∈ r.out ∧ rtt.toNat ≤ s.dev.replyLimit r ∧ s.dev.reed.lane1.length < 64) ∧
    (∃ (s : State) (f : BitVec 64) (lane : Fin 3), s.dev.listens = true ∧ lane.val < 2 ∧ frameBroken f = true) :=
  ⟨⟨st ((id) (rd d0 3 2 { time := 0x1000 })), mkFrame 1 7 0 4096, by decide +kernel⟩,
   ⟨st ((id) (rd d0 5 2 { time := 0x200000, resync := true })), mkFrame 2 0 0 2097092, by decide +kernel⟩,
   ⟨st ((id) (rd d0 3 2 {})), mkFrame 3 1 1 0, by decide +kernel⟩,
   ⟨st ((id) (rd d0 2 2 {})), mkFrame 4 1 0 4294967040, by decide +kernel⟩,
   ⟨st ((id) (rd d0 3 1 {})), mkFrame 8 5 2 77, by decide +kernel⟩,
   ⟨st ((id) (rd d0 3 1 { lane0 := List.replicate 64 ⟨1, 0, 0, 0⟩ })), mkFrame 8 5 2 77, by decide +kernel⟩,
   ⟨st ((id) (rd d0 3 1 { round := some ⟨true, 3, 0, [1, 2]⟩ })), mkFrame 9 2 0 0, 1000, ⟨true, 3, 0, [1, 2]⟩, by decide +kernel⟩,
   ⟨st ((id) (rd d0 3 2 {})), mkFrame 1 7 0 1 ^^^ 1, 0, by decide +kernel⟩⟩

theorem test_hypotheses_ReedByTheClock :
    (∃ (s : State) (lane : Bool) (f : LaneFrame) (rest : List LaneFrame), s.dev.rd Reg.REED_CTRL.role = 1 ∧ s.dev.rd Reg.REED_STATE.state = 3 ∧ (if lane then s.dev.reed.lane1 else s.dev.reed.lane0) = f :: rest ∧ f.kind = 1 ∧ s.dev.reed.sendWait = [] ∧ s.dev.rd Reg.REED_LAT.ticks < 2 ^ 47) ∧
    (∃ (s : State), s.dev.rd Reg.REED_CTRL.role = 1 ∧ s.dev.rd Reg.REED_STATE.state = 3 ∧ s.dev.now % 65536 = 0 ∧ s.dev.reed.syncAt ≠ some s.dev.reed.time) ∧
    (∃ (s : State) (r : EchoRound), s.dev.rd Reg.REED_CTRL.role = 1 ∧ s.dev.rd Reg.REED_STATE.state = 3 ∧ s.dev.reed.round = some r ∧ r.next < 2 ^ s.dev.rd Reg.REED_LAT.upslots_log2 ∧ s.dev.reed.lane1.length < 64) ∧
    (∃ (s : State), s.dev.rd Reg.REED_CTRL.role = 1 ∧ s.dev.rd Reg.REED_STATE.state = 3 ∧ s.dev.rd Reg.REED_ECHO_PERIOD.ms ≠ 0 ∧ s.dev.reed.round = none) ∧
    (∃ (s : State) (x : BitVec 8 × Bool × BitVec 48) (rest : List (BitVec 8 × Bool × BitVec 48)), s.dev.rd Reg.REED_CTRL.role = 2 ∧ s.dev.rd Reg.REED_STATE.state = 3 ∧ s.dev.reed.pollWait = false ∧ s.dev.reed.holding = false ∧ s.dev.reed.upq = x :: rest ∧ s.dev.reed.sendWait = [] ∧ s.dev.comes s.dev.nextLaunch = true) ∧
    (∃ (s : State) (a : ReedAct) (c : CtxId) (code : BitVec 8) (mask : BitVec 8) (d : BitVec 4) (w : BitVec 4) (tmo : Bool), s.dev.reed.acts = [a] ∧ s.dev.comesTo a.act = true ∧ (s.dev.ctx c).state = .waiting ∧ (s.dev.ctx c).rel = .none ∧ (s.dev.ctx c).wait = .recv code mask d w tmo ∧ a.code &&& mask = code &&& mask) ∧
    (∃ (s : State) (m : Master), s.dev.owns m calBlock = true) ∧
    (∃ (s : State) (t : Nat), s.dev.comesTo (BitVec.ofNat 48 (t / 10240)) = true) :=
  ⟨⟨st ((id) (rd d0 3 1 { time := 0x1000, lane0 := [⟨1, 7, 0, 0x1000⟩] })), false, ⟨1, 7, 0, 0x1000⟩, [], by decide +kernel⟩,
   ⟨st ((id) (rd d0 3 1 {})), by decide +kernel⟩,
   ⟨st ((id) (rd d0 3 1 { round := some ⟨true, 0, 0, []⟩ })), ⟨true, 0, 0, []⟩, by decide +kernel⟩,
   ⟨st ((id) (rd d0 3 1 {})), by decide +kernel⟩,
   ⟨st ((id) (rd d0 3 2 { time := 9, upq := [(7, true, 5)], counting := true })), (7, true, 5), [], by decide +kernel⟩,
   ⟨stc (rd ((run3 d0 { x0 with state := .waiting, wait := .recv 7 0xFF 1 2 false })) 3 2 { acts := [⟨50, true, 7, 40⟩] }), ⟨50, true, 7, 40⟩, 0, 7, 0xFF, 1, 2, false, by decide +kernel⟩,
   ⟨st d0, .core, by decide +kernel⟩,
   ⟨stc d0, 5, by decide +kernel⟩⟩

theorem test_hypotheses_CaptureUnit :
    (∃ (s : State) (m : Master) (n : LoomId) (v : BitVec 32), let a := 16 * (v.toNat % 2 ^ 29); s.dev.busBlocked m = false ∧ s.dev.owns m (16 + n) = true ∧ s.dev.unit (kCapture n) = .on ∧ s.dev.capBusy n = false ∧ s.dev.mayAccess (capPart n) = true ∧ s.dev.clean a 48 = true ∧ s.dev.capJudge n (leVal (s.dev.bytesAt a 48)) none = 0) ∧
    (∃ (s : State) (n : LoomId), s.dev.capState n = 1 ∧ (s.dev.cap n).held = none) ∧
    (∃ (s : State) (m : Master) (n : LoomId), s.dev.owns m (16 + n) = true ∧ s.dev.capState n = 2 ∧ (s.dev.cap n).closing = none ∧ (s.dev.cap n).endAt ≠ some s.dev.nowTaps ∧ atOrAfter s.dev.nowTaps (s.dev.cap n).from_ = true) ∧
    (∃ (s : State) (n : LoomId) (code : BitVec 8) (place : Nat), s.dev.capState n = 2 ∧ (s.dev.cap n).closing = none ∧ (s.dev.cap n).endAt ≠ some s.dev.nowTaps ∧ (s.dev.cap n).desc.trig.toNat % 16 = 5 ∧ (code.toNat ^^^ (s.dev.cap n).desc.trig.toNat / 2 ^ 8 % 256) &&& ((s.dev.cap n).desc.trig.toNat / 2 ^ 8 % 2 ^ 16 / 256) = 0 ∧ (s.dev.cap n).desc.occ ≤ (s.dev.cap n).seen + 1 ∧ (s.dev.cap n).pend = [(.reed code, place)] ∧ atOrAfter place (s.dev.cap n).from_ = true) ∧
    (∃ (s : State) (n : LoomId) (code : BitVec 24), let x := s.dev.cap n; let k := 32 * n + x.desc.laneChan 0; let u := 25 * x.desc.div * x.nextK; x.desc.cls = 0 ∧ s.dev.capState n = 2 ∧ x.closing = none ∧ x.desc.lanes = 1 ∧ x.desc.reduce = false ∧ x.hold = [] ∧ u < 2 ^ 51 ∧ s.dev.comes (u / 8) = true ∧ atOrAfter (1280 * u) x.from_ = true ∧ s.dev.chRole k = 0 ∧ s.dev.chMode k ≠ 0 ∧ (s.dev.chan k).tripRamp = false ∧ (s.dev.chan k).meas = none ∧ s.dev.codesOk n x.desc [code] = true) ∧
    (∃ (s : State) (n : LoomId) (f : Frame) (rest : List Frame), let x := s.dev.cap n; let i := x.written % max x.desc.capacity 1; let a := 64 * (x.desc.ring + s.dev.rd (Reg.LOOM.CAP_INDEX.capture n) * x.desc.ringLines) + x.desc.frameBytes * i; x.hold = f :: rest ∧ f.gone = false ∧ x.trig = none ∧ x.trigFrame = none ∧ f.bytes.length = x.desc.frameBytes ∧ a + x.desc.frameBytes ≤ 2 ^ 33 ∧ s.dev.comes ((f.t + 262144) % tapSpan / 10240) = true ∧ x.undecided f.t = false ∧ s.dev.clean a x.desc.frameBytes = true ∧ s.dev.offTable a x.desc.frameBytes = true) ∧
    (∃ (s : State) (n : LoomId) (f : Frame), (s.dev.cap n).hold.head? = some f ∧ (s.dev.cap n).undecided f.t = true) ∧
    (∃ (s : State) (n : LoomId), (s.dev.capState n = 2 ∨ s.dev.capState n = 3)) ∧
    (∃ (s : State) (n : LoomId), let x := s.dev.cap n; x.closing = some 0 ∧ x.hold = [] ∧ x.redN = 0 ∧ x.held = none ∧ s.dev.capState n = 3 ∧ x.quit = false ∧ s.dev.noAccess (capPart n) = true ∧ s.dev.mayAccess (capPart n) = true) ∧
    (∃ (s : State) (n : LoomId), let x := s.dev.cap n; s.dev.capState n = 4 ∧ x.closing = none ∧ x.held = none) :=
  ⟨⟨st { ((wf d0 [(Reg.GLB_STATUS.gran_ready, 1)]).setUnit (kCapture 2) .on) with gran := { d0.gran with cells := cap45 } }, .core, 2, 0x400, by decide +kernel⟩,
   ⟨st (cp d0 1 { desc := ce }), 2, by decide +kernel⟩,
   ⟨st (cp d0 2 { desc := ce }), .core, 2, by decide +kernel⟩,
   ⟨st (cp d0 2 { desc := ce, pend := [(.reed 0x12, 1000)] }), 2, 0x12, 1000, by decide +kernel⟩,
   ⟨stc (wf (cp d0 2 { desc := ce }) [(Reg.CHAN.CTRL.mode 67, 3), (Reg.CHAN.CTRL.conn 67, 1)]), 2, 0x7FFFFF, by decide +kernel⟩,
   ⟨stc (cp d0 2 { desc := ce, hold := [⟨0, [1, 2, 3], 0, false⟩] }), 2, ⟨0, [1, 2, 3], 0, false⟩, [], by decide +kernel⟩,
   ⟨st (cp d0 2 { desc := ce, hold := [⟨100, [1, 2, 3], 0, false⟩], pend := [(.mill, 50)] }), 2, ⟨100, [1, 2, 3], 0, false⟩, by decide +kernel⟩,
   ⟨st (cp d0 2 { desc := ce }), 2, by decide +kernel⟩,
   ⟨st (cp d0 3 { desc := ce, closing := some 0 }), 2, by decide +kernel⟩,
   ⟨st (cp d0 4 { desc := ce }), 2, by decide +kernel⟩⟩

theorem test_hypotheses_MillControl :
    (∃ (s : State) (m : Master) (n : LoomId), s.dev.owns m (16 + n) = true ∧ (s.dev.mill n).state = 0 ∧ s.dev.unit (kMill n) = .on) ∧
    (∃ (s : State) (m : Master) (n : LoomId), s.dev.owns m (16 + n) = false) ∧
    (∃ (s : State) (n : LoomId), (s.dev.mill n).state = 2 ∧ (s.dev.mill n).ended = false) ∧
    (∃ (s : State) (n : LoomId), (s.dev.mill n).ended = true ∧ (s.dev.mill n).posted = 0 ∧ (s.dev.mill n).cause = 0) ∧
    (∃ (s : State) (n : LoomId) (c : CtxId) (rest : List Nat) (entry : BitVec 11), (s.dev.mill n).queue = c.val :: rest ∧ (s.dev.mill n).state = 0 ∧ s.dev.unit (kMill n) = .on ∧ (s.dev.ctx c).wait = .mstart n entry ∧ (s.dev.ctx c).state = .waiting ∧ (s.dev.ctx c).rel = .none) ∧
    (∃ (s : State) (n : LoomId) (a : Nat) (c : CtxId) (h : MHead) (r : ImageRead), r.gran = .good ∧ s.dev.mayAccess (millPart n) = true ∧ (s.dev.mill n).load = some (a, c.val) ∧ (s.dev.ctx c).state = .waiting ∧ (s.dev.ctx c).wait = .mloading n ∧ (s.dev.ctx c).rel = .none ∧ a % 32 = 0 ∧ s.dev.clean a 32 = true ∧ millHead (leVal (s.dev.bytesAt a 32)) = some h ∧ a + 32 + 3 * (h.nOp + h.nD) ≤ 2 ^ 33 ∧ s.dev.clean (a + 32) (3 * (h.nOp + h.nD)) = true) ∧
    (∃ (s : State) (n : LoomId) (src : Fin 34) (code : BitVec 24), let x := s.dev.mill n; x.state = 2 ∧ x.wait = .none ∧ x.ended = false ∧ bit x.mask.toNat src = true ∧ x.feed = [(src.val, code)]) ∧
    (∃ (s : State) (n : LoomId) (s33 : Bool), let x := s.dev.mill n; let src := if s33 then 33 else 32; (s.dev.spareServes n s33 = false ∨ s.dev.spareMoves n src = true) ∧ x.state = 2 ∧ x.ended = false ∧ bit x.mask.toNat src = true) ∧
    (∃ (s : State) (m : Master) (n : LoomId), s.dev.rd (Reg.GLB_MILL_SEL.loom (masterCode m)) = n.val ∧ s.dev.rd (Reg.GLB_MILL_SEL.page (masterCode m)) < 4 ∧ s.dev.owns m (16 + n) = true) :=
  ⟨⟨st (mi d0 {}), .core, 2, by decide +kernel⟩,
   ⟨st (mi d0 {}), .host, 2, by decide +kernel⟩,
   ⟨st (mi d0 mr), 2, by decide +kernel⟩,
   ⟨st (mi d0 { mr with ended := true }), 2, by decide +kernel⟩,
   ⟨st ((mi d0 { queue := [0, 3] }).setCtx 0 { x0 with state := .waiting, wait := .mstart 2 0x7FF }), 2, 0, [3], 0x7FF, by decide +kernel⟩,
   ⟨st { ((mi d0 { load := some (0x4000, 0), state := 1 }).setCtx 0 { x0 with state := .waiting, wait := .mloading 2 }) with gran := { d0.gran with cells := img40 } }, 2, 0x4000, 0, { nOp := 2, nD := 1, d0 := 5, mask := 1, inBase := 100, lg := 4, hist := 2 }, { pm := [7] }, by decide +kernel⟩,
   ⟨st (mi d0 { mr with feed := [(0, 0x800000)] }), 2, 0, 0x800000, by decide +kernel⟩,
   ⟨st (wf (mi d0 { mr with mask := 0x300000000 }) [(Reg.CAL_STATUS.state, 1), (Reg.CAL_STATUS.loom, 2)]), 2, false, by decide +kernel⟩,
   ⟨st (wf d0 [(Reg.GLB_MILL_SEL.loom 1, 2), (Reg.GLB_MILL_SEL.page 1, 3)]), .core, 2, by decide +kernel⟩⟩

theorem test_hypotheses_MillAccumulator :
    (∃ (s : State) (n : LoomId) (w : BitVec 19), s.dev.millRuns n = true ∧ ((fun x w => opBits w 15 2 != 3 && opBits w 14 1 == 0 && opBits w 13 1 == 0 && opBits w 9 2 != 3 && opBits w 0 9 == 0 && x.good (x.agAddr (opBits w 17 2) 0) && x.good (x.agAddr (opBits w 11 2) 0))) (s.dev.mill n) w = true) ∧
    (∃ (s : State) (n : LoomId) (w : BitVec 19), s.dev.millRuns n = true ∧ ((fun _ w => w == 0)) (s.dev.mill n) w = true) ∧
    (∃ (s : State) (n : LoomId) (w : BitVec 19), s.dev.millRuns n = true ∧ ((fun _ w => opBits w 0 11 == 0)) (s.dev.mill n) w = true) ∧
    (∃ (s : State) (n : LoomId) (w : BitVec 19), s.dev.millRuns n = true ∧ ((fun x w => opBits w 15 2 != 3 && opBits w 0 15 == 0 && (List.range 3).all fun k => x.good (x.agAddr (opBits w 17 2) k))) (s.dev.mill n) w = true) ∧
    (∃ (s : State) (n : LoomId) (w : BitVec 19), s.dev.millRuns n = true ∧ ((fun x w => opBits w 15 2 != 3 && opBits w 0 15 == 0 && decide (-(2 ^ 55) ≤ x.a) && decide (x.a < 2 ^ 55))) (s.dev.mill n) w = true) :=
  ⟨⟨st (mi d0 mr), 2, 131072 + 32768 + 512, by decide +kernel⟩,
   ⟨st (mi d0 mr), 2, 0, by decide +kernel⟩,
   ⟨st (mi d0 mr), 2, 65536, by decide +kernel⟩,
   ⟨st (mi d0 mr), 2, 0, by decide +kernel⟩,
   ⟨st (mi d0 mr), 2, 0, by decide +kernel⟩⟩

theorem test_hypotheses_MillValues :
    (∃ (s : State) (n : LoomId) (w : BitVec 19), s.dev.millRuns n = true ∧ ((fun _ w => opBits w 11 2 == 0 && opBits w 6 2 == 0 && opBits w 0 5 == 0)) (s.dev.mill n) w = true) ∧
    (∃ (s : State) (n : LoomId) (w : BitVec 19), s.dev.millRuns n = true ∧ ((fun _ w => opBits w 11 2 == 1 && opBits w 10 1 == 0 && opBits w 6 2 != 3 && opBits w 0 5 == 0)) (s.dev.mill n) w = true) ∧
    (∃ (s : State) (n : LoomId) (w : BitVec 19), s.dev.millRuns n = true ∧ opBits w 11 2 = 2 ∧ opBits w 6 5 = 0 ∧ opBits w 0 5 = 0 ∧ s.dev.capBusy n = false) ∧
    (∃ (s : State) (n : LoomId) (w : BitVec 19), s.dev.millRuns n = true ∧ ((fun x w => opBits w 12 2 != 3 && opBits w 0 12 == 0 && x.good (x.agAddr (opBits w 14 2) 0))) (s.dev.mill n) w = true) ∧
    (∃ (s : State) (n : LoomId) (w : BitVec 19), s.dev.millRuns n = true ∧ ((fun _ w => opBits w 12 2 != 3 && opBits w 0 12 == 0)) (s.dev.mill n) w = true) ∧
    (∃ (s : State) (n : LoomId) (w : BitVec 19), s.dev.millRuns n = true ∧ ((fun _ _ => true)) (s.dev.mill n) w = true) ∧
    (∃ (s : State) (n : LoomId) (w : BitVec 19), s.dev.millRuns n = true ∧ ((fun _ w => opBits w 8 8 == 0)) (s.dev.mill n) w = true) ∧
    (∃ (s : State) (n : LoomId) (w : BitVec 19), s.dev.millRuns n = true ∧ ((fun _ w => opBits w 0 9 == 0 && opBits w 9 4 < 11)) (s.dev.mill n) w = true) ∧
    (∃ (x : Mill) (g : Nat), (x.ag g).length ≠ 0) :=
  ⟨⟨st (mi d0 mr), 2, 0, by decide +kernel⟩,
   ⟨st (mi d0 mr), 2, 2048, by decide +kernel⟩,
   ⟨st (mi d0 mr), 2, 4096, by decide +kernel⟩,
   ⟨st (mi d0 mr), 2, 0, by decide +kernel⟩,
   ⟨st (mi d0 mr), 2, 65536 + 16384 + 8192, by decide +kernel⟩,
   ⟨st (mi d0 mr), 2, 0x18000, by decide +kernel⟩,
   ⟨st (mi d0 mr), 2, 0x100FF, by decide +kernel⟩,
   ⟨st (mi d0 mr), 2, 65536 + 16384 + 0, by decide +kernel⟩,
   ⟨mr, 1, by decide +kernel⟩⟩

theorem test_hypotheses_MillFlow :
    (∃ (s : State) (n : LoomId) (w : BitVec 19), s.dev.millRuns n = true ∧ ((fun _ w => opBits w 15 2 == 0)) (s.dev.mill n) w = true) ∧
    (∃ (s : State) (n : LoomId) (w : BitVec 19), s.dev.millRuns n = true ∧ ((fun _ w => opBits w 15 2 == 1)) (s.dev.mill n) w = true) ∧
    (∃ (s : State) (n : LoomId) (w : BitVec 19), s.dev.millRuns n = true ∧ ((fun x w => opBits w 15 2 == 2 && opBits w 0 15 < (x.ag (opBits w 17 2)).length)) (s.dev.mill n) w = true) ∧
    (∃ (s : State) (n : LoomId) (w : BitVec 19), s.dev.millRuns n = true ∧ ((fun _ w => opBits w 15 2 == 3)) (s.dev.mill n) w = true) ∧
    (∃ (s : State) (n : LoomId) (w : BitVec 19), s.dev.millRuns n = true ∧ ((fun _ w => opBits w 0 11 == 0 && opBits w 14 3 == 0)) (s.dev.mill n) w = true) ∧
    (∃ (s : State) (n : LoomId) (w : BitVec 19), s.dev.millRuns n = true ∧ ((fun _ w => opBits w 0 15 == 0 && (opBits w 15 2 == 1 || opBits w 15 2 == 2))) (s.dev.mill n) w = true) ∧
    (∃ (s : State) (n : LoomId) (w : BitVec 19), let x := s.dev.mill n; s.dev.millRuns n = true ∧ opBits w 11 5 = 0 ∧ x.loop0 = none ∧ x.loop1 = none ∧ (match opBits w 16 3 with | 0 => True | 1 => x.z = true | 2 => x.z = false | 3 => x.neg = true | 4 => x.neg = false | 5 => x.a < 0 | 6 => 0 < x.a | _ => x.a = 0)) ∧
    (∃ (s : State) (n : LoomId) (w : BitVec 19), s.dev.millRuns n = true ∧ ((fun x w => opBits w 11 5 == 0 && ((opBits w 16 3 == 1 && !x.z) || (opBits w 16 3 == 2 && x.z) || (opBits w 16 3 == 5 && decide (0 ≤ x.a))))) (s.dev.mill n) w = true) ∧
    (∃ (s : State) (n : LoomId) (w : BitVec 19), s.dev.millRuns n = true ∧ ((fun x w => opBits w 18 1 == 0 && opBits w 17 1 == 0 && x.loop0.isNone && x.loop1.isNone)) (s.dev.mill n) w = true) ∧
    (∃ (s : State) (n : LoomId) (w : BitVec 19), s.dev.millRuns n = true ∧ opBits w 18 1 = 0 ∧ opBits w 17 1 = 0 ∧ (s.dev.mill n).loop0 ≠ none) ∧
    (∃ (s : State) (n : LoomId) (w : BitVec 19), s.dev.millRuns n = true ∧ opBits w 8 11 = 0) ∧
    (∃ (s : State) (n : LoomId) (w : BitVec 24), s.dev.millRuns n = true ∧ (w.toNat < 2 ^ 19 ∨ 0x1D * 2 ^ 19 ≤ w.toNat)) :=
  ⟨⟨st (mi d0 mr), 2, 0x27FFF, by decide +kernel⟩,
   ⟨st (mi d0 mr), 2, 32768 + 0x7FFF + 131072, by decide +kernel⟩,
   ⟨st (mi d0 mr), 2, 65536 + 131072 + 3, by decide +kernel⟩,
   ⟨st (mi d0 mr), 2, 98304 + 0x4000, by decide +kernel⟩,
   ⟨st (mi d0 mr), 2, 131072 + 4096, by decide +kernel⟩,
   ⟨st (mi d0 mr), 2, 131072 + 32768, by decide +kernel⟩,
   ⟨st (mi d0 mr), 2, 0x7FF, ⟨by decide +kernel, by decide +kernel, rfl, rfl, trivial⟩⟩,
   ⟨st (mi d0 mr), 2, 65536, by decide +kernel⟩,
   ⟨st (mi d0 mr), 2, 0, by decide +kernel⟩,
   ⟨st (mi d0 { mr with loop0 := some ⟨2, 1, 12⟩ }), 2, 5, by decide +kernel⟩,
   ⟨st (mi d0 mr), 2, 0, by decide +kernel⟩,
   ⟨st (mi d0 mr), 2, 0, by decide +kernel⟩⟩

theorem test_hypotheses_MillInputsAndGranary :
    (∃ (s : State) (n : LoomId) (w : BitVec 19), let x := s.dev.mill n; let k := max 1 (opBits w 0 12); let q := opBits w 12 6; s.dev.millRuns n = true ∧ opBits w 18 1 = 0 ∧ q < lanesOf x.mask ∧ k + x.hist ≤ 2 ^ x.lg) ∧
    (∃ (s : State) (n : LoomId) (w : BitVec 19), s.dev.millRuns n = true ∧ ((fun _ w => opBits w 0 13 == 0)) (s.dev.mill n) w = true) ∧
    (∃ (s : State) (n : LoomId) (w : BitVec 19), let x := s.dev.mill n; s.dev.millRuns n = true ∧ opBits w 0 15 = 0 ∧ opBits w 15 2 ≠ 3 ∧ x.gaddr + 3 ≤ 2 ^ 33 ∧ x.good (x.agAddr (opBits w 17 2) 0) = true ∧ s.dev.mayAccessAll (millPart n) (linesOf x.gaddr 3) = true ∧ s.dev.clean x.gaddr 3 = true ∧ s.dev.offTable x.gaddr 3 = true) ∧
    (∃ (s : State) (n : LoomId) (w : BitVec 19), let x := s.dev.mill n; s.dev.millRuns n = true ∧ opBits w 15 2 ≠ 3 ∧ opBits w 0 7 = 0 ∧ 2 ^ 33 < x.gaddr + 3 * (opBits w 7 8 + 1)) ∧
    (∃ (s : State) (n : LoomId) (w : BitVec 19), let x := s.dev.mill n; let k := opBits w 7 8 + 1; s.dev.millRuns n = true ∧ opBits w 15 2 ≠ 3 ∧ opBits w 0 7 = 0 ∧ x.gaddr + 3 * k ≤ 2 ^ 33) ∧
    (∃ (s : State) (n : LoomId) (g : Nat) (u : Nat), let x := s.dev.mill n; x.state = 3 ∧ x.ended = false ∧ x.wait = .grd g u 1 ∧ s.dev.mayAccess (millPart n) = true ∧ s.dev.clean x.gaddr 3 = true) ∧
    (∃ (s : State) (n : LoomId), let x := s.dev.mill n; s.dev.millRuns n = true ∧ x.posted ≠ 0) ∧
    (∃ (s : State) (n : LoomId), s.dev.millRuns n = true ∧ s.dev.capState n = 2 ∧ (s.dev.cap n).closing = none ∧ (s.dev.cap n).desc.trig.toNat % 16 = 6 ∧ (s.dev.cap n).desc.occ ≤ (s.dev.cap n).seen + 1 ∧ atOrAfter (s.dev.trigPlace n .mill 0) (s.dev.cap n).from_ = true) :=
  ⟨⟨st (mi d0 mr), 2, 3, by decide +kernel⟩,
   ⟨st (mi d0 mr), 2, 65536 + 16384, by decide +kernel⟩,
   ⟨st (mi d0 mr), 2, 0, by decide +kernel⟩,
   ⟨st (mi d0 { mr with gaddr := 0x1FFFFFFFE }), 2, 0, by decide +kernel⟩,
   ⟨st (mi d0 mr), 2, 0, by decide +kernel⟩,
   ⟨st (mi d0 { mr with state := 3, wait := .grd 1 2 1 }), 2, 1, 2, by decide +kernel⟩,
   ⟨st (mi d0 { mr with posted := 2 }), 2, by decide +kernel⟩,
   ⟨st ((cp (mi d0 mr) 2 { desc := { ce with trig := 6 } })), 2, by decide +kernel⟩⟩

theorem test_hypotheses_VoidAccess :
    (∃ (s : State) (p : Port) (addr : BitVec 20) (k : Nat) (a : Nat), wordSlot addr.toNat k = some a ∧ slotThere p a = false ∧ s.dev.busBlocked p.master = false) ∧
    (∃ (s : State) (p : Port) (addr : BitVec 20), slotThere p (addr.toNat / 4 * 4) = false ∧ s.dev.busBlocked p.master = false) ∧
    (∃ (s : State) (c : CtxId) (i : RRX), let x := s.dev.ctx c; s.dev.runs c 2 = true ∧ i.x = true ∧ i.d ≠ i.s ∧ x.regGrant = true ∧ i.ext.toNat < 2 ^ 20 ∧ i.ext.toNat % 4 = 0 ∧ slotThere (.ctx c) i.ext.toNat = false ∧ s.dev.busBlocked .core = false) ∧
    (∃ (s : State) (c : CtxId) (i : RRX), let x := s.dev.ctx c; s.dev.runs c 2 = true ∧ i.x = true ∧ x.regGrant = true ∧ i.ext.toNat < 2 ^ 20 ∧ i.ext.toNat % 4 = 0 ∧ slotThere (.ctx c) i.ext.toNat = false ∧ s.dev.busBlocked .core = false) :=
  ⟨⟨st d0, .ctx 5, 0x0F000, 0, 0x0F000, by decide +kernel⟩,
   ⟨st d0, .ctx 5, 0x0F000, by decide +kernel⟩,
   ⟨st (run3 d0 x0), 0, ⟨1, 2, true, 61440⟩, by decide +kernel⟩,
   ⟨st (run3 d0 x0), 0, ⟨1, 2, true, 61440⟩, by decide +kernel⟩⟩

theorem test_hypotheses_RegisterAccess :
    (∃ (s : State) (p : Port) (be : BitVec 4), be ≠ 0xF ∧ s.dev.busBlocked p.master = false) ∧
    (∃ (s : State) (p : Port) (addr : BitVec 20), slotThere p (addr.toNat / 4 * 4) = true ∧ s.dev.busBlocked p.master = false) ∧
    (∃ (s : State) (p : Port) (addr : BitVec 20) (v : Nat), slotThere p (addr.toNat / 4 * 4) = true ∧ s.dev.busBlocked p.master = false ∧ (addr.toNat / 4 * 4 < 0xE0000 ∨ 0xE6000 ≤ addr.toNat / 4 * 4) ∧ s.dev.wideAt p (addr.toNat / 4 * 4) = some v) ∧
    (∃ (s : State) (p : Port), let c := s.dev.rd (Reg.CTX_SEL.context (masterCode p.master)); s.dev.busBlocked p.master = false ∧ s.dev.owns p.master 1 = true ∧ ((s.dev.ctx c).state = .claimed ∨ (s.dev.ctx c).state = .parked ∨ (s.dev.ctx c).state = .halted)) ∧
    (∃ (s : State) (p : Port) (v : BitVec 32), let c := s.dev.rd (Reg.CTX_SEL.context (masterCode p.master)); s.dev.busBlocked p.master = false ∧ s.dev.owns p.master 1 = true ∧ (s.dev.ctx c).state = .ready ∧ recWrite (s.dev.ctx c) 20 v.toNat ≠ s.dev.ctx c) ∧
    (∃ (s : State) (p : Port), let i := s.dev.rd (Reg.SITE_SEL.site (masterCode p.master)); s.dev.busBlocked p.master = false ∧ s.dev.owns p.master 1 = true ∧ s.dev.siteBusy i = 0) ∧
    (∃ (s : State) (p : Port), s.dev.busBlocked p.master = false ∧ s.dev.owns p.master 1 = true ∧ (∀ i, s.dev.siteBusy i = 0)) ∧
    (∃ (s : State) (m : Master), s.dev.busBlocked m = false) ∧
    (∃ (s : State) (m : Master) (w0 : BitVec 32) (w1 : BitVec 32) (w2 : BitVec 32) (w3 : BitVec 32), let a := s.dev.segBase + 16 * s.dev.rd (Reg.GLB_SEGT_SEL.segment (masterCode m)); let k := 4 * masterCode m; let v : BitVec 128 := w3 ++ w2 ++ w1 ++ w0; s.dev.busBlocked m = false ∧ s.dev.segBase < 2 ^ 33 ∧ s.dev.rd (Reg.GLB_SEGT_SEL.segment (masterCode m)) < 32768 ∧ s.dev.mayAccess .coreShuttle = true ∧ s.dev.ecc (a / 32) = .good ∧ Tab.get none s.dev.segw k = some w0 ∧ Tab.get none s.dev.segw (k + 1) = some w1 ∧ Tab.get none s.dev.segw (k + 2) = some w2 ∧ (w3.getLsbD 8 = false ∨ descReason v.toNat = none)) ∧
    (∃ (s : State) (m : Master), s.dev.busBlocked m = false ∧ s.dev.mayAccess .coreShuttle = false) ∧
    (∃ (s : State) (p : Port), s.dev.busBlocked p.master = true) ∧
    (∃ (s : State) (m : Master) (v : BitVec 32), s.dev.owns m 0 = true ∧ v.getLsbD 31 = false ∧ v.toNat % 2 ^ 14 ≠ s.dev.rd Reg.GLB_SEGT_BASE.base) ∧
    (∃ (s : State) (src : DescSrc) (g : Fin 32768), let a := s.dev.segBase + 16 * g.val; s.dev.segBase < 2 ^ 33 ∧ s.dev.mayAccess (descPart src) = true ∧ s.dev.ecc (a / 32) = .good) :=
  ⟨⟨st d0, .ctx 5, 0x7, by decide +kernel⟩,
   ⟨st d0, .ctx 5, 0x10, by decide +kernel⟩,
   ⟨st d0, .ctx 5, 0x80084, 0, by decide +kernel⟩,
   ⟨st ((wf d0 [(Reg.CTX_SEL.context 1, 9)]).setCtx 9 { x0 with state := .claimed }), .ctx 5, by decide +kernel⟩,
   ⟨st ((wf d0 [(Reg.CTX_SEL.context 1, 9)]).setCtx 9 x0), .ctx 5, 0x123456, by decide +kernel⟩,
   ⟨st (wf d0 [(Reg.SITE_SEL.site 1, 9)]), .ctx 5, by decide +kernel⟩,
   ⟨st d0, .ctx 5, by decide +kernel, by decide +kernel, fun _ => rfl⟩,
   ⟨st d0, .core, by decide +kernel⟩,
   ⟨st { wf (gr d0) [(Reg.GLB_SEGT_SEL.segment 1, 6)] with segw := [(4, some 5), (5, some 256), (6, some 7)] }, .core, 5, 256, 7, 0x100, by decide +kernel⟩,
   ⟨st d0, .core, by decide +kernel⟩,
   ⟨st { run3 d0 x0 with ctxCmd := [⟨.core, 9, 1, false, some .free⟩, ⟨.core, 9, 1, false, none⟩] }, .ctx 0, by decide +kernel⟩,
   ⟨st d0, .core, 5, by decide +kernel⟩,
   ⟨st (gr d0), .dma, 6, by decide +kernel⟩⟩

theorem test_hypotheses_UnitsAndCaches :
    (∃ (s : State) (p : Port) (u : UnitId), (∀ o, u ≠ .tap o) ∧ u ≠ .scrub ∧ s.dev.owns p.master (unitBlock u) = true ∧ s.dev.unit (unitKey u) = .off ∧ s.dev.safeBars = false) ∧
    (∃ (s : State) (p : Port) (u : UnitId), (∀ o, u ≠ .tap o) ∧ u ≠ .scrub ∧ s.dev.unit (unitKey u) ≠ .on ∧ (s.dev.owns p.master (unitBlock u) = false ∨ s.dev.unit (unitKey u) = .draining ∨ s.dev.unit (unitKey u) = .held ∨ s.dev.safeBars = true)) ∧
    (∃ (s : State) (id : MonId), let b := monIdBase id; s.dev.rd (Reg.MON.STATE.state b) = 0) ∧
    (∃ (s : State) (n : Fin 24), s.dev.unit (kShuttle n) = .on) ∧
    (∃ (s : State) (i : Fin 8), s.dev.unit (kDma i) = .on) ∧
    (∃ (s : State) (n : Fin 24), s.dev.unit (kPattern n) = .on ∧ (∃ b, (s.dev.pat n).burst = some b ∧ b.ended = none ∧ b.started = true ∧ b.halt = none)) ∧
    (∃ (s : State) (u : UnitId), s.dev.unit (unitKey u) = .draining ∧ s.dev.drained u = true) ∧
    (∃ (s : State) (sh : Fin 25) (c : Fin 10240) (l : Nat), (s.dev.ctx c).home.toNat = sh.val ∧ (s.dev.ctx c).state = .ready ∧ (s.dev.ctx c).slot.isSome = true ∧ s.dev.shuttleRuns sh = true ∧ s.dev.icacheMiss sh c = some l ∧ s.dev.xipOff sh (64 * l) = none ∧ s.dev.mayAccess (shuttlePart sh) = true ∧ s.dev.clean (64 * l) 64 = true) ∧
    (∃ (s : State) (sh : Fin 25), Tab.get false s.dev.icacheBusy sh.val = true) ∧
    (∃ (s : State) (m : Master) (id : MonId) (v : BitVec 32), s.dev.owns m (loomBlock (monLoom id)) = true ∧ s.dev.safeBars = false ∧ s.dev.rd (Reg.MON.STATE.state (monIdBase id)) = 0 ∧ v.getLsbD 0 = true ∧ (∀ f ∈ monCtrlFields id, s.dev.rd f = bits v.toNat f.lo f.w)) ∧
    (∃ (s : State) (id : MonId) (v : BitVec 32), 1 ≤ s.dev.rd (Reg.MON.STATE.state (monIdBase id)) ∧ s.dev.rd (Reg.MON.STATE.state (monIdBase id)) ≤ 4 ∧ v.getLsbD 0 = false ∧ (∀ f ∈ monCtrlFields id, s.dev.rd f = bits v.toNat f.lo f.w)) :=
  ⟨⟨st d0, .ctx 5, .shuttle 3, by decide +kernel⟩,
   ⟨st d0, .host, .shuttle 3, by decide +kernel⟩,
   ⟨st d0, .chan 40 true, by decide +kernel⟩,
   ⟨st ((id) (d0.setUnit (unitKey (.shuttle 3)) .on)), 3, by decide +kernel⟩,
   ⟨st ((id) (d0.setUnit (unitKey (.dma 7)) .on)), 7, by decide +kernel⟩,
   ⟨st (pl d0 { bst with started := true }), 3, by decide +kernel⟩,
   ⟨st ((id) (d0.setUnit (unitKey (.mill 4)) .draining)), .mill 4, by decide +kernel⟩,
   ⟨st (run3 d0 x0), 3, 0, 0, by decide +kernel⟩,
   ⟨st { d0 with icacheBusy := [(3, true)] }, 3, by decide +kernel⟩,
   ⟨st d0, .core, .chan 40 false, 0x41, by decide +kernel⟩,
   ⟨st (wf d0 [(Reg.MON.STATE.state 0x90500, 2), (Reg.MON.WIN.hi 0x90500, 100), (Reg.MON.WIN.lo 0x90500, 50)]), .chan 40 false, 0x40, by decide +kernel⟩⟩

theorem test_hypotheses_Granary :
    (∃ (s : State) (q : Partition) (line : BitVec 27), s.dev.granOpen = true ∧ Tab.get [] s.dev.waitGran (partKey q) = [] ∧ s.dev.inUseOf (partKey q) < partCredits q ∧ s.dev.offTable (64 * line.toNat) 64 = true) ∧
    (∃ (s : State) (q : Partition), s.dev.granOpen = true ∧ partCredits q ≤ s.dev.inUseOf (partKey q)) ∧
    (∃ (s : State) (i : Fin 8), Tab.get [] s.dev.waitGran (partKey (.dma i)) = []) ∧
    (∃ (s : State) (i : Fin 8) (line : BitVec 27) (data : BitVec 512) (rest : List Held), s.dev.granOpen = true ∧ s.dev.waitBus = [] ∧ s.dev.waiting (.dma i) = { ask := .cmd (.granaryLineAccess (.dma i) line (.write data (-1)) .good .good), q := .dma i } :: rest ∧ Tab.get 0 s.dev.inUse (partKey (.dma i)) = 56 ∧ s.dev.offTable (64 * line.toNat) 64 = true) ∧
    (∃ (s : State), s.dev.boot.held = false ∧ s.dev.rd Reg.GLB_UNIT_ENABLE.scrub_en = 1 ∧ s.dev.unit kScrub = .off) ∧
    (∃ (s : State), s.dev.gran.trained = true ∧ s.dev.granOpen = false ∧ s.dev.waitGran = [] ∧ s.dev.waitBus = [] ∧ s.dev.rd Reg.SEC_STATUS.stage = 1 ∧ s.dev.log.queue = []) ∧
    (∃ (s : State), let l := s.dev.rd Reg.GLB_SCRUB_POS.line; s.dev.unit kScrub = .on ∧ s.dev.mayAccess .scrub = true ∧ s.dev.gran.bad = [] ∧ s.dev.gran.revisit = [] ∧ l + 256 < 2 ^ 27) ∧
    (∃ (s : State) (l : Nat) (rest : List Nat), s.dev.unit kScrub = .on ∧ s.dev.mayAccess .scrub = true ∧ s.dev.gran.revisit = l :: rest ∧ s.dev.ecc (2 * l) = .corr ∧ s.dev.ecc (2 * l + 1) = .good) ∧
    (∃ (s : State), let a := 64 * s.dev.rd Reg.CAL_IMG.line; s.dev.calState = 3 ∧ s.dev.mayAccess .coreShuttle = true ∧ a + calImageBytes ≤ 2 ^ 33 ∧ s.dev.offTable a calImageBytes = true) ∧
    (∃ (s : State), let a := 64 * s.dev.rd Reg.CAL_IMG.line; s.dev.calState = 4 ∧ s.dev.mayAccess .coreShuttle = true ∧ s.dev.clean a (min calImageBytes (granSize - a)) = true) :=
  ⟨⟨st (gr d0), .dma 3, 0x2000, by decide +kernel⟩,
   ⟨st { gr d0 with inUse := [(partKey (.dma 3), 56)] }, .dma 3, by decide +kernel⟩,
   ⟨st { gr d0 with inUse := [(partKey (.dma 3), 5)] }, 3, by decide +kernel⟩,
   ⟨st { gr d0 with inUse := [(partKey (.dma 3), 56)], waitGran := [(partKey (.dma 3), [{ ask := .cmd (.granaryLineAccess (.dma 3) 0x30000 (.write 5 (-1)) .good .good), q := .dma 3 }])] }, 3, 0x30000, 5, [], by decide +kernel⟩,
   ⟨st { wf d0 [(Reg.GLB_UNIT_ENABLE.scrub_en, 1)] with boot := { d0.boot with held := false } }, by decide +kernel⟩,
   ⟨st { wf d0 [(Reg.SEC_STATUS.stage, 1)] with gran := { d0.gran with trained := true } }, by decide +kernel⟩,
   ⟨st { (gr d0).setUnit kScrub .on with gran := {} }, by decide +kernel⟩,
   ⟨st { (gr d0).setUnit kScrub .on with gran := { revisit := [9, 12], bad := [(18, .corr)] } }, 9, [12], by decide +kernel⟩,
   ⟨st (wf (ca d0 3) [(Reg.CAL_IMG.line, 0x2000)]), by decide +kernel⟩,
   ⟨st (wf (ca d0 4) [(Reg.CAL_IMG.line, 0x2000)]), by decide +kernel⟩⟩

theorem test_hypotheses_ContextsInTime :
    (∃ (s : State) (c : CtxId) (tmo : Bool), let x := s.dev.ctx c; x.state = .waiting ∧ x.wait = .event tmo ∧ x.rel = .timeout ∧ x.parkPend = false ∧ x.killPend = false ∧ x.dlPend = none ∧ x.pausePend = false ∧ x.paused = false ∧ s.dev.exchHolds x = false ∧ (s.dev.reed.counting = true → x.wakeTime ≠ s.dev.reed.time) ∧ x.pc.toNat + 2 < 2 ^ 24 ∧ (∀ k, k ≠ c.val → (s.dev.ctx k).rel = .none)) ∧
    (∃ (s : State) (c : CtxId) (code : BitVec 8) (mask : BitVec 8) (d : BitVec 4) (w : BitVec 4) (tmo : Bool) (ev : BitVec 8) (stamp : BitVec 48), let x := s.dev.ctx c; x.state = .waiting ∧ x.wait = .recv code mask d w tmo ∧ x.rel = .event ev stamp ∧ x.parkPend = false ∧ x.killPend = false ∧ x.dlPend = none ∧ x.pausePend = false ∧ x.paused = false ∧ s.dev.exchHolds x = false ∧ x.pc.toNat + 2 < 2 ^ 24 ∧ d ≠ w ∧ (∀ k, k ≠ c.val → (s.dev.ctx k).rel = .none)) ∧
    (∃ (s : State) (c : CtxId), let x := s.dev.ctx c; x.state = .waiting ∧ x.wait = .time ∧ x.rel = .none ∧ s.dev.comesTo x.wakeTime = true) ∧
    (∃ (s : State) (c : CtxId), let x := s.dev.ctx c; x.deadline ≠ 0 ∧ s.dev.comes (x.deadline.toNat + 1) = true ∧ x.dlPark = true ∧ (x.state = .ready ∨ x.state = .waiting)) ∧
    (∃ (s : State) (c : CtxId), let x := s.dev.ctx c; x.state = .ready ∧ x.wait = .none ∧ x.parkPend = true ∧ x.killPend = false) ∧
    (∃ (s : State) (sh : Fin 25) (k : Fin 4) (c : Nat), (sh.val = 24 ∨ s.dev.unit (kShuttle sh) = .on) ∧ s.dev.rivals sh = [(c, s.dev.ctx c)] ∧ s.dev.inSlot sh k = none) ∧
    (∃ (s : State) (sh : Fin 25) (y : Nat × Ctx), s.dev.inSlot sh 3 = some y ∧ s.dev.rivals sh ≠ [] ∧ s.dev.comes (y.2.slotSince.toNat + max (s.dev.rd Reg.CTX_QUANTUM.ticks) 1) = true) ∧
    (∃ (s : State) (c : CtxId), let x := s.dev.ctx c; x.state = .ready ∧ x.wait = .none ∧ x.paused = false ∧ 0 < s.dev.pauseP x.home.toNat ∧ s.dev.now % s.dev.pauseI = 0 ∧ s.dev.therm.pauseAt ≠ some s.dev.reed.time) ∧
    (∃ (s : State) (sh : Fin 25) (t : Nat), s.dev.therm.pauseEnd = [(sh.val, t + 1)] ∧ t < 2 ^ 48 ∧ s.dev.comesTo (BitVec.ofNat 48 t) = true) :=
  ⟨⟨st ((id) ((on3 d0).setCtx 0 { x0 with state := .waiting, wait := .event true, rel := .timeout })), 0, true, by and_intros <;> first | decide +kernel | exact rel_none _ (by decide +kernel)⟩,
   ⟨st ((id) ((on3 d0).setCtx 0 { x0 with state := .waiting, wait := .recv 7 255 1 2 false, waitX := true, rel := .event 7 0x123456789ABC })), 0, 7, 255, 1, 2, false, 7, 0x123456789ABC, by and_intros <;> first | decide +kernel | exact rel_none _ (by decide +kernel)⟩,
   ⟨stc ((id) ((on3 d0).setCtx 0 { x0 with state := .waiting, wait := .time, wakeTime := 50 })), 0, by decide +kernel⟩,
   ⟨stc ((id) ((on3 d0).setCtx 0 { x0 with deadline := 9, dlPark := true })), 0, by decide +kernel⟩,
   ⟨st ((id) ((on3 d0).setCtx 0 { x0 with parkPend := true })), 0, by decide +kernel⟩,
   ⟨st ((on3 d0).setCtx 5 { x0 with slot := none }), 3, 0, 5, by decide +kernel⟩,
   ⟨stc (((on3 d0).setCtx 5 { x0 with slot := none }).setCtx 4 { x0 with slot := some 3 }), 3, (4, { x0 with slot := some 3 }), by decide +kernel⟩,
   ⟨st (wf ((on3 d0).setCtx 0 { x0 with pausePend := true }) [(Reg.TH_PAUSE.len, 5), (Reg.TH_PAUSE.interval, 100), (Reg.TH_THROTTLED.shuttles, 8)]), 0, by decide +kernel⟩,
   ⟨stc { (on3 d0).setCtx 0 { x0 with pausePend := true, paused := true } with therm := { pauseEnd := [(3, 8)] } }, 3, 7, by decide +kernel⟩⟩

theorem test_hypotheses_ContextCommands :
    (∃ (s : State) (m : Master), let c := s.dev.rd (Reg.CTX_SEL.context (masterCode m)); s.dev.ctxCmd = [] ∧ s.dev.busBlocked m = false ∧ s.dev.owns m 1 = true ∧ (s.dev.ctx c).state = .free) ∧
    (∃ (s : State) (m : Master), let c := s.dev.rd (Reg.CTX_SEL.context (masterCode m)); let x := s.dev.ctx c; s.dev.ctxCmd = [] ∧ s.dev.busBlocked m = false ∧ s.dev.owns m 1 = true ∧ x.state = .claimed ∧ x.home.toNat ≤ 24 ∧ (s.dev.site x.site.toNat).valid = true) ∧
    (∃ (s : State) (m : Master), let c := s.dev.rd (Reg.CTX_SEL.context (masterCode m)); let x := s.dev.ctx c; s.dev.ctxCmd = [] ∧ s.dev.busBlocked m = false ∧ s.dev.owns m 1 = true ∧ x.state = .parked) ∧
    (∃ (s : State) (m : Master), let c := s.dev.rd (Reg.CTX_SEL.context (masterCode m)); s.dev.ctxCmd = [] ∧ s.dev.busBlocked m = false ∧ ((s.dev.ctx c).state = .ready ∨ (s.dev.ctx c).state = .waiting)) ∧
    (∃ (s : State) (m : Master), s.dev.ctxCmd = [] ∧ s.dev.busBlocked m = false ∧ s.dev.owns m 1 = false) ∧
    (∃ (s : State) (k : CtxCmd), s.dev.ctxCmd = [k] ∧ s.dev.waitBus = []) ∧
    (∃ (s : State) (k : CtxCmd) (p : Port) (addr : BitVec 20), s.dev.ctxCmd = [k] ∧ s.dev.waitGran = [] ∧ slotThere p (addr.toNat / 4 * 4) = true ∧ s.dev.waitBus = Tab.set [] [] (masterCode p.master) [{ ask := .cmd (.rcRegisterRead p addr 0), q := .coreShuttle, ctx := none, bus := some p.master }]) ∧
    (∃ (s : State) (m : Master) (k : CtxCmd), s.dev.ctxCmd = [k] ∧ s.dev.busBlocked m = false) ∧
    (∃ (s : State) (k : CtxCmd) (j : CtxCmd), s.dev.ctxCmd = [k, j] ∧ s.dev.waitBus = [] ∧ j.op = 1 ∧ j.lost = false ∧ s.dev.owns j.m 1 = true ∧ (s.dev.ctx j.c).state = .free) ∧
    (∃ (s : State) (k : Fin 25) (c : CtxId), (s.dev.ctx c).home.toNat = k.val ∧ s.dev.canIssue c = true ∧ (s.dev.ustore k).retry = none ∧ (s.dev.ustore k).sure = true) ∧
    (∃ (s : State) (k : Fin 25) (c : CtxId), (s.dev.ustore k).refill = some ⟨c, false, false⟩) ∧
    (∃ (s : State) (k : Fin 25) (c : CtxId), (s.dev.ustore k).refill = some ⟨c, true, false⟩ ∧ (s.dev.ctx c).state = .ready) :=
  ⟨⟨st (wf d0 [(Reg.CTX_SEL.context 1, 9)]), .core, by decide +kernel⟩,
   ⟨st ((fun d => { d with sites := [(5, ⟨true, 0⟩)] }) ((wf d0 [(Reg.CTX_SEL.context 1, 9)]).setCtx 9 { x0 with slot := none, state := .claimed })), .core, by decide +kernel⟩,
   ⟨st ((fun d => { d with sites := [(5, ⟨true, 0⟩)] }) ((wf d0 [(Reg.CTX_SEL.context 1, 9)]).setCtx 9 { x0 with slot := none, state := .parked, fault := 9 })), .core, by decide +kernel⟩,
   ⟨st ((id) ((wf d0 [(Reg.CTX_SEL.context 1, 9)]).setCtx 9 { x0 with slot := none, state := .ready })), .core, by decide +kernel⟩,
   ⟨st d0, .host, by decide +kernel⟩,
   ⟨st { d0 with ctxCmd := [⟨.core, 9, 1, false, some .free⟩] }, ⟨.core, 9, 1, false, some .free⟩, by decide +kernel⟩,
   ⟨st { d0 with ctxCmd := [⟨.core, 9, 1, false, some .free⟩], waitBus := [(1, [{ ask := .cmd (.rcRegisterRead (.ctx 5) 0x10 0), q := .coreShuttle, bus := some .core }])] }, ⟨.core, 9, 1, false, some .free⟩, .ctx 5, 0x10, by decide +kernel⟩,
   ⟨st { d0 with ctxCmd := [⟨.core, 9, 1, false, some .free⟩] }, .core, ⟨.core, 9, 1, false, some .free⟩, by decide +kernel⟩,
   ⟨st { d0 with ctxCmd := [⟨.core, 9, 1, false, some .free⟩, ⟨.core, 8, 1, false, none⟩] }, ⟨.core, 9, 1, false, some .free⟩, ⟨.core, 8, 1, false, none⟩, by decide +kernel⟩,
   ⟨st ((run3 d0 x0).modUstore 3 fun x => { x with sure := true }), 3, 0, by decide +kernel⟩,
   ⟨st ((run3 d0 x0).modUstore 3 fun x => { x with refill := some ⟨0, false, false⟩ }), 3, 0, by decide +kernel⟩,
   ⟨st ((run3 d0 x0).modUstore 3 fun x => { x with refill := some ⟨0, true, false⟩ }), 3, 0, by decide +kernel⟩⟩

theorem test_hypotheses_ChannelRegisters :
    (∃ (s : State) (m : Master) (c : ChanId) (v : BitVec 32), s.dev.alone c = true ∧ s.dev.owns m (loomBlock (c / 32)) = true ∧ s.dev.chMode c = 0 ∧ s.dev.flagged c = false ∧ bits v.toNat 0 3 = 1 ∧ (∀ f ∈ ctrlFields c, f ≠ Reg.CHAN.CTRL.mode c → s.dev.rd f = bits v.toNat f.lo f.w)) ∧
    (∃ (s : State) (m : Master) (c : ChanId) (v : BitVec 32), s.dev.alone c = true ∧ s.dev.owns m (loomBlock (c / 32)) = true ∧ s.dev.forcing c = true ∧ bits v.toNat 8 1 = 0 ∧ (∀ f ∈ ctrlFields c, f ≠ Reg.CHAN.CTRL.conn c → s.dev.rd f = bits v.toNat f.lo f.w)) ∧
    (∃ (s : State) (m : Master) (c : ChanId) (v : BitVec 32), s.dev.owns m (loomBlock (c / 32)) = false ∧ s.dev.quar (c / 32) = false ∧ (s.dev.chan c).meas = none ∧ (∃ f ∈ ctrlFields c, s.dev.rd f ≠ bits v.toNat f.lo f.w)) ∧
    (∃ (s : State) (m : Master) (c : ChanId) (v : BitVec 32), s.dev.alone c = true ∧ s.dev.owns m (loomBlock (c / 32)) = true ∧ (s.dev.forcing c = true → s.dev.flagged c = false) ∧ s.dev.chMode c ≠ 4 ∧ s.dev.rd (Reg.CHAN.FORCE_CODE.code c) ≠ v.toNat % 2 ^ 24) ∧
    (∃ (s : State) (m : Master) (c : ChanId) (v : BitVec 32), s.dev.alone c = true ∧ s.dev.owns m (loomBlock (c / 32)) = true ∧ (v.extractLsb' 0 16).toInt ≤ (v.extractLsb' 16 16).toInt) ∧
    (∃ (s : State) (m : Master) (c : ChanId) (cur : Bool) (v : BitVec 32), s.dev.alone c = true ∧ s.dev.owns m (loomBlock (c / 32)) = true ∧ (v.extractLsb' 16 16).toInt < (v.extractLsb' 0 16).toInt ∧ s.dev.rd (clampLo c cur) ≠ v.toNat % 2 ^ 16) ∧
    (∃ (s : State) (m : Master) (c : ChanId), s.dev.quar (c / 32) = false ∧ s.dev.owns m (loomBlock (c / 32)) = true) ∧
    (∃ (s : State) (c : ChanId) (v : BitVec 24) (i : BitVec 24), let p := s.dev.sampleOf c v i; (s.dev.chan c).meas = none ∧ s.dev.capHolds c = false ∧ (s.dev.parked c = true → s.dev.parkedReads c p.1 p.2 = true)) ∧
    (∃ (s : State) (c : ChanId), s.dev.capHolds c = true) ∧
    (∃ (s : State) (c : ChanId) (v : BitVec 24) (i : BitVec 24) (q : MeasRun), let p := s.dev.sampleOf c v i; (s.dev.chan c).meas = some q ∧ q.left = 1 ∧ (s.dev.chan c).deferred = [] ∧ (s.dev.ctx q.ctx).state = .waiting ∧ (s.dev.ctx q.ctx).rel = .none ∧ (∀ k, k ≠ q.ctx → (s.dev.ctx k).state ≠ .waiting) ∧ s.dev.capHolds c = false ∧ (s.dev.parked c = true → s.dev.parkedReads c p.1 p.2 = true)) :=
  ⟨⟨st d0, .core, 40, 0x2001, by decide +kernel⟩,
   ⟨st (wf d0 [(Reg.CHAN.CTRL.mode 40, 1), (Reg.CHAN.CTRL.conn 40, 1)]), .core, 40, 0x2001, by decide +kernel⟩,
   ⟨st d0, .host, 40, 1, by decide +kernel⟩,
   ⟨st d0, .core, 40, 0x800000, by decide +kernel⟩,
   ⟨st d0, .core, 40, 0x7FFF8000, by decide +kernel⟩,
   ⟨st d0, .core, 40, false, 0x80007FFF, by decide +kernel⟩,
   ⟨st (wf d0 [(Reg.CHAN.STATUS.husk_over 40, 1)]), .core, 40, by decide +kernel⟩,
   ⟨st d0, 40, 5, 6, by decide +kernel⟩,
   ⟨st (cp d0 2 { desc := { ce with cls := 0 } }), 67, by decide +kernel⟩,
   ⟨st ((((on3 d0).setCtx 0 { x0 with state := .waiting, wait := .meas 40 2 }).setChan 40 { meas := some { ctx := 0, total := 2, left := 1, sum := 4, isOver := false } })), 40, 5, 0x7FFFFF, { ctx := 0, total := 2, left := 1, sum := 4, isOver := false }, by and_intros <;> first | decide +kernel | exact tab_all (α := Ctx) (d := {}) (P := fun k x => k ≠ 0 → x.state ≠ .waiting) (fun _ _ => by decide) _ (by decide +kernel)⟩⟩

theorem test_hypotheses_HusksAndMonitors :
    (∃ (s : State) (c : ChanId), s.dev.alone c = true ∧ s.dev.forcing c = true) ∧
    (∃ (s : State) (c : ChanId), s.dev.forcing c = false) ∧
    (∃ (s : State) (c : ChanId), s.dev.alone c = true ∧ s.dev.forcing12 c = true ∧ s.dev.rd (Reg.CHAN.CTRL.short_time c) ≠ 0 ∧ s.dev.on (Reg.CHAN.CTRL.rev_check c) = true) ∧
    (∃ (s : State) (id : MonId), let b := monIdBase id; let st := s.dev.rd (Reg.MON.STATE.state b); 1 ≤ st ∧ st ≤ 4 ∧ s.dev.rd (Reg.MON.CTRL.guard_trip b) = 0 ∧ s.dev.comes (s.dev.nextTick b) = true) ∧
    (∃ (s : State) (id : MonId), s.dev.rd (Reg.MON.STATE.state (monIdBase id)) = 5 ∧ s.dev.comes (s.dev.nextTick (monIdBase id)) = true) ∧
    (∃ (s : State) (c : ChanId) (isB : Bool) (q : MonIn), let b := monBase c isB; s.dev.alone c = true ∧ s.dev.forcing c = true ∧ s.dev.comes (s.dev.nextTick b) = true ∧ 2 ≤ s.dev.rd (Reg.MON.STATE.state b) ∧ s.dev.rd (Reg.MON.STATE.state b) ≤ 4 ∧ s.dev.on (Reg.MON.CTRL.guard_trip b) = true ∧ s.dev.on (Reg.MON.STATE.trip_armed b) = true ∧ 256 * (s.dev.rd (Reg.MON.WIN.hi b) : Int) < s.dev.monInput (.chan c isB) q) ∧
    (∃ (s : State) (m : Master) (id : MonId) (v : BitVec 32), s.dev.owns m (loomBlock (monLoom id)) = true ∧ bits v.toNat 0 12 ≤ bits v.toNat 16 12) ∧
    (∃ (s : State) (m : Master) (id : MonId) (v : BitVec 32), s.dev.owns m (loomBlock (monLoom id)) = true ∧ bits v.toNat 16 12 < bits v.toNat 0 12 ∧ s.dev.rd (Reg.MON.WIN.lo (monIdBase id)) ≠ bits v.toNat 0 12) :=
  ⟨⟨st (wf d0 [(Reg.CHAN.CTRL.mode 40, 1), (Reg.CHAN.CTRL.conn 40, 1)]), 40, by decide +kernel⟩,
   ⟨st d0, 40, by decide +kernel⟩,
   ⟨st (wf d0 ([(Reg.CHAN.CTRL.mode 40, 1), (Reg.CHAN.CTRL.conn 40, 1)] ++ [(Reg.CHAN.CTRL.short_time 40, 3), (Reg.CHAN.CTRL.rev_check 40, 1)])), 40, by decide +kernel⟩,
   ⟨stc (wf d0 [(Reg.MON.STATE.state 0x90500, 1), (Reg.MON.WIN.hi 0x90500, 100), (Reg.MON.WIN.lo 0x90500, 50)]), .chan 40 false, by decide +kernel⟩,
   ⟨stc (wf d0 [(Reg.MON.STATE.state 0x90500, 5), (Reg.MON.WIN.hi 0x90500, 100), (Reg.MON.WIN.lo 0x90500, 50)]), .chan 40 false, by decide +kernel⟩,
   ⟨stc (wf d0 ([(Reg.CHAN.CTRL.mode 40, 1), (Reg.CHAN.CTRL.conn 40, 1)] ++ [(Reg.MON.STATE.state 0x90510, 3), (Reg.MON.CTRL.guard_trip 0x90510, 1), (Reg.MON.STATE.trip_armed 0x90510, 1), (Reg.MON.WIN.hi 0x90510, 5)])), 40, true, ⟨1281, 0⟩, by decide +kernel⟩,
   ⟨st d0, .core, .chan 40 false, 0x0FFF0FFF, by decide +kernel⟩,
   ⟨st d0, .core, .chan 40 true, 0x00050006, by decide +kernel⟩⟩

theorem test_hypotheses_BoosterPairs :
    (∃ (s : State) (i : Fin 384) (rv : BitVec 24) (rr : BitVec 24), let e0 := 2 * i.val; let v := s.dev.voltCode e0 rv; let r := s.dev.shuntCode (e0 + 1) (s.dev.rd (Reg.CHAN.CTRL.range e0)) rr; let x := s.dev.chan e0; s.dev.evenOfPair e0 = true ∧ x.ramp = .none ∧ x.loopOpen = false ∧ (s.dev.chMode e0 = 4 ∨ s.dev.chMode e0 = 5) ∧ s.dev.boostOut e0 v r = false) ∧
    (∃ (s : State) (i : Fin 384) (rv : BitVec 24) (rr : BitVec 24), let e0 := 2 * i.val; let v := s.dev.voltCode e0 rv; let r := s.dev.shuntCode (e0 + 1) (s.dev.rd (Reg.CHAN.CTRL.range e0)) rr; s.dev.evenOfPair e0 = true ∧ (s.dev.chan e0).ramp = .none ∧ s.dev.forcing e0 = true ∧ (s.dev.chMode e0 = 4 ∨ s.dev.chMode e0 = 5) ∧ s.dev.wfmActive e0 = false ∧ s.dev.boostOut e0 v r = true ∧ (s.dev.chan e0).tripCount = 3) ∧
    (∃ (s : State) (i : Fin 384) (u : Int) (t : List Int), (s.dev.chan (2 * i.val)).uQueue = u :: t) ∧
    (∃ (s : State) (i : Fin 384) (k : Nat) (off : Bool), (s.dev.chan (2 * i.val)).ramp = .booster k off ∧ k < 4) ∧
    (∃ (s : State) (i : Fin 384) (off : Bool), let e0 := 2 * i.val; (s.dev.chan e0).ramp = .booster 4 off ∧ s.dev.evenOfPair e0 = true) ∧
    (∃ (s : State) (c : ChanId) (off : Bool), s.dev.chRole c = 0 ∧ (s.dev.chan c).ramp = .force off) ∧
    (∃ (s : State) (c : ChanId), (s.dev.chan (s.dev.lead c)).ramp = .none) :=
  ⟨⟨st ((fun d => d.setChan 40 { loopOpen := false, x := 50 }) (wf d0 ([(Reg.CHAN.STATUS.role 40, 1), (Reg.CHAN.STATUS.role 41, 3), (Reg.CHAN.CTRL.mode 40, 4), (Reg.CHAN.CTRL.conn 40, 1), (Reg.CHAN.VCLAMP.lo 41, 0x8000), (Reg.CHAN.VCLAMP.hi 41, 0x7FFF), (Reg.CHAN.ICLAMP.lo 40, 0x8000), (Reg.CHAN.ICLAMP.hi 40, 0x7FFF), (Reg.CHAN.FORCE_CODE.code 41, 500)]))), 20, 100, 0xFFFFF0, by decide +kernel⟩,
   ⟨st ((fun d => d.setChan 40 { loopOpen := false, tripCount := 3 }) (wf d0 ([(Reg.CHAN.STATUS.role 40, 1), (Reg.CHAN.STATUS.role 41, 3), (Reg.CHAN.CTRL.mode 40, 4), (Reg.CHAN.CTRL.conn 40, 1), (Reg.CHAN.VCLAMP.lo 41, 0x8000), (Reg.CHAN.VCLAMP.hi 41, 0x7FFF), (Reg.CHAN.ICLAMP.lo 40, 0x8000), (Reg.CHAN.ICLAMP.hi 40, 0x7FFF), (Reg.CHAN.FORCE_CODE.code 41, 500)] ++ [(Reg.CHAN.VCLAMP.hi 41, 0)]))), 20, 0x7FFFFF, 0, by decide +kernel⟩,
   ⟨st (d0.setChan 40 { uQueue := [5, 6] }), 20, 5, [6], by decide +kernel⟩,
   ⟨st (d0.setChan 40 { ramp := .booster 1 true }), 20, 1, true, by decide +kernel⟩,
   ⟨st ((fun d => d.setChan 40 { ramp := .booster 4 true }) (wf d0 ([(Reg.CHAN.STATUS.role 40, 1), (Reg.CHAN.STATUS.role 41, 3), (Reg.CHAN.CTRL.mode 40, 4), (Reg.CHAN.CTRL.conn 40, 1), (Reg.CHAN.VCLAMP.lo 41, 0x8000), (Reg.CHAN.VCLAMP.hi 41, 0x7FFF), (Reg.CHAN.ICLAMP.lo 40, 0x8000), (Reg.CHAN.ICLAMP.hi 40, 0x7FFF), (Reg.CHAN.FORCE_CODE.code 41, 500)]))), 20, true, by decide +kernel⟩,
   ⟨st (d0.setChan 40 { ramp := .force false }), 40, false, by decide +kernel⟩,
   ⟨st d0, 40, by decide +kernel⟩⟩

theorem test_hypotheses_WaveformSources :
    (∃ (s : State) (m : Master) (c : ChanId) (w : WDesc), let a := 16 * s.dev.rd (Reg.WFM.DESC.addr c); s.dev.wfmState c = 0 ∧ s.dev.owns m (loomBlock (c / 32)) = true ∧ s.dev.safeBars = false ∧ forceMode (s.dev.chMode c) = true ∧ s.dev.chConn c = true ∧ s.dev.chRole c < 2 ∧ s.dev.flagged c = false ∧ s.dev.mayAccess (wavePart c) = true ∧ s.dev.clean a 16 = true ∧ wdescOf (leVal (s.dev.bytesAt a 16)) = some w) ∧
    (∃ (s : State) (m : Master) (c : ChanId), (s.dev.wfmState c = 0 ∨ 4 ≤ s.dev.wfmState c) ∧ s.dev.owns m (loomBlock (c / 32)) = false) ∧
    (∃ (s : State) (m : Master) (c : ChanId), s.dev.wfmState c = 0 ∧ s.dev.owns m (loomBlock (c / 32)) = true ∧ s.dev.safeBars = false ∧ forceMode (s.dev.chMode c) = false) ∧
    (∃ (s : State) (m : Master) (c : ChanId), s.dev.owns m (loomBlock (c / 32)) = true) ∧
    (∃ (s : State) (c : ChanId), s.dev.wfmState c = 1 ∧ (s.dev.wfm c).ready = false ∧ 64 ≤ (s.dev.wfm c).base + (s.dev.wfm c).buf.length ∧ (s.dev.on (Reg.WFM.CTRL.start_at c) = true → s.dev.rd (Reg.WFM.START.time c) = s.dev.now ∨ reached s.dev.now (s.dev.rd (Reg.WFM.START.time c)) = false)) ∧
    (∃ (s : State) (c : ChanId) (y : Int), let w := s.dev.wfm c; let n := w.p / 2 ^ 24; s.dev.wfmState c = 2 ∧ (w.ready = true → s.dev.comes (w.instant / 8) = true) ∧ s.dev.on (Reg.WFM.CTRL.filter c) = true ∧ s.dev.on (Reg.WFM.STATUS.rate_pending c) = false ∧ s.dev.chMode c ≠ 4 ∧ w.endReq = none ∧ w.total = none ∧ w.badAt = none ∧ w.lostAt = none ∧ 0 < n ∧ w.base ≤ n ∧ w.buf[n - w.base]? = some y ∧ -8388608 ≤ y ∧ y ≤ 8388607) ∧
    (∃ (s : State) (c : ChanId), let w := s.dev.wfm c; let n := w.p / 2 ^ 24; s.dev.wfmState c = 2 ∧ (w.ready = true → s.dev.comes (w.instant / 8) = true) ∧ s.dev.on (Reg.WFM.CTRL.filter c) = true ∧ s.dev.on (Reg.WFM.STATUS.rate_pending c) = false ∧ w.strict = false ∧ w.endReq = none ∧ w.total = none ∧ w.badAt = none ∧ w.lostAt = none ∧ 0 < n ∧ w.base + w.buf.length ≤ n) ∧
    (∃ (s : State) (c : ChanId) (t : Nat), let w := s.dev.wfm c; s.dev.wfmState c = 2 ∧ (w.ready = true → s.dev.comes (w.instant / 8) = true) ∧ s.dev.on (Reg.WFM.CTRL.end_evt c) = false ∧ s.dev.on (Reg.WFM.CTRL.end_hold c) = true ∧ w.endReq = none ∧ w.total = some t ∧ t ≤ w.p / 2 ^ 24) ∧
    (∃ (s : State) (c : ChanId) (q : WDesc), let w := s.dev.wfm c; let a := q.start + 3 * w.fIdx; let k := samplesIn q.start q.length w.fIdx ((a + 2) / 64); (s.dev.wfmState c = 1 ∨ s.dev.wfmState c = 2) ∧ w.cur = some q ∧ w.buf.length + k ≤ 512 ∧ w.fIdx + k < q.length ∧ 0 < w.base + w.buf.length ∧ s.dev.mayAccess (wavePart c) = true ∧ s.dev.ecc ((a + 2) / 32) = .good ∧ s.dev.clean a (3 * k) = true) :=
  ⟨⟨st (wf ({ wv d0 0 with gran := { d0.gran with cells := wd40 } }) [(Reg.WFM.DESC.addr 40, 0x400)]), .core, 40, { start := 0x8000, length := 64, loops := 2, last := true }, by decide +kernel⟩,
   ⟨st d0, .host, 40, by decide +kernel⟩,
   ⟨st d0, .core, 40, by decide +kernel⟩,
   ⟨st d0, .core, 40, by decide +kernel⟩,
   ⟨st (wv d0 1 { buf := List.replicate 64 3 }), 40, by decide +kernel⟩,
   ⟨st (wv d0 2 { p := 16777216, step := 8388608, buf := [1, -8388608, 3] }), 40, -8388608, by decide +kernel⟩,
   ⟨st (wv d0 2 { p := 3 * 16777216, buf := [1, 2] }), 40, by decide +kernel⟩,
   ⟨st (wv d0 2 { p := 3 * 16777216, buf := [1, 2, 3], total := some 3 }), 40, 3, by decide +kernel⟩,
   ⟨st (wv d0 1 { cur := some { start := 0x8000, length := 64 }, buf := [1] }), 40, { start := 0x8000, length := 64 }, by decide +kernel⟩⟩

theorem test_hypotheses_BurstPlay :
    (∃ (s : State) (n : LoomId) (b : Burst), (s.dev.pat n).burst = some b ∧ b.started = false ∧ (s.dev.on (Reg.LOOM.SELVEDGE.pll_lock n) && s.dev.on (Reg.LOOM.SELVEDGE.dll_lock n)) = false) ∧
    (∃ (s : State) (n : LoomId) (b : Burst), s.dev.plays n b ∧ b.halt = none ∧ 0 < b.rep ∧ b.rep ≤ vecRepeat b.vec) ∧
    (∃ (s : State) (n : LoomId) (b : Burst), s.dev.plays n b ∧ b.halt = some 4) ∧
    (∃ (s : State) (n : LoomId) (b : Burst) (x : Entry) (t : List Entry) (v : BitVec 144), s.dev.plays n b ∧ b.halt = none ∧ (b.rep = 0 ∨ vecRepeat b.vec < b.rep) ∧ b.stopReq = none ∧ b.cut = false ∧ b.holding = false ∧ b.ents = x :: t ∧ x.desc.twill = false ∧ b.pos < x.desc.length ∧ x.vector b.pass b.pos = .vec v ∧ (∀ k < 32, pinCode v k ≠ 12 ∧ pinCode v k ≠ 13 ∧ pinCode v k ≠ 14)) ∧
    (∃ (s : State) (n : LoomId) (b : Burst) (x : Entry) (t : List Entry), s.dev.plays n b ∧ b.halt = none ∧ (b.rep = 0 ∨ vecRepeat b.vec < b.rep) ∧ b.stopReq = none ∧ b.cut = false ∧ b.holding = false ∧ b.gap = false ∧ b.ents = x :: t ∧ b.pos < x.desc.length ∧ x.vector b.pass b.pos = .empty) ∧
    (∃ (s : State) (n : LoomId) (b : Burst), (s.dev.pat n).burst = some b ∧ 4096 ≤ b.avail.1 ∧ (∀ o < 2, (∀ k < 32, s.dev.tapMaps o n k = false) ∨ 128 ≤ (s.dev.rast o).bits.length)) ∧
    (∃ (s : State) (n : LoomId) (x : Sched) (rest : List Sched), (s.dev.pat n).sched = x :: rest ∧ x.lg = 0) ∧
    (∃ (s : State) (n : LoomId) (b : Burst), (s.dev.pat n).burst = some b ∧ b.ended = some 0 ∧ (s.dev.pat n).sched = [] ∧ b.mloop = false ∧ b.blocking = true ∧ b.flagged = false ∧ b.early = false ∧ (s.dev.ctx b.ctx).state = .waiting ∧ (s.dev.ctx b.ctx).wait = .burst n ∧ (s.dev.ctx b.ctx).rel = .none) ∧
    (∃ (s : State) (n : LoomId) (stop : BitVec 48), stop.toNat = s.dev.windowEnd ∧ (s.dev.pat n).winEnd ≠ some stop ∧ s.dev.comes stop.toNat = true) :=
  ⟨⟨st ((fun d => wf d [(Reg.LOOM.SELVEDGE.pll_lock 3, 0)]) (pl d0 (bst) {})), 3, bst, by decide +kernel⟩,
   ⟨st ((id) (pl d0 ({ bst with started := true, rep := 1, vec := 2 ^ 133, ents := [en] }) {})), 3, { bst with started := true, rep := 1, vec := 2 ^ 133, ents := [en] }, by decide +kernel⟩,
   ⟨st ((id) (pl d0 ({ bst with started := true, halt := some 4, ents := [en] }) {})), 3, { bst with started := true, halt := some 4, ents := [en] }, by decide +kernel⟩,
   ⟨st ((id) (pl d0 ({ bst with started := true, ents := [en] }) {})), 3, { bst with started := true, ents := [en] }, en, [], 0, by decide +kernel⟩,
   ⟨st ((id) (pl d0 ({ bst with started := true, ents := [{ en with lines := [] }] }) {})), 3, { bst with started := true, ents := [{ en with lines := [] }] }, { en with lines := [] }, [], by decide +kernel⟩,
   ⟨st ((id) (pl d0 ({ bst with ents := [{ en with desc := { en.desc with length := 8192 }, copyTill := 1 }] }) {})), 3, { bst with ents := [{ en with desc := { en.desc with length := 8192 }, copyTill := 1 }] }, by decide +kernel⟩,
   ⟨st ((id) (pl d0 (bst) { sched := [{ idx := 9, seg := 6, pass := 2, rep := 1, cl := 1, ch := 2, cm := 4, bad := 8, lg := 0, lgOff := 0, win := 0 }] })), 3, { idx := 9, seg := 6, pass := 2, rep := 1, cl := 1, ch := 2, cm := 4, bad := 8, lg := 0, lgOff := 0, win := 0 }, [], by decide +kernel⟩,
   ⟨st ((fun d => d.setCtx 0 { x0 with state := .waiting, wait := .burst 3 }) (pl d0 ({ bst with started := true, ended := some 0, blocking := true, fail := true }) {})), 3, { bst with started := true, ended := some 0, blocking := true, fail := true }, by decide +kernel⟩,
   ⟨stc d0, 3, BitVec.ofNat 48 d0.windowEnd, by decide +kernel⟩⟩

theorem test_hypotheses_LocksAndTimingSets :
    (∃ (s : State) (n : LoomId), s.dev.on (Reg.LOOM.SELVEDGE.pll_lock n) = true ∧ s.dev.on (Reg.LOOM.SELVEDGE.dll_lock n) = true) ∧
    (∃ (s : State) (n : LoomId), s.dev.on (Reg.LOOM.SELVEDGE.pll_lock n) = true) ∧
    (∃ (s : State) (m : Master) (n : LoomId), s.dev.owns m (loomBlock n) = true ∧ (s.dev.pat n).commit = none ∧ tsReason (s.dev.pat n).staged = none) ∧
    (∃ (s : State) (m : Master) (n : LoomId) (set : Nat) (pin : Nat) (r : Nat), s.dev.owns m (loomBlock n) = true ∧ (s.dev.pat n).commit = none ∧ tsReason (s.dev.pat n).staged = some (set, pin, r)) ∧
    (∃ (s : State) (m : Master), let k := masterCode m; let n := s.dev.rd (Reg.TSET_SEL.loom k); s.dev.owns m (loomBlock n) = true ∧ s.dev.on (Reg.TSET_SEL.view k) = false) ∧
    (∃ (s : State) (m : Master) (slot : Fin 320) (v : BitVec 32), let k := masterCode m; let n := s.dev.rd (Reg.TSET_SEL.loom k); let set := s.dev.rd (Reg.TSET_SEL.set k); s.dev.on (Reg.TSET_SEL.view k) = true ∧ tsGet (s.dev.pat n).active set slot ≠ v &&& tsMask slot) ∧
    (∃ (s : State) (m : Master) (n : LoomId) (v : BitVec 32), s.dev.owns m (loomBlock n) = true ∧ s.dev.unit (kPattern n) = .off ∧ 8 ≤ v.toNat % 32 ∧ v.toNat % 32 ≤ 24) :=
  ⟨⟨st ((fun d => wf d [(Reg.LOOM.SELVEDGE.pll_lock 3, 1), (Reg.LOOM.SELVEDGE.dll_lock 3, 1)]) d0), 3, by decide +kernel⟩,
   ⟨st ((fun d => wf d [(Reg.LOOM.SELVEDGE.pll_lock 3, 1), (Reg.LOOM.SELVEDGE.dll_lock 3, 1)]) d0), 3, by decide +kernel⟩,
   ⟨st d0, .core, 3, by decide +kernel⟩,
   ⟨st (d0.setPat 3 { staged := [(320 * 2 + 1, 0x1FF)] }), .core, 3, 2, 0, 2, by decide +kernel⟩,
   ⟨st (wf d0 [(Reg.TSET_SEL.loom 1, 3), (Reg.TSET_SEL.set 1, 31)]), .core, by decide +kernel⟩,
   ⟨st (wf d0 [(Reg.TSET_SEL.loom 1, 3), (Reg.TSET_SEL.set 1, 31), (Reg.TSET_SEL.view 1, 1)]), .core, 64, 7, by decide +kernel⟩,
   ⟨st d0, .core, 3, 8, by decide +kernel⟩⟩

theorem test_hypotheses_SegmentsAndBobbin :
    (∃ (s : State) (n : LoomId) (b : Burst) (g : Nat) (ds : List (Option Nat)), (s.dev.pat n).burst = some b ∧ b.await = some g ∧ (s.dev.pat n).descs = some g :: ds ∧ s.dev.waiting (refillPart n) = [] ∧ s.dev.segGood g = true ∧ (s.dev.pat n).window = [] ∧ s.dev.on (Reg.LOOM.SJMP_STATE.pending n) = false) ∧
    (∃ (s : State) (n : LoomId) (ds : List (Option Nat)), (s.dev.pat n).burst = none ∧ (s.dev.pat n).descs = none :: ds ∧ s.dev.waiting (refillPart n) = []) ∧
    (∃ (s : State) (n : LoomId) (b : Burst) (g : Nat) (ds : List (Option Nat)) (x : Entry) (t : List Entry), let a := s.dev.segBase + 16 * g; (s.dev.pat n).burst = some b ∧ b.await = some g ∧ (s.dev.pat n).descs = some g :: ds ∧ s.dev.waiting (refillPart n) = [] ∧ b.ents = x :: t ∧ s.dev.ecc (a / 32) = .good ∧ bit (leVal (s.dev.bytesAt a 16)) 104 = false) ∧
    (∃ (s : State) (n : LoomId) (e1 : Ecc) (b : Burst) (x : Entry) (q : Req) (rest : List Req), let l := x.desc.start + x.got % max x.desc.passLines 1; (s.dev.pat n).burst = some b ∧ b.ents = [x] ∧ x.full = false ∧ x.hasLost = false ∧ x.load = false ∧ b.ended = none ∧ b.pass = 0 ∧ b.pos = 0 ∧ s.dev.waiting (refillPart n) = [] ∧ (s.dev.pat n).reqs = q :: rest ∧ q.want = true ∧ s.dev.ecc (2 * l) = .good ∧ s.dev.ecc (2 * l + 1) = .good ∧ e1 ≠ .corr) ∧
    (∃ (s : State) (m : Master) (n : LoomId) (v : BitVec 32), let g := v.toNat % 2 ^ 15; s.dev.busBlocked m = false ∧ s.dev.owns m (loomBlock n) = true ∧ s.dev.mayAccess (refillPart n) = true ∧ v.getLsbD 15 = true ∧ v.getLsbD 16 = false ∧ (s.dev.pat n).loads.length ≤ 32 ∧ (s.dev.pat n).window.any (·.seg == g) = false ∧ s.dev.segGood g = true ∧ bit (leVal (s.dev.bytesAt (s.dev.segBase + 16 * g) 16)) 105 = true) ∧
    (∃ (s : State) (m : Master) (n : LoomId) (v : BitVec 32), s.dev.busBlocked m = false ∧ s.dev.owns m (loomBlock n) = true ∧ s.dev.mayAccess (refillPart n) = false ∧ v.getLsbD 15 = true) ∧
    (∃ (s : State) (m : Master) (n : LoomId), s.dev.busBlocked m = false ∧ s.dev.owns m (loomBlock n) = true) ∧
    (∃ (s : State) (n : LoomId) (g : Nat) (rest : List Nat), let x := descOf (leVal (s.dev.bytesAt (s.dev.segBase + 16 * g) 16)); (s.dev.pat n).loads = g :: rest ∧ (s.dev.pat n).window = [] ∧ s.dev.mayAccess (refillPart n) = true ∧ s.dev.segGood g = true ∧ x.pinned = true ∧ (s.dev.pat n).winOthers g + x.length ≤ 8192 ∧ s.dev.clean (64 * x.start) (64 * x.passLines) = true ∧ 0 < x.passLines) ∧
    (∃ (s : State) (n : LoomId) (b : Burst) (x : Entry) (t : List Entry), (s.dev.pat n).burst = some b ∧ b.ents = x :: t ∧ b.mloop = true ∧ b.matched = false ∧ (b.verdicts < b.pass ∨ (b.verdicts = b.pass ∧ b.pos = x.desc.length ∧ vecRepeat b.vec < b.rep)) ∧ (s.dev.pat n).sched.any (·.pass == b.verdicts) = false) ∧
    (∃ (s : State) (m : Master) (n : LoomId) (slot : Fin 256) (v : BitVec 32), s.dev.owns m (loomBlock n) = true ∧ (s.dev.pat n).burst = none ∧ slot.val ≠ 10 ∧ ¬(16 ≤ slot.val ∧ slot.val < 32 ∧ bits v.toNat 7 2 = 3)) ∧
    (∃ (s : State) (m : Master) (n : LoomId) (i : Fin 16) (v : BitVec 32), s.dev.owns m (loomBlock n) = true ∧ (s.dev.pat n).burst = none ∧ s.dev.rd (Reg.TW.OP.dmode n i) ≠ 3 ∧ bits v.toNat 7 2 = 3) ∧
    (∃ (s : State) (m : Master) (n : LoomId) (v : BitVec 32), s.dev.owns m (loomBlock n) = true ∧ v.getLsbD 0 = true) ∧
    (∃ (s : State) (n : LoomId) (slot : Fin 256) (v : BitVec 32) (b : Burst), (s.dev.pat n).burst = some b ∧ slot.val ≠ 10 ∧ (∃ f ∈ twFields n slot, s.dev.rd f ≠ bits v.toNat f.lo f.w)) :=
  ⟨⟨st { (pl d0 ({ bst with await := some 6 }) { descs := [some 6] }) with gran := { d0.gran with cells := seg6 } }, 3, { bst with await := some 6 }, 6, [], by decide +kernel⟩,
   ⟨st ((gr d0).setPat 3 { descs := [none] }), 3, [], by decide +kernel⟩,
   ⟨st ((id) (pl d0 ({ bst with await := some 7, ents := [en] }) { descs := [some 7] })), 3, { bst with await := some 7, ents := [en] }, 7, [], en, [], by decide +kernel⟩,
   ⟨st ((id) (pl d0 ({ bst with ents := [{ en with lines := [] }] }) { reqs := [⟨0, true⟩] })), 3, .good, { bst with ents := [{ en with lines := [] }] }, { en with lines := [] }, ⟨0, true⟩, [], by decide +kernel⟩,
   ⟨st { (gr d0) with gran := { d0.gran with cells := [(96, 64), (101, 1), (109, 3)] } }, .core, 3, 0x8006, by decide +kernel⟩,
   ⟨st d0, .core, 3, 0x8006, by decide +kernel⟩,
   ⟨st d0, .core, 3, by decide +kernel⟩,
   ⟨st { (gr d0).setPat 3 { loads := [6] } with gran := { d0.gran with cells := [(96, 64), (101, 1), (109, 3)] } }, 3, 6, [], by decide +kernel⟩,
   ⟨st ((id) (pl d0 ({ bst with started := true, mloop := true, pass := 2, ents := [en], verdicts := 1 }) {})), 3, { bst with started := true, mloop := true, pass := 2, ents := [en], verdicts := 1 }, en, [], by decide +kernel⟩,
   ⟨st d0, .core, 3, 0, 0xFFFFFFFF, by decide +kernel⟩,
   ⟨st d0, .core, 3, 15, 0x1FF, by decide +kernel⟩,
   ⟨st (wf (d0.setPat 3 { burst := some bst }) [(Reg.TW.STATUS.cfg_reject 3, 1)]), .core, 3, 1, by decide +kernel⟩,
   ⟨st ((id) (pl d0 (bst) {})), 3, 0, 1, bst, by decide +kernel⟩⟩

theorem test_hypotheses_TimeMeasurement :
    (∃ (s : State) (m : Master) (i : Fin 192), s.dev.tmeArmReason m i = none) ∧
    (∃ (s : State) (m : Master) (i : Fin 192), s.dev.owns m (loomBlock (i / 8)) = true ∧ s.dev.tmeBusy i = false ∧ s.dev.unit (kTme (i / 8)) = .on ∧ s.dev.on (Reg.LOOM.SELVEDGE.pll_lock (i / 8)) = true ∧ s.dev.on (Reg.LOOM.SELVEDGE.dll_lock (i / 8)) = true ∧ s.dev.tmeMode i = 1 ∧ 1 ≤ s.dev.tmeSrc i false ∧ s.dev.tmeSrc i false ≤ 4 ∧ s.dev.tmeSrc i true ≤ 4 ∧ s.dev.rd (Reg.TME.N.n i) ≠ 0) ∧
    (∃ (s : State) (m : Master) (i : Fin 192), s.dev.owns m (loomBlock (i / 8)) = false ∧ s.dev.tmeMode i = 1 ∧ 1 ≤ s.dev.tmeSrc i false ∧ s.dev.tmeSrc i false ≤ 4 ∧ s.dev.tmeSrc i true ≤ 4 ∧ s.dev.rd (Reg.TME.N.n i) ≠ 0) ∧
    (∃ (s : State) (i : Fin 192), s.dev.tmeBusy i = true) ∧
    (∃ (s : State) (i : Fin 192), (s.dev.tme i).arming = true ∧ s.dev.tmeGated i = false) ∧
    (∃ (s : State) (i : Fin 192), s.dev.tmeState i = 1 ∧ s.dev.tmeGated i = false ∧ s.dev.comesTo (BitVec.ofNat 48 (s.dev.rd (Reg.TME.START.time i))) = true ∧ s.dev.rd (Reg.TME.START.time i) < 2 ^ 48) ∧
    (∃ (s : State) (i : Fin 192) (u : Nat) (t : Nat), let x := s.dev.tme i; s.dev.tmeMode i = 1 ∧ s.dev.tmeSrc i false = 1 ∧ s.dev.rd (Reg.TME.SRC_A.edge i) = 1 ∧ s.dev.evenOfPair (32 * (i / 8) + s.dev.tmeK i false) = false ∧ s.dev.oddOfPair (32 * (i / 8) + s.dev.tmeK i false) = false ∧ x.start = some u ∧ x.tainted = false ∧ x.feed = [⟨false, true, t⟩] ∧ x.lastA = some u ∧ x.exchA = none ∧ 615 ≤ since t u ∧ atOrAfter t (s.dev.tmeLimit i u + 1) = false ∧ x.sums.n + 1 < 2 ^ 24) ∧
    (∃ (s : State) (i : Fin 192) (u : Nat), let x := s.dev.tme i; s.dev.tmeMode i = 5 ∧ s.dev.on (Reg.TME.CTRL.gate_src i) = false ∧ s.dev.tmeState i = 2 ∧ x.start = some u ∧ x.tainted = false ∧ x.sums.n + 1 < 2 ^ 24 ∧ s.dev.tmeCloses i u = true ∧ s.dev.comes (s.dev.tmeClose i u / 10240) = true) ∧
    (∃ (s : State) (i : Fin 192) (u : Nat), (s.dev.tme i).start = some u ∧ (s.dev.tme i).draining = false ∧ s.dev.tmeGated i = false ∧ s.dev.comes ((s.dev.tmeLimit i u + 10239) / 10240 % 2 ^ 48) = true) :=
  ⟨⟨st ((((wf d0 [(Reg.TME.CTRL.mode 25, 1), (Reg.TME.SRC_A.src 25, 1), (Reg.TME.SRC_A.edge 25, 1), (Reg.TME.SRC_A.k 25, 4), (Reg.TME.N.n 25, 5), (Reg.LOOM.SELVEDGE.pll_lock 3, 1), (Reg.LOOM.SELVEDGE.dll_lock 3, 1), (Reg.TME.TIMEOUT.ticks 25, 100)]).setUnit (kTme 3) .on)).setTme 25 {}), .core, 25, by decide +kernel⟩,
   ⟨st ((((wf d0 [(Reg.TME.CTRL.mode 25, 1), (Reg.TME.SRC_A.src 25, 1), (Reg.TME.SRC_A.edge 25, 1), (Reg.TME.SRC_A.k 25, 4), (Reg.TME.N.n 25, 5), (Reg.LOOM.SELVEDGE.pll_lock 3, 1), (Reg.LOOM.SELVEDGE.dll_lock 3, 1), (Reg.TME.TIMEOUT.ticks 25, 100)]).setUnit (kTme 3) .on)).setTme 25 {}), .core, 25, by decide +kernel⟩,
   ⟨st ((((wf d0 [(Reg.TME.CTRL.mode 25, 1), (Reg.TME.SRC_A.src 25, 1), (Reg.TME.SRC_A.edge 25, 1), (Reg.TME.SRC_A.k 25, 4), (Reg.TME.N.n 25, 5), (Reg.LOOM.SELVEDGE.pll_lock 3, 1), (Reg.LOOM.SELVEDGE.dll_lock 3, 1), (Reg.TME.TIMEOUT.ticks 25, 100)]).setUnit (kTme 3) .on)).setTme 25 {}), .host, 25, by decide +kernel⟩,
   ⟨st ((((wf d0 [(Reg.TME.CTRL.mode 25, 1), (Reg.TME.SRC_A.src 25, 1), (Reg.TME.SRC_A.edge 25, 1), (Reg.TME.SRC_A.k 25, 4), (Reg.TME.N.n 25, 5), (Reg.LOOM.SELVEDGE.pll_lock 3, 1), (Reg.LOOM.SELVEDGE.dll_lock 3, 1), (Reg.TME.TIMEOUT.ticks 25, 100), (Reg.TME.STATUS.state 25, 2)]).setUnit (kTme 3) .on)).setTme 25 {}), 25, by decide +kernel⟩,
   ⟨st ((((wf d0 [(Reg.TME.CTRL.mode 25, 1), (Reg.TME.SRC_A.src 25, 1), (Reg.TME.SRC_A.edge 25, 1), (Reg.TME.SRC_A.k 25, 4), (Reg.TME.N.n 25, 5), (Reg.LOOM.SELVEDGE.pll_lock 3, 1), (Reg.LOOM.SELVEDGE.dll_lock 3, 1), (Reg.TME.TIMEOUT.ticks 25, 100)]).setUnit (kTme 3) .on)).setTme 25 { arming := true }), 25, by decide +kernel⟩,
   ⟨stc ((((wf d0 [(Reg.TME.CTRL.mode 25, 1), (Reg.TME.SRC_A.src 25, 1), (Reg.TME.SRC_A.edge 25, 1), (Reg.TME.SRC_A.k 25, 4), (Reg.TME.N.n 25, 5), (Reg.LOOM.SELVEDGE.pll_lock 3, 1), (Reg.LOOM.SELVEDGE.dll_lock 3, 1), (Reg.TME.TIMEOUT.ticks 25, 100), (Reg.TME.STATUS.state 25, 1)]).setUnit (kTme 3) .on)).setTme 25 {}), 25, by decide +kernel⟩,
   ⟨st ((((wf d0 [(Reg.TME.CTRL.mode 25, 1), (Reg.TME.SRC_A.src 25, 1), (Reg.TME.SRC_A.edge 25, 1), (Reg.TME.SRC_A.k 25, 4), (Reg.TME.N.n 25, 5), (Reg.LOOM.SELVEDGE.pll_lock 3, 1), (Reg.LOOM.SELVEDGE.dll_lock 3, 1), (Reg.TME.TIMEOUT.ticks 25, 100), (Reg.TME.STATUS.state 25, 2)]).setUnit (kTme 3) .on)).setTme 25 { feed := [⟨false, true, 1615⟩], start := some 1000, lastA := some 1000, edges := 1, t0 := 1000 }), 25, 1000, 1615, by decide +kernel⟩,
   ⟨stc ((((wf d0 [(Reg.TME.CTRL.mode 25, 5), (Reg.TME.SRC_A.src 25, 1), (Reg.TME.SRC_A.edge 25, 1), (Reg.TME.SRC_A.k 25, 4), (Reg.TME.N.n 25, 5), (Reg.LOOM.SELVEDGE.pll_lock 3, 1), (Reg.LOOM.SELVEDGE.dll_lock 3, 1), (Reg.TME.TIMEOUT.ticks 25, 100), (Reg.TME.STATUS.state 25, 2), (Reg.TME.GATE.ticks 25, 10)]).setUnit (kTme 3) .on)).setTme 25 { start := some 1000, edges := 7 }), 25, 1000, by decide +kernel⟩,
   ⟨stc ((((wf d0 [(Reg.TME.CTRL.mode 25, 1), (Reg.TME.SRC_A.src 25, 1), (Reg.TME.SRC_A.edge 25, 1), (Reg.TME.SRC_A.k 25, 4), (Reg.TME.N.n 25, 5), (Reg.LOOM.SELVEDGE.pll_lock 3, 1), (Reg.LOOM.SELVEDGE.dll_lock 3, 1), (Reg.TME.TIMEOUT.ticks 25, 100), (Reg.TME.STATUS.state 25, 2)]).setUnit (kTme 3) .on)).setTme 25 { start := some 1000, lastA := some 1000, edges := 1 }), 25, 1000, by decide +kernel⟩⟩

theorem test_hypotheses_Tapestry :
    (∃ (s : State) (m : Master) (o : Fin 2), let bad := [0x40, 0x44, 0x48, 0x4C].any fun a => Tab.get false (s.dev.rast o).rsv a; s.dev.owns m tapBlock = true ∧ timReason (s.dev.tapShadow o) bad = none) ∧
    (∃ (s : State) (m : Master) (o : Fin 2) (k : Nat), let bad := [0x40, 0x44, 0x48, 0x4C].any fun a => Tab.get false (s.dev.rast o).rsv a; s.dev.owns m tapBlock = true ∧ timReason (s.dev.tapShadow o) bad = some k) ∧
    (∃ (s : State) (m : Master) (o : Fin 2), s.dev.owns m tapBlock = true ∧ (∀ l < 4, layerReason (s.dev.tapStaged o l) ((s.dev.rast o).layerRsv l) = none)) ∧
    (∃ (s : State) (m : Master), s.dev.owns m tapBlock = false) ∧
    (∃ (s : State) (o : Fin 2), let r := s.dev.rast o; let t := r.act; s.dev.tapRuns o = true ∧ s.dev.tapAsked o = true ∧ r.layers = [] ∧ r.slot ≠ 0 ∧ r.slot + 1 < t.slots ∧ r.slot + 1 < 2 ^ 14) ∧
    (∃ (s : State) (o : Fin 2) (l : Fin 4) (w : PixReq) (rest : List PixReq), let r := s.dev.rast o; r.old = [] ∧ r.want = w :: rest ∧ r.retiring = [] ∧ w.layer = l.val ∧ s.dev.mayAccess (tapPart o) = true ∧ s.dev.clean (64 * w.line) 64 = true) :=
  ⟨⟨st d0, .core, 1, by decide +kernel⟩,
   ⟨st (wf d0 [(Reg.TAP.TIM_H1.h_active 1, 0)]), .core, 1, 1, by decide +kernel⟩,
   ⟨st d0, .core, 1, by decide +kernel⟩,
   ⟨st d0, .host, by decide +kernel⟩,
   ⟨st (((pl (d0.setUnit (kTap 1) .on) { bst with started := true, ents := [{ en with lines := [.data 0xEE] }] }).modRast 1 fun r => { r with slot := 20, line := 10 }) |> fun d => wf d [(Reg.TAP.CFG.loom 1, 3), (Reg.TAP.PINMAP.map 1 0, 0x40404045)]), 1, by decide +kernel⟩,
   ⟨st ((gr d0).modRast 1 fun r => { r with want := [⟨2, 5, 1, 0x105, 0x4000⟩, ⟨2, 5, 2, 0x106, 0x4000⟩] }), 1, 2, ⟨2, 5, 1, 0x105, 0x4000⟩, [⟨2, 5, 2, 0x106, 0x4000⟩], by decide +kernel⟩⟩

theorem test_hypotheses_SoftwareInterrupts :
    (∃ (s : State) (p : Port), s.dev.busBlocked p.master = false) ∧
    (∃ (s : State) (c : CtxId) (i : RRX), let x := s.dev.ctx c; s.dev.runs c 2 = true ∧ s.dev.busBlocked .core = false ∧ i.x = true ∧ x.regGrant = true ∧ i.ext = 0x20) ∧
    (∃ (s : State), s.dev.owns .host 0 = true ∧ s.dev.busBlocked .host = false) :=
  ⟨⟨st d0, .host, by decide +kernel⟩,
   ⟨st (run3 d0 x0), 0, ⟨1, 2, true, 32⟩, by decide +kernel⟩,
   ⟨st (wf d0 [(ownerFld 0, 0)]), by decide +kernel⟩⟩

theorem test_hypotheses_HostInterface :
    (∃ (s : State) (a : BitVec 33) (n : Nat), a.toNat + n ≤ 2 ^ 33 ∧ s.dev.mayAccess .bar2 = true ∧ s.dev.clean a.toNat n = true) ∧
    (∃ (s : State) (a : BitVec 33) (n : Nat), a.toNat + n ≤ 2 ^ 33 ∧ s.dev.granOpen = true ∧ s.dev.mayAccess .bar2 = false) ∧
    (∃ (s : State) (a : BitVec 33) (n : Nat), a.toNat + n ≤ 2 ^ 33 ∧ s.dev.granOpen = false) ∧
    (∃ (s : State) (a : BitVec 33) (bs : List (BitVec 8)) (be : List Bool), a.toNat + bs.length ≤ 2 ^ 33 ∧ be.length = bs.length ∧ s.dev.mayAccess .bar2 = true ∧ s.dev.clean a.toNat bs.length = true ∧ s.dev.offTable a.toNat bs.length = true) ∧
    (∃ (s : State) (a : BitVec 33) (bs : List (BitVec 8)) (be : List Bool), a.toNat + bs.length ≤ 2 ^ 33 ∧ be.length = bs.length ∧ s.dev.granOpen = false) ∧
    (∃ (s : State) (m : Master), s.dev.owns m 0 = true) ∧
    (∃ (s : State) (speed : BitVec 4) (width : BitVec 6), 1 ≤ speed.toNat ∧ speed.toNat ≤ s.dev.rd Reg.GLB_PCIE_CTRL.max_speed ∧ speed.toNat ≤ 5 ∧ (width = 1 ∨ width = 2 ∨ width = 4)) ∧
    (∃ (s : State), s.dev.pcie.pba = [] ∧ (∀ i < 8, (s.dev.dma i).skips = [])) ∧
    (∃ (s : State) (v : Fin 64), s.dev.pcie.pba = [(v.val, true)] ∧ s.dev.pcie.bme = true ∧ s.dev.pcie.d3 = false ∧ s.dev.pcie.msixEn = true ∧ s.dev.pcie.msixMaskAll = false) ∧
    (∃ (s : State) (i : Nat) (l : Nat) (ch : Line), s.dev.boot.att = some ⟨some i, ch, l⟩ ∧ s.dev.on Reg.CAL_STATUS.hash_busy = true) ∧
    (∃ (s : State) (i : Nat) (l : Nat) (ch : Line), s.dev.boot.att = some ⟨some i, ch, l⟩ ∧ s.dev.on Reg.CAL_STATUS.hash_busy = false ∧ s.dev.mayAccess .security = true ∧ s.dev.clean (64 * l) 5556 = true ∧ s.dev.offTable (64 * l) 5556 = true ∧ 64 * l + 5556 ≤ 2 ^ 33) ∧
    (∃ (s : State) (l : Nat) (ch : Line), s.dev.boot.att = some ⟨none, ch, l⟩ ∧ s.dev.mayAccess .security = true ∧ s.dev.offTable (64 * l) 128 = true ∧ 64 * l + 128 ≤ 2 ^ 33) :=
  ⟨⟨st (gr d0), 0x80000, 16, by decide +kernel⟩,
   ⟨st { gr d0 with inUse := [(partKey .bar2, 999)] }, 0x80000, 16, by decide +kernel⟩,
   ⟨st d0, 0x1FFFFFFFF, 1, by decide +kernel⟩,
   ⟨st (gr d0), 0x80001, [1, 2, 3], [true, false, true], by decide +kernel⟩,
   ⟨st d0, 0x80001, [1, 2, 3], [true, false, true], by decide +kernel⟩,
   ⟨st d0, .core, by decide +kernel⟩,
   ⟨st (wf d0 [(Reg.GLB_PCIE_CTRL.max_speed, 5)]), 5, 4, by decide +kernel⟩,
   ⟨st d0, by decide +kernel⟩,
   ⟨st { d0 with pcie := { pba := [(63, true)], bme := true, msixEn := true, table := [(255, 0)] } }, 63, by decide +kernel⟩,
   ⟨st { wf (gr d0) [(Reg.CAL_STATUS.hash_busy, 1)] with boot := { d0.boot with att := some ⟨some 5, 7, 0x2000⟩ } }, 5, 0x2000, 7, by decide +kernel⟩,
   ⟨st { gr d0 with boot := { d0.boot with att := some ⟨some 5, 7, 0x2000⟩ } }, 5, 0x2000, 7, by decide +kernel⟩,
   ⟨st { gr d0 with boot := { d0.boot with att := some ⟨none, 0, 0x2000⟩ } }, 0x2000, 0, by decide +kernel⟩⟩

theorem test_hypotheses_DmaEngines :
    (∃ (s : State) (m : Master) (i : Fin 8) (v : BitVec 32), s.dev.owns m dmaBlock = true ∧ v.toNat % 2 ^ 16 < s.dev.dmaSize i) ∧
    (∃ (s : State) (m : Master) (i : Fin 8) (v : BitVec 32), s.dev.owns m dmaBlock = false ∧ v.toNat % 2 ^ 16 ≠ s.dev.rd (Reg.DMA.TAIL.tail i)) ∧
    (∃ (s : State) (i : Fin 8), s.dev.unit (kDma i) = .on ∧ s.dev.dmaLocal i = false ∧ s.dev.pcie.master = true ∧ (s.dev.dma i).fetched.length < 9 ∧ (s.dev.dma i).fetched.length < s.dev.dmaPosted i ∧ (s.dev.dma i).fetched.any (·.isNone) = false) ∧
    (∃ (s : State) (i : Fin 8) (v : BitVec 256) (rest : List (Option (BitVec 256))) (bs : List (BitVec 8)), let x := dmaDescOf v.toNat; let p := s.dev.rd (Reg.DMA.PROGRESS.bytes i); (s.dev.dma i).fetched = some v :: rest ∧ (s.dev.dma i).code = none ∧ (s.dev.dma i).stale = false ∧ x.refused = false ∧ x.fill = false ∧ x.toHost = false ∧ s.dev.unit (kDma i) = .on ∧ s.dev.pcie.master = true ∧ 0 < bs.length ∧ p + bs.length ≤ x.len ∧ s.dev.mayAccess (.dma i) = true ∧ s.dev.clean (x.gran + p) bs.length = true ∧ s.dev.offTable (x.gran + p) bs.length = true) ∧
    (∃ (s : State) (i : Fin 8) (v : BitVec 256) (rest : List (Option (BitVec 256))) (n : Nat), let x := dmaDescOf v.toNat; let p := s.dev.rd (Reg.DMA.PROGRESS.bytes i); (s.dev.dma i).fetched = some v :: rest ∧ (s.dev.dma i).code = none ∧ (s.dev.dma i).stale = false ∧ x.refused = false ∧ x.fill = false ∧ x.toHost = true ∧ s.dev.unit (kDma i) = .on ∧ s.dev.pcie.master = true ∧ 0 < n ∧ p + n ≤ x.len ∧ s.dev.mayAccess (.dma i) = true ∧ s.dev.clean (x.gran + p) n = true) ∧
    (∃ (s : State) (i : Fin 8) (v : BitVec 256) (rest : List (Option (BitVec 256))), let x := dmaDescOf v.toNat; (s.dev.dma i).fetched = some v :: rest ∧ rest.any (·.isNone) = false ∧ (s.dev.dma i).code = none ∧ (s.dev.dma i).stale = false ∧ x.refused = false ∧ s.dev.unit (kDma i) = .on ∧ s.dev.dmaLocal i = false ∧ s.dev.pcie.master = true ∧ s.dev.rd (Reg.DMA.PROGRESS.bytes i) = x.len ∧ s.dev.dmaSize i ≤ 2 ^ 16) ∧
    (∃ (s : State) (m : Master) (i : Fin 8), s.dev.owns m dmaBlock = true ∧ s.dev.unit (kDma i) = .off ∧ s.dev.dmaPosted i ≠ 0 ∧ s.dev.dmaLocal i = false ∧ s.dev.pcie.master = true ∧ s.dev.dmaSize i ≤ 2 ^ 16) ∧
    (∃ (s : State) (m : Master) (i : Fin 8), s.dev.owns m dmaBlock = true ∧ s.dev.unit (kDma i) = .off ∧ s.dev.dmaPosted i ≠ 0 ∧ s.dev.pcie.master = false) ∧
    (∃ (s : State) (m : Master) (i : Fin 8), s.dev.owns m dmaBlock = true ∧ s.dev.unit (kDma i) = .off) :=
  ⟨⟨st (dm d0 0 0), .core, 3, 15, by decide +kernel⟩,
   ⟨st (dm d0 0 0), .host, 3, 4, by decide +kernel⟩,
   ⟨st { dm d0 0 0 with dmas := [] }, 3, by decide +kernel⟩,
   ⟨st (dm d0 (dv 0) 0), 3, dv 0, [], [1, 2, 3], by decide +kernel⟩,
   ⟨st (dm d0 (dv 1) 0), 3, dv 1, [], 16, by decide +kernel⟩,
   ⟨st (dm d0 (dv 2) 64), 3, dv 2, [], by decide +kernel⟩,
   ⟨st ((dm d0 (dv 0) 0).setUnit (kDma 3) .off), .core, 3, by decide +kernel⟩,
   ⟨st { (dm d0 (dv 0) 0).setUnit (kDma 3) .off with pcie := {} }, .core, 3, by decide +kernel⟩,
   ⟨st ((dm d0 (dv 0) 0).setUnit (kDma 3) .off), .core, 3, by decide +kernel⟩⟩

theorem test_hypotheses_FlashPort :
    (∃ (s : State) (m : Master) (v : BitVec 32), let a := 64 * s.dev.rd Reg.FL_BUF.line; let n := bits v.toNat 13 12; v.getLsbD 25 = true ∧ s.dev.flashReason m v.toNat = none ∧ (v.getLsbD 10 = true → s.dev.clean a n = true ∧ (n = 0 ∨ s.dev.mayAccess .security = true))) ∧
    (∃ (s : State) (m : Master) (v : BitVec 32), v.getLsbD 25 = true ∧ s.dev.flashReason m v.toNat = none ∧ v.getLsbD 10 = true ∧ 0 < bits v.toNat 13 12 ∧ s.dev.mayAccess .security = false) ∧
    (∃ (s : State) (m : Master) (v : BitVec 32), s.dev.owns m flashBlock = true ∧ s.dev.rd Reg.FL_STATUS.busy = 0 ∧ bits v.toNat 8 2 ≠ 3 ∧ s.dev.rd Reg.FL_CFG.mode = 0 ∧ 64 * s.dev.rd Reg.FL_BUF.line + bits v.toNat 13 12 ≤ 2 ^ 33) ∧
    (∃ (s : State) (m : Master) (v : BitVec 32) (k : Nat), v.getLsbD 25 = true ∧ s.dev.flashReason m v.toNat = some k) ∧
    (∃ (s : State) (m : Master), s.dev.owns m flashBlock = false) ∧
    (∃ (s : State) (w : BitVec 32) (ad : BitVec 32) (a : Nat) (xs : List (BitVec 8)) (bs : List (BitVec 8)) (t : FlashTx), s.dev.flash.run = some t ∧ t.fill = false ∧ s.dev.flash.cmd = some (w, ad, a, xs) ∧ w.getLsbD 10 = false ∧ bs.length ≤ bits w.toNat 13 12 ∧ s.dev.flash.unread = false ∧ s.dev.mayAccess .security = true ∧ s.dev.clean a bs.length = true ∧ s.dev.offTable a bs.length = true ∧ a + bs.length ≤ 2 ^ 33 ∧ bs.length = bits w.toNat 13 12) ∧
    (∃ (s : State) (w : BitVec 32) (ad : BitVec 32) (a : Nat) (xs : List (BitVec 8)) (bs : List (BitVec 8)) (t : FlashTx), s.dev.flash.run = some t ∧ t.fill = false ∧ s.dev.flash.cmd = some (w, ad, a, xs) ∧ w.getLsbD 10 = false ∧ bs.length ≤ bits w.toNat 13 12 ∧ s.dev.flash.unread = false ∧ s.dev.mayAccess .security = true ∧ s.dev.clean a bs.length = true ∧ s.dev.offTable a bs.length = true ∧ a + bs.length ≤ 2 ^ 33 ∧ s.dev.on Reg.FL_CFG.mode = true ∧ 0 < bits w.toNat 13 12) ∧
    (∃ (s : State) (f : Fill) (rest : List Fill) (t : FlashTx), s.dev.flash.run = some t ∧ t.fill = true ∧ s.dev.flash.fills = f :: rest ∧ f.second = false) ∧
    (∃ (s : State) (f : Fill) (rest : List Fill) (t : FlashTx), s.dev.flash.run = some t ∧ t.fill = true ∧ s.dev.flash.fills = f :: rest ∧ f.second = true ∧ s.dev.on Reg.FL_CFG.mode = true) ∧
    (∃ (s : State) (m : Master) (v : BitVec 32), s.dev.owns m flashBlock = true ∧ s.dev.xipLocked = false ∧ (v.getLsbD 0 = true → s.dev.xipFits (v.getLsbD 1) (bits v.toNat 14 16) (bits v.toNat 2 12 + 1) = true)) ∧
    (∃ (s : State) (v : BitVec 32), s.dev.holdsAll flXipFields v.toNat = false) ∧
    (∃ (s : State) (m : Master) (v : BitVec 32), s.dev.holdsAll flXipFields v.toNat = false ∧ s.dev.owns m flashBlock = true ∧ s.dev.xipLocked = true) :=
  ⟨⟨st (wf (gr d0) [(Reg.FL_BUF.line, 0x2000)]), .core, 0x02002403, by decide +kernel⟩,
   ⟨st d0, .core, 0x02000400 + 0x2000, by decide +kernel⟩,
   ⟨st (gr d0), .core, 0x00002003, by decide +kernel⟩,
   ⟨st d0, .host, 0x02000000, 1, by decide +kernel⟩,
   ⟨st d0, .host, by decide +kernel⟩,
   ⟨st { gr d0 with flash := { run := some ⟨false, false, [], 0, []⟩, cmd := some (32768, 0, 0x80000, []) } }, 32768, 0, 0x80000, [], [1, 2, 3, 4], ⟨false, false, [], 0, []⟩, by decide +kernel⟩,
   ⟨st { wf (gr d0) [(Reg.FL_CFG.mode, 1)] with flash := { run := some ⟨false, false, [], 0, []⟩, fills := [fil false], cmd := some (32768, 0, 0x80000, []) } }, 32768, 0, 0x80000, [], [1, 2, 3], ⟨false, false, [], 0, []⟩, by decide +kernel⟩,
   ⟨st { d0 with flash := { run := some ⟨true, false, [], 0, []⟩, fills := [fil false] } }, fil false, [], ⟨true, false, [], 0, []⟩, by decide +kernel⟩,
   ⟨st { wf d0 [(Reg.FL_CFG.mode, 1)] with flash := { run := some ⟨true, false, [], 0, []⟩, fills := [fil true] } }, fil true, [], ⟨true, false, [], 0, []⟩, by decide +kernel⟩,
   ⟨st d0, .core, 0, by decide +kernel⟩,
   ⟨st d0, 1, by decide +kernel⟩,
   ⟨st (wf d0 [(Reg.SEC_STATUS.stage, 4)]), .core, 4, by decide +kernel⟩⟩

theorem test_hypotheses_BoardPort :
    (∃ (s : State), s.dev.bpOpen = true) ∧
    (∃ (s : State) (w : BitVec 24) (a : Nat), s.dev.bp.active = true ∧ bpOp w = 1 ∧ s.dev.bp.writes = [] ∧ bpSlot w s.dev.bp.reads.length = some a ∧ slotThere .board a = true ∧ s.dev.busBlocked .board = false) ∧
    (∃ (s : State) (w : BitVec 24), s.dev.bp.active = true ∧ bpOp w = 1 ∧ s.dev.bp.writes = []) ∧
    (∃ (s : State) (w : BitVec 24) (xs : List (BitVec 24)) (r : BpRead) (a : Nat), s.dev.bp.active = true ∧ s.dev.bp.startHigh = false ∧ s.dev.bpOpen = true ∧ bpOp w = 1 ∧ s.dev.bp.reads = [r] ∧ r.addr = some a ∧ r.sent = true ∧ slotThere .board a = true ∧ xs.length = 1 + bpLead w + bpWords w) ∧
    (∃ (s : State) (w : BitVec 24) (xs : List (BitVec 24)) (r : BpRead) (a : Nat), s.dev.bp.active = true ∧ s.dev.bp.startHigh = false ∧ s.dev.bpOpen = true ∧ bpOp w = 1 ∧ s.dev.bp.reads = [r] ∧ r.addr = some a ∧ r.sent = true ∧ slotThere .board a = true ∧ xs.length = 1 + bpLead w) ∧
    (∃ (s : State) (w : BitVec 24), s.dev.bp.active = true ∧ s.dev.bp.startHigh = false ∧ s.dev.bpOpen = true ∧ bpOp w = 2 ∧ bpFull w = false) ∧
    (∃ (s : State) (w : BitVec 24), s.dev.bp.active = true ∧ s.dev.bp.startHigh = false ∧ s.dev.bpOpen = true ∧ bpOp w = 2 ∧ bpFull w = true) ∧
    (∃ (s : State) (din : List (BitVec 24)) (rising : Nat), s.dev.bp.active = true ∧ s.dev.bpOpen = true ∧ din.length = rising / 24 ∧ rising % 24 ≠ 0) ∧
    (∃ (s : State) (w : BitVec 24), s.dev.bp.active = true ∧ s.dev.bp.startHigh = false ∧ s.dev.bpOpen = true ∧ bpOp w = 3) ∧
    (∃ (s : State) (a : Nat) (v : BitVec 32) (rest : List (Nat × BitVec 32)), s.dev.bp.writes = (a, v) :: rest ∧ a % 4 = 0 ∧ a < 2 ^ 20 ∧ s.dev.busBlocked .board = false) ∧
    (∃ (s : State) (a : Nat) (v : BitVec 32) (rest : List (Nat × BitVec 32)), s.dev.bp.writes = (a, v) :: rest ∧ implemented 2 a = false ∧ s.dev.busBlocked .board = false) ∧
    (∃ (s : State), s.dev.busBlocked .board = true) :=
  ⟨⟨st (up { bp d0 with bp := {} }), by decide +kernel⟩,
   ⟨st (up (bp d0)), 5242884, 0x10, by decide +kernel⟩,
   ⟨st (up (bp d0)), 5242884, by decide +kernel⟩,
   ⟨st (up (bp d0 { reads := [⟨some Reg.GLB_POOL_PEAK.peak.addr, 5, true, [(Reg.GLB_POOL_PEAK.peak.key, 3)]⟩] })), 0x400000, [0, 5], ⟨some Reg.GLB_POOL_PEAK.peak.addr, 5, true, [(Reg.GLB_POOL_PEAK.peak.key, 3)]⟩, Reg.GLB_POOL_PEAK.peak.addr, by decide +kernel⟩,
   ⟨st (up (bp d0 { reads := [⟨some Reg.GLB_POOL_PEAK.peak.addr, 5, true, [(Reg.GLB_POOL_PEAK.peak.key, 3)]⟩] })), 0x6C0000, [0, 0, 0, 0], ⟨some Reg.GLB_POOL_PEAK.peak.addr, 5, true, [(Reg.GLB_POOL_PEAK.peak.key, 3)]⟩, Reg.GLB_POOL_PEAK.peak.addr, by decide +kernel⟩,
   ⟨st (up (bp d0)), 9437196, by decide +kernel⟩,
   ⟨st (up (bp d0)), 11534348, by decide +kernel⟩,
   ⟨st (up (bp d0)), [5], 25, by decide +kernel⟩,
   ⟨st (up (bp d0)), 12582912, by decide +kernel⟩,
   ⟨st (up { d0 with bp := { writes := [(0x10, 5)] } }), 0x10, 5, [], by decide +kernel⟩,
   ⟨st (up { d0 with bp := { writes := [(0xFFFFC, 5), (0, 1)] } }), 0xFFFFC, 5, [(0, 1)], by decide +kernel⟩,
   ⟨st { d0 with ctxCmd := [⟨.host, 3, 1, false, some .free⟩, ⟨.board, 3, 1, false, none⟩] }, by decide +kernel⟩⟩

theorem test_hypotheses_CalibrationCommands :
    (∃ (s : State) (m : Master), s.dev.owns m calBlock = true ∧ s.dev.calState = 0 ∧ s.dev.cal.fullPend = none ∧ s.dev.rd Reg.CAL_STATUS.staged_dirty = 0 ∧ s.dev.log.queue.length < 32) ∧
    (∃ (s : State) (m : Master), s.dev.owns m calBlock = false) ∧
    (∃ (s : State) (m : Master), s.dev.owns m calBlock = true ∧ s.dev.calBusy = true) ∧
    (∃ (s : State) (m : Master), s.dev.owns m calBlock = false ∧ s.dev.calState = 0 ∧ s.dev.cal.work = []) ∧
    (∃ (s : State), s.dev.calState = 1 ∧ s.dev.cal.work = [] ∧ s.dev.cal.stopping = false) ∧
    (∃ (s : State) (m : Master), s.dev.owns m calBlock = true ∧ s.dev.calBusy = false ∧ allCellsOk s.dev.cal.coreS = true ∧ s.dev.cal.pendRef = none) ∧
    (∃ (s : State) (m : Master) (v : BitVec 32) (r : BitVec 32), s.dev.owns m calBlock = true ∧ s.dev.calBusy = false ∧ allCellsOk s.dev.cal.coreS = true ∧ s.dev.cal.pendRef = some (v, r)) ∧
    (∃ (s : State) (m : Master), s.dev.owns m calBlock = true ∧ s.dev.calBusy = false ∧ allCellsOk s.dev.cal.coreS = false) ∧
    (∃ (s : State) (m : Master), s.dev.owns m calBlock = true ∧ s.dev.calState = 0) ∧
    (∃ (s : State) (m : Master) (v : Bool), (s.dev.owns m calBlock = true ∨ v = false ∨ s.dev.rd Reg.CAL_CTRL.roll_en = 1)) ∧
    (∃ (s : State) (m : Master) (off : BitVec 12), let g := s.dev.rd (Reg.CAL_SEL.core (masterCode m)); off.toNat % 4 = 0 ∧ off.toNat < 0x80 ∧ s.dev.on (Reg.CAL_SEL.view (masterCode m)) = false ∧ s.dev.owns m calBlock = true ∧ s.dev.busHolds (g / 34) (g % 34) = false) :=
  ⟨⟨st d0, .core, by decide +kernel⟩,
   ⟨st d0, .host, by decide +kernel⟩,
   ⟨st (ca d0 1), .core, by decide +kernel⟩,
   ⟨st d0, .host, by decide +kernel⟩,
   ⟨st (ca d0 1), by decide +kernel⟩,
   ⟨st d0, .core, by decide +kernel⟩,
   ⟨st { d0 with cal := { d0.cal with pendRef := some (5, 6) } }, .core, 5, 6, by decide +kernel⟩,
   ⟨st { d0 with cal := { d0.cal with coreS := [(64 * 7, 0)] } }, .core, by decide +kernel⟩,
   ⟨st d0, .core, by decide +kernel⟩,
   ⟨st d0, .core, true, by decide +kernel⟩,
   ⟨st (wf d0 [(Reg.CAL_SEL.core 1, 815)]), .core, 0x7C, by decide +kernel⟩⟩

theorem test_hypotheses_CalibrationRuns :
    (∃ (s : State), s.dev.calState = 1 ∧ s.dev.cal.stopping = false ∧ s.dev.calPhase = 0) ∧
    (∃ (s : State) (n : LoomId) (r : List (BitVec 24)), s.dev.calState = 1 ∧ s.dev.cal.stopping = false ∧ s.dev.calPhase = 1 ∧ s.dev.rd Reg.CAL_STATUS.loom = n.val ∧ r.length = 6) ∧
    (∃ (s : State) (n : LoomId) (ok : Bool) (r : List (BitVec 32)) (w : CalCore), s.dev.calWork n = some w ∧ w.stage = 1 ∧ w.stand = none ∧ w.after = none ∧ w.rolling = false ∧ s.dev.cal.timingBad = false ∧ s.dev.cal.stopping = false ∧ coreRecWf ok r = true) ∧
    (∃ (s : State) (n : LoomId) (k : Nat) (t : List Nat), s.dev.on Reg.CAL_CTRL.roll_en = true ∧ s.dev.calBusy = false ∧ s.dev.cal.fullPend = none ∧ s.dev.rd Reg.CAL_STATUS.staged_dirty = 0 ∧ s.dev.quar n = false ∧ s.dev.calWork n = none ∧ bit (s.dev.rd Reg.CAL_DUE.looms) n = true ∧ Tab.get none s.dev.cal.lastCycle n = none ∧ s.dev.freeSpares n = k :: t ∧ s.dev.coreDue n k = true ∧ (s.dev.box n).exch = [] ∧ (s.dev.box n).moving = none) ∧
    (∃ (s : State) (n : LoomId) (x : Exch), s.dev.quar n = false ∧ (s.dev.box n).moving = none ∧ (s.dev.box n).exch = [x] ∧ s.dev.exchPoint n x.k = true ∧ x.k < 32) ∧
    (∃ (s : State) (n : LoomId) (x : Exch), s.dev.calWork n = none ∧ (s.dev.box n).moving = some x ∧ x.k < 32 ∧ (x.dest = 32 ∨ x.dest = 33) ∧ s.dev.coreBad n x.dest = false) ∧
    (∃ (s : State), s.dev.on Reg.CAL_STATUS.hash_busy = true) :=
  ⟨⟨st (wf (ca d0 1 none) []), by decide +kernel⟩,
   ⟨st (wf (ca d0 1 none) [(Reg.CAL_STATUS.phase, 1), (Reg.CAL_STATUS.loom, 4)]), 4, ((List.range 6).map fun i => (loomNom i).setWidth 24), by decide +kernel⟩,
   ⟨st (wf (ca d0 1 wk) [(Reg.CAL_STATUS.phase, 3)]), 4, true, [0xFFFFFF, 0xFFFFFF, 0xFFFF] ++ List.replicate 29 0xFFFFFFFF, wk, by decide +kernel⟩,
   ⟨st (ca d0 0), 4, 32, [33], by decide +kernel⟩,
   ⟨st (d0.modBox 4 fun x => { x with exch := [⟨7, 32, 0⟩] }), 4, ⟨7, 32, 0⟩, by decide +kernel⟩,
   ⟨st (d0.modBox 4 fun x => { x with moving := some ⟨7, 32, 2⟩ }), 4, ⟨7, 32, 2⟩, by decide +kernel⟩,
   ⟨st (wf d0 [(Reg.CAL_STATUS.hash_busy, 1)]), by decide +kernel⟩⟩

theorem test_hypotheses_TemperatureAndPower :
    (∃ (s : State) (t : Int), -320 ≤ t ∧ t ≤ 1200 ∧ (∀ i < 64, (s.dev.sensor i).faulty = false) ∧ t < Int.ofNat (s.dev.rd Reg.TH_LIMIT_B.shutdown)) ∧
    (∃ (s : State) (t : Int), t ≤ 1200 ∧ (∀ i < 64, (s.dev.sensor i).faulty = false) ∧ Int.ofNat (s.dev.rd Reg.TH_LIMIT_B.shutdown) ≤ t ∧ (s.dev.rd Reg.TH_STATUS.state = 0 ∨ s.dev.rd Reg.TH_STATUS.state = 1)) ∧
    (∃ (s : State), let lv := s.dev.rd Reg.PWR_NOW.level; s.dev.rd Reg.PWR_LIMIT.trip_en = 0 ∧ lv ≤ 16) ∧
    (∃ (s : State), s.dev.rd Reg.TH_STATUS.state = 0) ∧
    (∃ (s : State), s.dev.rd Reg.TH_STATUS.state ≠ 0) ∧
    (∃ (s : State) (m : Master), s.dev.owns m thermBlock = true ∧ s.dev.rd Reg.TH_STATUS.state = 1) ∧
    (∃ (s : State) (m : Master), s.dev.owns m thermBlock = false) ∧
    (∃ (s : State), s.dev.rd Reg.TH_STATUS.state = 2 ∧ s.dev.chans.any (fun e => e.2.ramp != .none) = false ∧ s.dev.calState ≠ 1) ∧
    (∃ (s : State), s.dev.rd Reg.TH_STATUS.state ≠ 2) ∧
    (∃ (s : State) (m : Master), s.dev.owns m thermBlock = true ∧ s.dev.rd Reg.TH_STATUS.state = 3 ∧ s.dev.therm.coolSince = none) ∧
    (∃ (s : State) (t : BitVec 48), s.dev.rd Reg.TH_STATUS.state = 3 ∧ s.dev.therm.coolSince = some t) :=
  ⟨⟨st d0, -320, by decide +kernel⟩,
   ⟨st d0, 1200, by decide +kernel⟩,
   ⟨st (wf d0 [(Reg.PWR_LIMIT.trip_en, 0)]), by decide +kernel⟩,
   ⟨st d0, by decide +kernel⟩,
   ⟨st (wf d0 [(Reg.TH_STATUS.state, 1)]), by decide +kernel⟩,
   ⟨st (wf d0 [(Reg.TH_STATUS.state, 1)]), .core, by decide +kernel⟩,
   ⟨st d0, .host, by decide +kernel⟩,
   ⟨st (wf d0 [(Reg.TH_STATUS.state, 2)]), by decide +kernel⟩,
   ⟨st d0, by decide +kernel⟩,
   ⟨st (wf d0 [(Reg.TH_STATUS.state, 3)]), .core, by decide +kernel⟩,
   ⟨st { wf d0 [(Reg.TH_STATUS.state, 3)] with therm := { d0.therm with coolSince := some 9 } }, 9, by decide +kernel⟩⟩

theorem test_hypotheses_LogRecords :
    (∃ (s : State) (p : Port) (v : BitVec 32), let code := v.toNat % 256; s.dev.owns p.master thermBlock = true ∧ 0x40 ≤ code ∧ code ≤ 0x7F ∧ s.dev.log.queue.length < 32) ∧
    (∃ (s : State) (p : Port) (v : BitVec 32), let code := v.toNat % 256; s.dev.owns p.master thermBlock = true ∧ (code < 0x40 ∨ 0x7F < code)) ∧
    (∃ (s : State) (p : Port) (v : BitVec 32), let code := v.toNat % 256; s.dev.owns p.master thermBlock = true ∧ 0x40 ≤ code ∧ code ≤ 0x7F ∧ 32 ≤ s.dev.log.queue.length) ∧
    (∃ (s : State) (x : LogEntry) (t : List LogEntry), s.dev.log.queue = x :: t ∧ s.dev.log.waiting = [] ∧ s.dev.log.slot < 2048) ∧
    (∃ (s : State), s.dev.copyOf 0x8100 = none) ∧
    (∃ (s : State) (c : Nat), s.dev.copyOf 0x8100 = some c ∧ s.dev.copyGen c < 2 ^ 32 - 1) ∧
    (∃ (s : State) (n : LoomId) (b : Nat) (rest : List Nat), (s.dev.pat n).pendCount = b :: rest ∧ (s.dev.pat n).queue.any (·.burst == b) = false ∧ (∀ p ∈ (s.dev.pat n).siteFails, p.1 / 1024 ≠ b)) ∧
    (∃ (s : State) (n : LoomId) (b : Nat) (i : Nat) (k : Nat) (rest : List Nat), let a := (s.dev.site i).addr.toNat + 48; (s.dev.pat n).pendCount = b :: rest ∧ (s.dev.pat n).queue = [] ∧ (s.dev.pat n).siteFails = [(b * 1024 + i, k)] ∧ i < 1024 ∧ (s.dev.site i).valid = true ∧ a % 64 = 48 ∧ s.dev.mayAccess (shuttlePart n) = true ∧ s.dev.ecc (a / 32) = .good ∧ s.dev.offTable a 16 = true) ∧
    (∃ (s : State) (n : LoomId) (r : LogRec) (i : Instr), let j := s.dev.rd (Reg.LOOM.FLOG_WPTR.index n); let a := 64 * s.dev.rd (Reg.LOOM.FLOG_BASE.line n) + 16 * j; ((i = .failLogLineWrite n ∧ r.kind = 2) ∨ (i = .failLogFlushTimeout n ∧ 1 ≤ r.kind)) ∧ (s.dev.pat n).queue = [r] ∧ s.dev.ringBars n = false ∧ j % 4 = 0 ∧ j + 1 < 2 ^ s.dev.rd (Reg.LOOM.FLOG_CTRL.size_log2 n) ∧ j + 1 < 2 ^ 24 ∧ s.dev.mayAccess (flogPart n) = true ∧ s.dev.offTable a 64 = true) :=
  ⟨⟨st d0, .ctx 7, 0x12340, by decide +kernel⟩,
   ⟨st d0, .ctx 7, 0x3F, by decide +kernel⟩,
   ⟨st { d0 with log := { d0.log with queue := List.replicate 32 ⟨1, 5, 9⟩ } }, .ctx 7, 0x40, by decide +kernel⟩,
   ⟨st { d0 with log := { d0.log with queue := [⟨1, 5, 9⟩] } }, ⟨1, 5, 9⟩, [], by decide +kernel⟩,
   ⟨st { d0 with log := { d0.log with mram := [(0x8100, 1), (0x8140, 1)] } }, by decide +kernel⟩,
   ⟨st { d0 with log := { d0.log with mram := mr8 } }, 0x8100, by decide +kernel⟩,
   ⟨st (d0.setPat 3 { pendCount := [4] }), 3, 4, [], by decide +kernel⟩,
   ⟨st ({ gr d0 with sites := [(5, ⟨true, 0x80080 - 0x80⟩)] }.setPat 3 { pendCount := [4], siteFails := [(4 * 1024 + 5, 3)] }), 3, 4, 5, 3, [], by decide +kernel⟩,
   ⟨st ((wf (gr d0) [(Reg.LOOM.FLOG_CTRL.size_log2 3, 10), (Reg.LOOM.FLOG_BASE.line 3, 0x4000)]).setPat 3 { queue := [{ idx := 9, mask := 5, seg := 6, pass := 2, rep := 1, kind := 2, burst := 1 }] }), 3, { idx := 9, mask := 5, seg := 6, pass := 2, rep := 1, kind := 2, burst := 1 }, .failLogLineWrite 3, by refine ⟨Or.inl ⟨rfl, rfl⟩, ?_⟩; decide +kernel⟩⟩

theorem test_hypotheses_Microcode :
    (∃ (s : State) (m : Master), s.dev.owns m secBlock = true ∧ s.dev.rd Reg.UCODE_STATUS.state = 0) ∧
    (∃ (s : State) (m : Master), s.dev.owns m secBlock = false) ∧
    (∃ (s : State) (m : Master), s.dev.owns m secBlock = true ∧ s.dev.rd Reg.UCODE_STATUS.state = 1) ∧
    (∃ (s : State), let a := 64 * s.dev.rd Reg.UCODE_IMG.line; s.dev.rd Reg.UCODE_STATUS.state = 1 ∧ s.dev.mayAccess .security = true ∧ s.dev.clean a (min imageBytes (granSize - a)) = true) ∧
    (∃ (s : State) (m : Master), let mask := s.dev.rd Reg.UCODE_MASK.shuttles; s.dev.owns m secBlock = true ∧ (s.dev.rd Reg.UCODE_STATUS.state = 0 ∨ s.dev.rd Reg.UCODE_STATUS.state = 3) ∧ mask ≠ 0 ∧ (∀ k < 25, bit mask k = true → (s.dev.ustore k).shd.src ≠ 3)) ∧
    (∃ (s : State) (m : Master), s.dev.owns m secBlock = true ∧ s.dev.rd Reg.UCODE_STATUS.state = 0 ∧ s.dev.rd Reg.UCODE_MASK.shuttles = 0) ∧
    (∃ (s : State), s.dev.rd Reg.UCODE_STATUS.state = 3) ∧
    (∃ (s : State) (k : Fin 25) (n : Fin 3), let x := s.dev.ustore k; x.pend = true ∧ n.val < 2 ∧ s.dev.swapOpen k = true) ∧
    (∃ (s : State) (k : Fin 25) (n : Fin 3), let x := s.dev.ustore k; x.pend = true ∧ n.val < 2 ∧ s.dev.swapOpen k = false) ∧
    (∃ (s : State) (k : Fin 25) (n : Fin 3), let x := s.dev.ustore k; x.pend = true ∧ n.val = 2) ∧
    (∃ (s : State) (k : Fin 25) (t : BitVec 48), (s.dev.ustore k).pend = true ∧ (s.dev.ustore k).limit = some t) ∧
    (∃ (s : State) (m : Master), s.dev.owns m secBlock = true) :=
  ⟨⟨st d0, .core, by decide +kernel⟩,
   ⟨st d0, .host, by decide +kernel⟩,
   ⟨st (wf (gr d0) [(Reg.UCODE_STATUS.state, 1), (Reg.UCODE_IMG.line, 0)]), .core, by decide +kernel⟩,
   ⟨st (wf (gr d0) [(Reg.UCODE_STATUS.state, 1), (Reg.UCODE_IMG.line, 0x2000)]), by decide +kernel⟩,
   ⟨st (wf (us d0 { shd := ⟨1, 5⟩ }) [(Reg.UCODE_MASK.shuttles, 64)]), .core, by decide +kernel⟩,
   ⟨st (wf d0 [(Reg.UCODE_MASK.shuttles, 0)]), .core, by decide +kernel⟩,
   ⟨st (wf (us d0 { pend := true }) [(Reg.UCODE_STATUS.state, 3)]), by decide +kernel⟩,
   ⟨st (us d0 { pend := true, shd := ⟨1, 5⟩ }), 6, 0, by decide +kernel⟩,
   ⟨st (((run3 d0 { x0 with state := .waiting, wait := .meas 96 2, waitKind := 5 })).modUstore 3 fun x => { x with pend := true }), 3, 0, by decide +kernel⟩,
   ⟨st (us d0 { pend := true, shd := ⟨1, 5⟩ }), 6, 2, by decide +kernel⟩,
   ⟨st (us d0 { pend := true, limit := some 9 }), 6, 9, by decide +kernel⟩,
   ⟨st d0, .core, by decide +kernel⟩⟩

theorem test_hypotheses_OwnersQuarantineAndSparing :
    (∃ (s : State) (m : Master), s.dev.owns m 0 = true) ∧
    (∃ (s : State) (m : Master) (slot : Fin 3) (v : BitVec 32), (∀ b ∈ allBlocks, s.dev.owns m b = false) ∧ (∃ i < ownerFields slot, s.dev.rd (ownerFld (ownerField slot i)) ≠ bits v.toNat (2 * i) 2)) ∧
    (∃ (s : State) (m : Master), let may := m = .board ∧ s.dev.rd Reg.GLB_TAKEOVER.bp_en = 1 ∨ m = .core ∧ s.dev.rd Reg.GLB_TAKEOVER.cs_en = 1; s.dev.rd Reg.GLB_TAKEOVER.bp_en < 2 ∧ s.dev.rd Reg.GLB_TAKEOVER.cs_en < 2 ∧ may) ∧
    (∃ (s : State) (m : Master), let may := m = .board ∧ s.dev.rd Reg.GLB_TAKEOVER.bp_en = 1 ∨ m = .core ∧ s.dev.rd Reg.GLB_TAKEOVER.cs_en = 1; s.dev.rd Reg.GLB_TAKEOVER.bp_en < 2 ∧ s.dev.rd Reg.GLB_TAKEOVER.cs_en < 2 ∧ ¬may) ∧
    (∃ (s : State) (n : LoomId), s.dev.quar n = false) ∧
    (∃ (s : State) (die : Fin 4), (∀ i < 6, s.dev.rd (Reg.LOOM.QUAR.hub_down (6 * die.val + i)) = 0)) ∧
    (∃ (s : State) (n : LoomId) (k : Nat), (s.dev.box n).pend = some k) ∧
    (∃ (s : State) (m : Master) (n : LoomId), s.dev.owns m (loomBlock n) = true ∧ s.dev.rd (Reg.LOOM.QUAR.hub_down n) = 0 ∧ s.dev.quar n = true) ∧
    (∃ (s : State) (m : Master) (n : LoomId), s.dev.owns m (loomBlock n) = true ∧ s.dev.rd (Reg.LOOM.QUAR.hub_down n) = 1) ∧
    (∃ (s : State) (m : Master) (n : LoomId) (k : Fin 32), s.dev.owns m (loomBlock n) = true ∧ s.dev.quar n = false ∧ s.dev.sparePend n k = false ∧ s.dev.calWork n = none ∧ s.dev.coreBad n k = false ∧ s.dev.coreOf n k ≠ k.val) ∧
    (∃ (s : State) (m : Master) (n : LoomId), s.dev.owns m (loomBlock n) = false) ∧
    (∃ (s : State) (m : Master) (n : LoomId) (j : Fin 34), s.dev.coreBad n j = false ∧ s.dev.owns m (loomBlock n) = true ∧ s.dev.quar n = false) :=
  ⟨⟨st d0, .core, by decide +kernel⟩,
   ⟨st d0, .host, 0, 0, by decide +kernel⟩,
   ⟨st (wf d0 [(Reg.GLB_TAKEOVER.bp_en, 1)]), .board, by decide +kernel⟩,
   ⟨st d0, .board, by decide +kernel⟩,
   ⟨st d0, 4, by decide +kernel⟩,
   ⟨st d0, 3, by decide +kernel⟩,
   ⟨st (d0.modBox 4 fun x => { x with pend := some 1 }), 4, 1, by decide +kernel⟩,
   ⟨st (wf d0 [(Reg.LOOM.QUAR.quarantined 4, 1)]), .core, 4, by decide +kernel⟩,
   ⟨st (wf d0 [(Reg.LOOM.QUAR.quarantined 4, 1), (Reg.LOOM.QUAR.hub_down 4, 1)]), .core, 4, by decide +kernel⟩,
   ⟨st (wf d0 [(Reg.LOOM.SPARE.s32_ball 4, 31)]), .core, 4, 31, by decide +kernel⟩,
   ⟨st d0, .host, 4, by decide +kernel⟩,
   ⟨st d0, .core, 4, 33, by decide +kernel⟩⟩

theorem test_hypotheses_EventsSuppliesAndTap :
    (∃ (s : State) (m : Master) (i : Fin 16) (v : BitVec 32), let src := v.toNat % 256; let loom := v.toNat / 256 % 32; (s.dev.rd (Reg.EVC_SEL.src i) ≠ src ∨ s.dev.rd (Reg.EVC_SEL.loom i) ≠ loom) ∧ s.dev.owns m evcBlock = true ∧ src < 0xA0 ∧ (0x80 ≤ src ∨ loom < 24 ∨ loom = 31)) ∧
    (∃ (s : State) (m : Master) (i : Fin 16) (v : BitVec 32), let src := v.toNat % 256; let loom := v.toNat / 256 % 32; (s.dev.rd (Reg.EVC_SEL.src i) ≠ src ∨ s.dev.rd (Reg.EVC_SEL.loom i) ≠ loom) ∧ s.dev.owns m evcBlock = true ∧ (0xA0 ≤ src ∨ src < 0x80 ∧ 24 ≤ loom ∧ loom ≤ 30)) ∧
    (∃ (s : State) (m : Master) (n : LoomId) (i : Fin 16) (v : BitVec 32), let src := v.toNat / 2 ^ (8 * i.val) % 256; i.val < 4 ∧ s.dev.rd (Reg.LOOM.EVC_SEL.src n i) ≠ src ∧ s.dev.owns m (loomBlock n) = true ∧ src < 0x80) ∧
    (∃ (s : State) (m : Master) (n : LoomId) (i : Fin 16) (v : BitVec 32), let src := v.toNat / 2 ^ (8 * i.val) % 256; i.val < 4 ∧ s.dev.rd (Reg.LOOM.EVC_SEL.src n i) ≠ src ∧ s.dev.owns m (loomBlock n) = true ∧ 0x80 ≤ src) ∧
    (∃ (s : State) (m : Master) (v : BitVec 32), let run := v.toNat % 2 ^ 16; s.dev.owns m evcBlock = true ∧ s.dev.rd Reg.EVC_CTRL.run ≠ run ∧ v.getLsbD 16 = false) ∧
    (∃ (s : State) (m : Master) (v : BitVec 32), let run := v.toNat % 2 ^ 16; s.dev.owns m evcBlock = true ∧ s.dev.rd Reg.EVC_CTRL.run ≠ run ∧ v.getLsbD 16 = true) ∧
    (∃ (s : State) (run : Nat), let t : BitVec 48 := BitVec.ofNat 48 ((s.dev.now + 65535) / 65536 * 65536); s.dev.evcRun = some run ∧ s.dev.comesTo t = true) ∧
    (∃ (s : State) (m : Master), s.dev.owns m evcBlock = true) ∧
    (∃ (s : State) (i : Nat), s.dev.log.queue ≠ [] ∧ i < 16 ∧ bit (s.dev.rd Reg.EVC_CTRL.run) i = true ∧ s.dev.rd (Reg.EVC_SEL.src i) = 0x98) ∧
    (∃ (s : State) (mv : Nat) (ack : Bool), ack = true ∧ s.dev.boot.held = false ∧ 650 ≤ mv ∧ mv ≤ 850 ∧ mv ≤ s.dev.supply.vcore + 10 ∧ s.dev.supply.vcore ≤ mv + 10) ∧
    (∃ (s : State) (mv : Nat) (ack : Bool), (ack = false ∨ s.dev.boot.held = true ∨ mv < 650 ∨ 850 < mv ∨ s.dev.supply.vcore + 10 < mv ∨ mv + 10 < s.dev.supply.vcore)) :=
  ⟨⟨st d0, .core, 15, 0x1F98, by decide +kernel⟩,
   ⟨st d0, .core, 0, 0xFFFFFFFF, by decide +kernel⟩,
   ⟨st d0, .core, 0, 0, 5, by decide +kernel⟩,
   ⟨st d0, .core, 23, 3, 0xFF000000, by decide +kernel⟩,
   ⟨st d0, .core, 0x8001, by decide +kernel⟩,
   ⟨st d0, .core, 0x18001, by decide +kernel⟩,
   ⟨stc { d0 with evcRun := some 5 }, 5, by decide +kernel⟩,
   ⟨st d0, .core, by decide +kernel⟩,
   ⟨st { (wf d0 [(Reg.EVC_CTRL.run, 8), (Reg.EVC_SEL.src 3, 0x98), (Reg.EVC.count 3, 281474976710655)]) with log := { d0.log with queue := [⟨1, 5, 9⟩] } }, 3, by decide +kernel⟩,
   ⟨st { d0 with boot := { d0.boot with held := false } }, 760, true, by decide +kernel⟩,
   ⟨st { d0 with boot := { d0.boot with held := false } }, 739, false, by decide +kernel⟩⟩

theorem test_hypotheses_BootAndSecurity :
    (∃ (s : State), let k := s.dev.rd Reg.SEC_STATUS.reset_cause; s.dev.boot.held = true ∧ s.dev.supply.good = true ∧ k ≠ 4 ∧ k ≠ 5) ∧
    (∃ (s : State), let k := s.dev.rd Reg.SEC_STATUS.reset_cause; s.dev.boot.held = true ∧ s.dev.supply.good = true ∧ s.dev.boot.pinLow = false ∧ (k = 4 ∨ k = 5)) ∧
    (∃ (s : State), s.dev.stage = 2) ∧
    (∃ (s : State), s.dev.stage = 3) ∧
    (∃ (s : State) (m : Master), s.dev.owns m bootBlock = true ∧ (s.dev.stage = 3 ∨ s.dev.stage = 4)) ∧
    (∃ (s : State) (m : Master), (s.dev.owns m bootBlock = false ∨ s.dev.stage < 3 ∨ s.dev.stage = 5)) ∧
    (∃ (s : State) (m : Master), m = .core ∧ s.dev.stage = 3) ∧
    (∃ (s : State) (m : Master), (m ≠ .core ∨ s.dev.stage ≠ 3)) ∧
    (∃ (s : State) (m : Master), let l := s.dev.rd Reg.SEC_ATT_ADDR.line; s.dev.owns m bootBlock = true ∧ 3 ≤ s.dev.stage ∧ s.dev.boot.att = none ∧ l + 87 ≤ 2 ^ 27 ∧ s.dev.mayAccess .security = true ∧ s.dev.clean (64 * l) 32 = true) ∧
    (∃ (s : State) (m : Master), s.dev.owns m bootBlock = true ∧ 3 ≤ s.dev.stage ∧ (s.dev.boot.att.isSome = true ∨ 2 ^ 27 < s.dev.rd Reg.SEC_ATT_ADDR.line + 87)) ∧
    (∃ (s : State) (m : Master), s.dev.owns m bootBlock = true) ∧
    (∃ (s : State), s.dev.rd Reg.SEC_CTRL.irq_en = 0) :=
  ⟨⟨st d0, by decide +kernel⟩,
   ⟨st (wf d0 [(Reg.SEC_STATUS.reset_cause, 4)]), by decide +kernel⟩,
   ⟨st (wf d0 [(Reg.SEC_STATUS.stage, 2)]), by decide +kernel⟩,
   ⟨st (wf d0 [(Reg.SEC_STATUS.stage, 3)]), by decide +kernel⟩,
   ⟨st (wf d0 [(Reg.SEC_STATUS.stage, 3)]), .core, by decide +kernel⟩,
   ⟨st (wf d0 [(Reg.SEC_STATUS.stage, 5)]), .core, by decide +kernel⟩,
   ⟨st (wf d0 [(Reg.SEC_STATUS.stage, 3)]), .core, by decide +kernel⟩,
   ⟨st (wf d0 [(Reg.SEC_STATUS.stage, 4)]), .core, by decide +kernel⟩,
   ⟨st (wf (gr d0) [(Reg.SEC_STATUS.stage, 4), (Reg.SEC_ATT_ADDR.line, 134217641)]), .core, by decide +kernel⟩,
   ⟨st (wf d0 [(Reg.SEC_STATUS.stage, 4), (Reg.SEC_ATT_ADDR.line, 134217642)]), .core, by decide +kernel⟩,
   ⟨st (wf d0 [(Reg.SEC_STATUS.stage, 4)]), .core, by decide +kernel⟩,
   ⟨st d0, by decide +kernel⟩⟩

/-- A step that stores to the Granary meets the hypotheses of MemoryStaysCanonical. -/
theorem test_hypotheses_MemoryStaysCanonical : ∃ s t : State, s.memWf = true ∧ exec (.st 0 ⟨2, 0, false, 0⟩ 4 true 0) s = .next t :=
  ⟨st (run3 d0 { x0 with a := [(0, 0x80000)] }), _, by decide +kernel, rfl⟩
theorem test_hypotheses_StepRunsFront :
    (∃ d : Dev, d.reed.counting = false ∧ (d.rd Reg.REED_STATE.state ≠ 1 ∨ d.on Reg.REED_STATE.clk_lock = false) ∧
      ∀ n : LoomId, d.unit (kMill n) = .held → d.quar n = true) ∧
    (∃ d : Dev, d.reed.counting = true ∧ (d.rd Reg.REED_STATE.state ≠ 1 ∨ d.on Reg.REED_STATE.clk_lock = false)) ∧
    ∃ d : Dev, d.rd Reg.REED_STATE.state = 1 ∧ d.on Reg.REED_STATE.clk_lock = true :=
  ⟨⟨d0, by decide +kernel⟩, ⟨rd d0 2 2 { counting := true }, by decide +kernel⟩, ⟨wf (rd d0 1 1) [(Reg.REED_STATE.clk_lock, 1)], by decide +kernel⟩⟩

end Sys2Proof.Tests
end

section
/-! PROOFS. The ALU group (R78 to R80): what an instruction of its form does to its context, the flags it leaves, and its
shifts as arithmetic on the operands. -/
namespace Sys2Proof.Machine
open Sys2Proof

/-! The flag word, read back. -/

section
variable (z n c v f t : Bool)

@[simp] theorem flagWord_bit_zero : (flagWord z n c v f t)[0] = z := by revert z n c v f t; decide
@[simp] theorem flagWord_bit_one : (flagWord z n c v f t)[1] = n := by revert z n c v f t; decide
@[simp] theorem flagWord_bit_three : (flagWord z n c v f t)[3] = v := by revert z n c v f t; decide
@[simp] theorem flagWord_bit_four : (flagWord z n c v f t)[4] = f := by revert z n c v f t; decide
@[simp] theorem flagWord_bit_five : (flagWord z n c v f t)[5] = t := by revert z n c v f t; decide

end

/-- Z and N from a result, then C: V, F and T are those before both. -/
theorem Ctx.setC_setZN (x : Ctx) (r : W24) (c : Bool) :
    (x.setZN r).setC c = { x with flags := flagWord (r == 0) r.msb c x.fV x.fF x.fT } := by
  simp [Ctx.setC, Ctx.setZN, Ctx.fZ, Ctx.fN, Ctx.fV, Ctx.fF, Ctx.fT]

/-! What the two instruction forms do. -/

/-- An instruction that runs as `f` through the ALU form and does not touch the PC does `f`. In X form the check of s (R78)
passes, since the statement has s = 0 there. -/
theorem AluDoes.of_exec {con : CtxId → RRX → Instr} {f : Ctx → Nat → W24 → W24 → Ctx}
    (hexec : ∀ c i s, exec (con c i) s = lift s fun d => d.alu c i fun x => f x i.d.toNat)
    (hpc : ∀ x k a b, (f x k a b).pc = x.pc) : AluDoes con f := by
  intro s c i hruns hs
  have hform : (i.x && nz i.s) = false := by
    cases hx : i.x
    · rfl
    · simp [hs hx, nz]
  obtain ⟨hctx, honly⟩ := Dev.issue_ctx s c i.x
    (fun d x => guarded [badReserved (i.x && nz i.s)] (.ok (d.setCtx c (f x i.d.toNat (x.rw i.d.toNat) (opB x i)))))
    _ hruns (by rw [hform]; rfl) (hpc _ _ _ _)
  exact ⟨_, hexec c i s, hctx, honly⟩

/-- The same for the immediate form (R80). -/
theorem ImmDoes.of_exec {con : CtxId → RI → Instr} {f : Ctx → Nat → W24 → W24 → Ctx}
    (hexec : ∀ c i s, exec (con c i) s = lift s fun d => d.aluImm c i fun x => f x i.d.toNat)
    (hpc : ∀ x k a b, (f x k a b).pc = x.pc) : ImmDoes con f := by
  intro s c i hruns
  obtain ⟨hctx, honly⟩ := Dev.issue_ctx s c false
    (fun d x => .ok (d.setCtx c (f x i.d.toNat (x.rw i.d.toNat) (imm24 i)))) _ hruns rfl (hpc _ _ _ _)
  exact ⟨_, hexec c i s, hctx, honly⟩

/-- Two descriptions of one effect. -/
theorem AluDoes.congr {con : CtxId → RRX → Instr} {f g : Ctx → Nat → W24 → W24 → Ctx} (h : AluDoes con f)
    (hfg : ∀ x k a b, f x k a b = g x k a b) : AluDoes con g := by
  rwa [show f = g from funext fun x => funext fun k => funext fun a => funext fun b => hfg x k a b] at h

/-- A shift of w_d: Z and N from the result, C as given, V kept (R79). -/
theorem AluDoes.of_shift {con : CtxId → RRX → Instr} {r : W24 → Nat → W24} {carry : W24 → Nat → Bool}
    (hexec : ∀ c i s, exec (con c i) s = lift s fun d => d.alu c i fun x a b =>
      ((x.setW i.d.toNat (r a (shiftCount b))).setZN (r a (shiftCount b))).setC (carry a (shiftCount b))) :
    AluDoes con fun x k a b => { x.setW k (r a (b.toNat % 32)) with
      flags := flagWord (r a (b.toNat % 32) == 0) (r a (b.toNat % 32)).msb (carry a (b.toNat % 32)) x.fV x.fF x.fT } := by
  refine (AluDoes.of_exec (f := fun x k a b =>
    ((x.setW k (r a (shiftCount b))).setZN (r a (shiftCount b))).setC (carry a (shiftCount b))) hexec fun _ _ _ _ => rfl).congr
    fun x k a b => ?_
  rw [Ctx.setC_setZN]; rfl

/-! Zero and sign of the logic results. -/

theorem xor_beq_zero (a b : W24) : (a ^^^ b == 0) = (a == b) := by
  rw [Bool.eq_iff_iff, beq_iff_eq, beq_iff_eq]; exact BitVec.xor_eq_zero_iff

theorem not_beq_zero (b : W24) : (~~~b == 0) = (b == 0xFFFFFF) := by
  rw [Bool.eq_iff_iff, beq_iff_eq, beq_iff_eq]; exact BitVec.not_eq_comm

/-! The shifts as arithmetic (R79). -/

/-- C of SHL is the bit that a shift in 25 bits carries into bit 24. -/
theorem shlC_eq (a : W24) (n : Nat) : shlC a n = (a.setWidth 25 <<< n).msb := by
  rw [BitVec.msb_eq_getLsbD_last, BitVec.getLsbD_shiftLeft, BitVec.getLsbD_setWidth, shlC]
  rcases Nat.eq_zero_or_pos n with rfl | hn
  · simp
  · by_cases h : n ≤ 24
    · simp [h, show 24 - n < 25 by omega, Nat.one_le_iff_ne_zero, Nat.pos_iff_ne_zero.mp hn]
    · simp [h, show 24 < n by omega]

/-- C of SHR is the low bit of w_d shifted by one less, 0 for a count of 0. -/
theorem shrC_eq (a : W24) (n : Nat) : shrC a n = (n != 0 && decide (a.toNat / 2 ^ (n - 1) % 2 = 1)) := by
  rw [← Nat.testBit_eq_decide_div_mod_eq, BitVec.testBit_toNat, shrC]
  by_cases h : n ≤ 24
  · rcases Nat.eq_zero_or_pos n with rfl | hn
    · rfl
    · simp [h, Nat.one_le_iff_ne_zero, Nat.pos_iff_ne_zero.mp hn]
  · simp [h, BitVec.getLsbD_of_ge a (n - 1) (by omega)]

theorem sshiftRight_toInt (a : W24) (n : Nat) : (a.sshiftRight n).toInt = a.toInt / 2 ^ n := by
  rw [BitVec.toInt_sshiftRight, Int.shiftRight_eq_div_pow]; norm_cast

theorem sshiftRight_eq_ofInt (a : W24) (n : Nat) : a.sshiftRight n = BitVec.ofInt 24 (a.toInt / 2 ^ n) := by
  rw [← sshiftRight_toInt, BitVec.ofInt_toInt]

theorem sshiftRight_beq_zero (a : W24) (n : Nat) : (a.sshiftRight n == 0) = (a.toInt / 2 ^ n == 0) := by
  rw [← sshiftRight_toInt, Bool.eq_iff_iff, beq_iff_eq, beq_iff_eq]; exact BitVec.toInt_inj.symm

/-- Bit 0 tells an odd signed value. -/
theorem decide_toInt_odd (v : W24) : decide (v.toInt % 2 = 1) = v.getLsbD 0 := by
  have hbit : v.getLsbD 0 = decide (v.toNat % 2 = 1) := by
    rw [← BitVec.testBit_toNat, Nat.testBit_zero]
  rw [hbit, BitVec.toInt_eq_toNat_cond, decide_eq_decide]
  split <;> omega

/-- C of SAR is the low bit of w_d shifted by one less, which is the sign from a count of 24 on, and 0 for a count of 0. -/
theorem sarC_eq (a : W24) (n : Nat) : sarC a n = (n != 0 && decide (a.toInt / 2 ^ (n - 1) % 2 = 1)) := by
  rw [← sshiftRight_toInt, decide_toInt_odd, BitVec.getLsbD_sshiftRight, sarC]
  rcases Nat.eq_zero_or_pos n with rfl | hn
  · rfl
  · rcases Nat.lt_trichotomy n 24 with h | rfl | h
    · simp [h, show n - 1 < 24 by omega, Nat.pos_iff_ne_zero.mp hn]
    · simp [BitVec.msb_eq_getLsbD_last]
    · simp [show ¬ n < 24 by omega, show ¬ n - 1 < 24 by omega, Nat.pos_iff_ne_zero.mp hn]

/-- Settles O9: the instruction's form gives the frame, and each value and flag is one of the equations above. -/
theorem logicMovesAndShifts : Obligations.LogicMovesAndShifts := by
  unfold Obligations.LogicMovesAndShifts
  refine ⟨?andI, ?orI, ?xorI, ?notI, ?mov, ?tst, ?movi, ?andi, ?ori, ?shl, ?shr, ?sar⟩
  case andI | orI | mov | tst => exact .of_exec (fun _ _ _ => rfl) fun _ _ _ _ => rfl
  case movi | andi | ori => exact .of_exec (fun _ _ _ => rfl) fun _ _ _ _ => rfl
  case xorI =>
    refine (AluDoes.of_exec (f := fun x k a b => x.result k (a ^^^ b) false false) (fun _ _ _ => rfl) fun _ _ _ _ => rfl).congr
      fun x k a b => ?_
    rw [← xor_beq_zero]; rfl
  case notI =>
    refine (AluDoes.of_exec (f := fun x k _ b => x.result k (~~~b) false false) (fun _ _ _ => rfl) fun _ _ _ _ => rfl).congr
      fun x k a b => ?_
    rw [← not_beq_zero, show (!b.msb) = (~~~b).msb by simp]; rfl
  case shl =>
    refine (AluDoes.of_shift (r := fun a n => a <<< n) (carry := shlC) fun _ _ _ => rfl).congr fun x k a b => ?_
    rw [shlC_eq]
  case shr =>
    refine (AluDoes.of_shift (r := fun a n => a >>> n) (carry := shrC) fun _ _ _ => rfl).congr fun x k a b => ?_
    rw [shrC_eq]
  case sar =>
    refine (AluDoes.of_shift (r := BitVec.sshiftRight) (carry := sarC) fun _ _ _ => rfl).congr fun x k a b => ?_
    rw [sshiftRight_beq_zero, BitVec.msb_sshiftRight, sarC_eq, sshiftRight_eq_ofInt]

end Sys2Proof.Machine
end

section
/-! SUPPORT. What a signal leaves of the device: flags, messages and void accesses move registers and the PCIe function only, and
each moves its own bit (R397, R400). -/
namespace Sys2Proof.Machine
open Sys2Proof

/-! Bits of numbers. -/

theorem bit_eq_testBit (v i : Nat) : bit v i = v.testBit i := by
  rw [Nat.testBit_eq_decide_div_mod_eq]; rfl

theorem bit_mod_two_pow (v n i : Nat) : bit (v % 2 ^ n) i = (decide (i < n) && bit v i) := by
  simp only [bit_eq_testBit, Nat.testBit_mod_two_pow]

theorem bit_mod_two_pow_succ (v n b : Nat) : bit (v % 2 ^ (n + 1)) b = (bit (v % 2 ^ n) b || (decide (b = n) && bit v b)) := by
  simp only [bit_mod_two_pow, ← Bool.and_or_distrib_right, ← Bool.decide_or, Nat.lt_succ_iff_lt_or_eq]

/-- Setting bit `i`. -/
theorem bit_putBits_one (v i b : Nat) : bit (putBits v i 1 1) b = (bit v b || decide (b = i)) := by
  have hv : v = 2 ^ i * (2 ^ 1 * (v / 2 ^ (i + 1)) + v / 2 ^ i % 2 ^ 1) + v % 2 ^ i := by
    rw [Nat.pow_succ (n := 2) (m := i), ← Nat.div_div_eq_div_mul, Nat.pow_one, Nat.div_add_mod, Nat.div_add_mod]
  have hput : putBits v i 1 1 = 2 ^ i * (2 ^ 1 * (v / 2 ^ (i + 1)) + 1) + v % 2 ^ i := by
    rw [putBits, Nat.mul_add, ← Nat.mul_assoc (2 ^ i), ← Nat.pow_add, Nat.mul_one]
    simp only [Nat.reducePow, Nat.reduceMod, Nat.one_mul, Nat.mul_comm (2 ^ (i + 1))]
    omega
  have hlow : v % 2 ^ i < 2 ^ i := Nat.mod_lt _ (Nat.two_pow_pos i)
  rw [hput]
  conv => rhs; rw [hv]
  simp only [bit_eq_testBit, Nat.testBit_two_pow_mul_add _ hlow,
    Nat.testBit_two_pow_mul_add _ (show 1 < 2 ^ 1 by omega), Nat.testBit_two_pow_mul_add _ (Nat.mod_lt (v / 2 ^ i) (Nat.two_pow_pos 1))]
  rcases Nat.lt_trichotomy b i with h | rfl | h
  · simp [h, Nat.ne_of_lt h]
  · simp
  · simp [Nat.lt_asymm h, Nat.ne_of_gt h, show ¬ b - i < 1 by omega]

theorem maskTo_lt (p : Nat → Bool) : ∀ n, maskTo p n < 2 ^ n
  | 0 => by simp [maskTo]
  | n + 1 => by
    have := maskTo_lt p n
    rw [maskTo, Nat.pow_succ]; split <;> omega

theorem bit_maskTo (p : Nat → Bool) (n i : Nat) (h : i < n) : bit (maskTo p n) i = p i := by
  induction n with
  | zero => omega
  | succ n ih =>
    have hmask : maskTo p (n + 1) = 2 ^ n * (p n).toNat + maskTo p n := by
      rw [maskTo]; cases p n <;> simp [Nat.add_comm]
    rw [hmask, bit_eq_testBit, Nat.testBit_two_pow_mul_add _ (maskTo_lt p n)]
    split
    · rename_i hi; rw [← bit_eq_testBit, ih hi]
    · rw [show i = n by omega]; cases p n <;> simp

/-! Registers and the PCIe function alone. -/

/-- `e` is `d` but for its registers and its PCIe function. -/
def Dev.Signals (d e : Dev) : Prop := e = { d with regs := e.regs, pcie := e.pcie }

theorem Dev.Signals.refl (d : Dev) : d.Signals d := rfl

theorem Dev.Signals.trans {d e f : Dev} (h : d.Signals e) (k : e.Signals f) : d.Signals f := by
  unfold Dev.Signals at h k ⊢
  rw [h] at k; exact k

theorem Dev.Signals.ctxs_eq {d e : Dev} (h : d.Signals e) : e.ctxs = d.ctxs := by rw [h]
theorem Dev.Signals.gran_eq {d e : Dev} (h : d.Signals e) : e.gran = d.gran := by rw [h]

/-- What keeps the tables of contexts and bytes, and the registers but `fs`, keeps all that `Keeps` names. -/
theorem Keeps.of_fields {d e : Dev} {fs : List Fld} (hregs : regsKept d e fs) (hctxs : e.ctxs = d.ctxs) (hgran : e.gran = d.gran) :
    Keeps d e fs :=
  ⟨hregs, fun k => by simp only [Dev.ctx, hctxs], fun a => by simp only [Dev.byte, hgran]⟩

theorem Dev.Signals.keeps {d e : Dev} {fs : List Fld} (h : d.Signals e) (hregs : regsKept d e fs) : Keeps d e fs :=
  .of_fields hregs h.ctxs_eq h.gran_eq

theorem Dev.evc_signals (d : Dev) (src n : Nat) : d.Signals (d.evc src n) := rfl

theorem Dev.message_signals (d : Dev) (v : Nat) : d.Signals (d.message v) := by
  unfold Dev.message; split <;> rfl

theorem Dev.message_pcie (d : Dev) (v : Nat) : (d.message v).pcie = d.pcie.request v := by
  unfold Dev.message; split <;> rfl

/-- A flag that no read clears is not followed by the board port (R451). -/
theorem Dev.upd_signals (d : Dev) (f : Fld) (g : Nat → Nat) (hf : f.acc ≠ .rc) : d.Signals (d.upd f g) := by
  unfold Dev.upd; rw [if_neg hf]; rfl

theorem Dev.setBit_signals (d : Dev) (f : Fld) (i : Nat) (hf : f.acc ≠ .rc) : d.Signals (d.setBit f i) := by
  have hupd := d.upd_signals f (putBits · i 1 1) hf
  unfold Dev.setBit; dsimp only
  split
  · split
    · exact hupd.trans (Dev.message_signals _ _)
    · exact hupd
  · exact hupd

theorem Dev.flag_signals (d : Dev) (f : Fld) (hf : f.acc ≠ .rc) : d.Signals (d.flag f) := d.setBit_signals f 0 hf

theorem Dev.flag_rd_same (d : Dev) (f : Fld) (hf : f.counts = false) (hw : f.w = 1) : (d.flag f).rd f = 1 := by
  unfold Dev.flag
  rw [Dev.setBit_rd_same d f 0 hf, hw, putBits]; omega

/-! Void accesses (R397). -/

theorem Dev.voidAccess_signals (d : Dev) : d.Signals d.voidAccess :=
  (d.flag_signals Reg.GLB_STATUS.void_access (by decide)).trans (Dev.evc_signals _ _ _)

theorem Dev.voidAccess_rd_same (d : Dev) : d.voidAccess.rd Reg.GLB_STATUS.void_access = 1 := by
  unfold Dev.voidAccess
  rw [Dev.evc_rd _ _ _ _ (by decide), Dev.flag_rd_same _ _ (by decide) rfl]

theorem Dev.voidAccess_rd_other (d : Dev) (g : Fld) (hg : g.counts = false) (hk : g.key ≠ Reg.GLB_STATUS.void_access.key) :
    d.voidAccess.rd g = d.rd g := by
  unfold Dev.voidAccess
  rw [Dev.evc_rd _ _ _ g hg, Dev.flag_rd_other _ _ g hg hk]

theorem Dev.voidAccess_regsKept (d : Dev) : regsKept d d.voidAccess [Reg.GLB_STATUS.void_access] :=
  fun g hg hk => d.voidAccess_rd_other g hg (hk _ List.mem_cons_self)

/-! The messages that a slot write requests (R400). -/

theorem Dev.irqEdge_keeps {α : Type} (p : Dev → α) (hp : ∀ d v, p (Dev.message d v) = p d) (o d : Dev) (a : Nat) :
    p (Dev.irqEdge o d a) = p d := by
  unfold Dev.irqEdge
  induction irqVecs a generalizing d with
  | nil => rfl
  | cons v vs ih =>
    rw [List.foldl_cons, ih]; split
    · exact hp d v
    · rfl

theorem Dev.irqEdge_rd (o d : Dev) (a : Nat) (g : Fld) (hg : g.counts = false) : (Dev.irqEdge o d a).rd g = d.rd g :=
  Dev.irqEdge_keeps (·.rd g) (fun d v => d.message_rd v g hg) o d a
@[simp] theorem Dev.irqEdge_ctxs (o d : Dev) (a : Nat) : (Dev.irqEdge o d a).ctxs = d.ctxs :=
  Dev.irqEdge_keeps (·.ctxs) Dev.message_ctxs o d a
@[simp] theorem Dev.irqEdge_gran (o d : Dev) (a : Nat) : (Dev.irqEdge o d a).gran = d.gran :=
  Dev.irqEdge_keeps (·.gran) Dev.message_gran o d a

end Sys2Proof.Machine
end

section
/-! SUPPORT. The register bus: accesses to a slot that is not there, writes to one that is, and the REG instructions whose
conditions pass (R97 to R99, R396, R397). -/
namespace Sys2Proof.Machine
open Sys2Proof

/-! A slot that is not there. -/

theorem Dev.slotReads_absent (d : Dev) (p : Port) (a v : Nat) (h : slotThere p a = false) : d.slotReads p a v = none := by
  simp [Dev.slotReads, h]

theorem Dev.writeSlot_absent (d : Dev) (p : Port) (a v : Nat) (h : slotThere p a = false) : d.writeSlot p a v = (d.voidAccess, false) := by
  simp only [slotThere, Bool.or_eq_false_iff] at h
  obtain ⟨⟨htable, hpba⟩, himpl⟩ := h
  simp [Dev.writeSlot, htable, hpba, himpl]

theorem Dev.readSlot_absent (d : Dev) (p : Port) (a : Nat) (h : slotThere p a = false) : d.readSlot p a = (d.voidAccess, 0) := by
  simp [Dev.readSlot, h]

theorem Dev.busRead_absent (d : Dev) (p : Port) (addr k a : Nat) (ha : wordSlot addr k = some a) (h : slotThere p a = false) :
    d.busRead p addr k = d.voidAccess.answer p 0 := by
  simp only [Dev.busRead, ha, d.readSlot_absent p a h]

/-- A write to such a slot: one of a part of it is also refused for its size (R396). -/
theorem Dev.busWrite_absent (d : Dev) (p : Port) (addr k a v be : Nat) (ha : wordSlot addr k = some a) (h : slotThere p a = false) :
    d.busWrite p addr k v be = if be = 15 then d.voidAccess else (d.flag Reg.GLB_STATUS.size_reject).voidAccess := by
  simp only [Dev.busWrite, ha, d.writeSlot_absent p a v h, h, ite_not, Bool.false_eq_true, if_false]

theorem wordSlot_zero (addr : Nat) : wordSlot addr 0 = some (addr / 4 * 4) := by simp [wordSlot]

theorem exec_rcRegisterRead_eq (s : State) (p : Port) (addr : BitVec 20) (k : Nat) (hbus : s.dev.busBlocked p.master = false) :
    exec (.rcRegisterRead p addr k) s = .next { s with dev := s.dev.busRead p addr.toNat k } := by
  show execRcRegisterRead p addr k s = _
  simp only [execRcRegisterRead, lift, Dev.inTurn_done _ _ _ _ hbus]

theorem exec_wideLowSlotRead_eq (s : State) (p : Port) (addr : BitVec 20) (hbus : s.dev.busBlocked p.master = false) :
    exec (.wideLowSlotRead p addr) s = .next { s with dev := s.dev.busRead p addr.toNat 0 } := by
  show execWideLowSlotRead p addr s = _
  simp only [execWideLowSlotRead, lift, Dev.inTurn_done _ _ _ _ hbus]

/-- A write that nothing holds up, to a slot that accesses the Granary by no write. -/
theorem exec_registerWrite_eq (s : State) (p : Port) (addr : BitVec 20) (k a : Nat) (v : BitVec 32) (be : BitVec 4)
    (ha : wordSlot addr.toNat k = some a) (hreads : s.dev.slotReads p a v.toNat = none) (hbus : s.dev.busBlocked p.master = false) :
    exec (.registerWrite p addr k v be) s = .next { s with dev := s.dev.busWrite p addr.toNat k v.toNat be.toNat } := by
  show execRegisterWrite p addr k v be s = _
  simp only [execRegisterWrite, lift, ha, Option.bind_some, hreads, ite_self]
  rw [Dev.writing_done _ _ _ _ _ hbus (by simp)]

/-- A read of a slot that is not there answers 0 and is a void access. -/
theorem Leads.of_busRead_absent {s : State} {i : Instr} (p : Port) (addr k a : Nat)
    (hexec : exec i s = .next { s with dev := s.dev.busRead p addr k }) (ha : wordSlot addr k = some a) (h : slotThere p a = false) :
    Leads s i fun e => (Tab.get {} e.ports (portKey p)).data = 0 ∧ e.rd Reg.GLB_STATUS.void_access = 1 ∧
      Keeps s.dev e [Reg.GLB_STATUS.void_access] := by
  rw [s.dev.busRead_absent p addr k a ha h] at hexec
  have hsig := s.dev.voidAccess_signals
  refine ⟨_, hexec, rfl, ?_, s.dev.voidAccess_rd_same, .of_fields s.dev.voidAccess_regsKept hsig.ctxs_eq hsig.gran_eq⟩
  simp [Dev.answer]

/-! A slot that is there. -/

/-- A write to a slot of a register (R400, R617). -/
theorem Dev.writeSlot_there (d : Dev) (p : Port) (a v : Nat) (htable : msixTable p a = false) (hpba : msixPba p a = false)
    (himpl : implemented (masterCode p.master) a = true) :
    d.writeSlot p a v = (Dev.irqEdge d { { d with judging := some none }.writeAt p a v with judging := d.judging } a,
      ({ d with judging := some none }.writeAt p a v).ownRefused) := by
  simp [Dev.writeSlot, htable, hpba, himpl]

/-- A write of all the bytes of a request's first word. -/
theorem Dev.busWrite_full (d : Dev) (p : Port) (addr v : Nat) : d.busWrite p addr 0 v 15 = (d.writeSlot p (addr / 4 * 4) v).1 := by
  simp [Dev.busWrite, wordSlot_zero]

/-! The REG group. -/

@[simp] theorem Dev.begun_pcie (d : Dev) (c : Nat) : (d.begun c).pcie = d.pcie := by rw [Dev.begun_eq]

/-- The slot that a REG instruction names, where its extension word is an address (R97). -/
theorem regSlot_of_lt (i : RRX) (h : i.ext.toNat < 2 ^ 20) : regSlot i = i.ext.toNat := Nat.mod_eq_of_lt h

theorem Dev.regTurn_done (d : Dev) (c : Nat) (i : RRX) (same : Bool) (ins : Instr) (f : Dev → Dev) (hbus : d.busBlocked .core = false) :
    d.regTurn c i same ins none f = f d := by
  simp [Dev.regTurn, hbus]

/-- No condition of R117 stops a REG instruction of a granted context that names a slot. -/
theorem firstFault_regChecks (x : Ctx) (i : RRX) (same : Bool) (hx : i.x = true) (hsame : same = true → i.d ≠ i.s)
    (hgrant : x.regGrant = true) (hext : i.ext.toNat < 2 ^ 20) (halign : i.ext.toNat % 4 = 0) : firstFault (regChecks x i same) = none := by
  have hindex : (same && i.d == i.s) = false := by
    cases same
    · rfl
    · simpa using hsame rfl
  have haddr : (bits i.ext.toNat 20 4 != 0 || bits i.ext.toNat 0 2 != 0) = false := by
    have hhigh : i.ext.toNat / 2 ^ 20 = 0 := Nat.div_eq_of_lt hext
    have hlow : i.ext.toNat / 2 ^ 0 % 2 ^ 2 = 0 := by omega
    simp only [bits, hhigh, hlow]; rfl
  simp [regChecks, badForm, badIndex, hx, hindex, hgrant, haddr, firstFault]

/-- A completed instruction that has made the device `e`, and has not moved the PC of its context. -/
theorem Dev.issue_ok_dev (d : Dev) (c : Nat) (x : Bool) (run : Dev → Ctx → IRes) (e : Dev) (h : d.runs c (if x then 2 else 1) = true)
    (hr : run (d.begun c) (d.ctx c) = .ok e) (hp : (e.ctx c).pc = (d.ctx c).pc) :
    d.issue c x run = e.setCtx c ((e.ctx c).onward (if x then 2 else 1)) := by
  rw [Dev.issue_runs d c x run h, hr]
  rw [Dev.runs_iff] at h
  simp only [Dev.advancePc, hp, if_neg (Nat.not_le.mpr h.2), Ctx.onward]

theorem guarded_of_none {l : List (Bool × BitVec 24)} (k : IRes) (h : firstFault l = none) : guarded l k = k := by simp only [guarded, h]

/-- A REG instruction that completes: the device `e` of its slot access keeps the records and the bytes, its own record becomes what
`f` makes of it, and the PC moves on. What holds of the registers and the PCIe function of `e` holds after it. -/
theorem Leads.of_issue_slot {s : State} {i : Instr} {c : CtxId} {run : Dev → Ctx → IRes} {f : Ctx → Ctx} {e : Dev} {fs : List Fld}
    {P : Dev → Prop} (hexec : exec i s = .next { s with dev := s.dev.issue c true run }) (hruns : s.dev.runs c 2 = true)
    (hrun : run (s.dev.begun c) (s.dev.ctx c) = .ok (e.modCtx c f)) (hpc : (f (s.dev.ctx c)).pc = (s.dev.ctx c).pc)
    (hsig : s.dev.begun c |>.Signals e) (hregs : regsKept (s.dev.begun c) e fs) (hP : ∀ E : Dev, E.regs = e.regs → E.pcie = e.pcie → P E) :
    Leads s i fun E => E.ctx c = (f (s.dev.ctx c)).onward 2 ∧ P E ∧ regsKept s.dev E fs ∧ (∀ k, k ≠ c.val → E.ctx k = s.dev.ctx k) ∧
      bytesKept s.dev E := by
  have hctx : ∀ k, e.ctx k = s.dev.ctx k := fun k => by simp only [Dev.ctx, hsig.ctxs_eq, Dev.begun_ctxs]
  have hmod : (e.modCtx c f).ctx c = f (s.dev.ctx c) := by rw [Dev.ctx_modCtx_same, hctx]
  rw [s.dev.issue_ok_dev c true run _ hruns hrun (by rw [hmod, hpc]), hmod] at hexec
  refine ⟨_, hexec, rfl, Dev.ctx_setCtx_same _ _ _, hP _ rfl rfl, fun g hg hk => ?_, fun k hk => ?_, fun a => ?_⟩
  · exact (hregs g hg hk).trans (s.dev.begun_rd c g hg)
  · simp only [Dev.ctx_setCtx_other _ _ _ _ hk, Dev.ctx_modCtx_other _ _ _ _ hk, hctx]
  · simp [Dev.byte, hsig.gran_eq]

/-- RDREG issues at once where no earlier access of the core shuttle's master holds it up (R626). -/
theorem exec_rdreg_eq (s : State) (c : CtxId) (i : RRX) (hx : i.x = true) (hbus : s.dev.busBlocked .core = false) :
    exec (.rdreg c i) s = lift s fun d => d.issue c true fun d x => guarded (regChecks x i true)
      (let r := d.readSlot (ctxPort c) (regSlot i)
       .ok (r.1.modCtx c fun x => (x.setW i.d.toNat (BitVec.ofNat 24 r.2)).setW i.s.toNat (BitVec.ofNat 24 (bits r.2 24 8)))) := by
  show execRdreg c i s = _
  simp only [execRdreg, lift, Dev.regTurn_done _ _ _ _ _ _ hbus, hx]

/-- So does WRREG of a slot that accesses the Granary by no write. -/
theorem exec_wrreg_eq (s : State) (c : CtxId) (i : RRX) (hx : i.x = true) (hbus : s.dev.busBlocked .core = false)
    (hreads : ∀ v, s.dev.slotReads (ctxPort c) (regSlot i) v = none) :
    exec (.wrreg c i) s = lift s fun d => d.issue c true fun d x => guarded (regChecks x i false)
      (let r := d.writeSlot (ctxPort c) (regSlot i) (wrregVal x i)
       if (r.1.ctx c).state = .free then .stays r.1 else .ok (r.1.modCtx c (·.setC r.2))) := by
  show execWrreg c i s = _
  simp only [execWrreg, lift, hreads, Dev.regTurn_done _ _ _ _ _ _ hbus, hx]

/-- RDREG of a slot whose read makes the device `e` and answers `v` (R97, R98). -/
theorem Leads.of_rdreg {s : State} {c : CtxId} {i : RRX} {e : Dev} {v : Nat} {fs : List Fld} {P : Dev → Prop}
    (hruns : s.dev.runs c 2 = true) (hx : i.x = true) (hchecks : firstFault (regChecks (s.dev.ctx c) i true) = none)
    (hbus : s.dev.busBlocked .core = false) (hread : (s.dev.begun c).readSlot (ctxPort c) (regSlot i) = (e, v))
    (hsig : s.dev.begun c |>.Signals e) (hregs : regsKept (s.dev.begun c) e fs)
    (hP : ∀ E : Dev, E.regs = e.regs → E.pcie = e.pcie → P E) :
    Leads s (.rdreg c i) fun E =>
      E.ctx c = (((s.dev.ctx c).setW i.d.toNat (BitVec.ofNat 24 v)).setW i.s.toNat (BitVec.ofNat 24 (bits v 24 8))).onward 2 ∧
      P E ∧ regsKept s.dev E fs ∧ (∀ k, k ≠ c.val → E.ctx k = s.dev.ctx k) ∧ bytesKept s.dev E := by
  exact .of_issue_slot (f := fun x => (x.setW i.d.toNat (BitVec.ofNat 24 v)).setW i.s.toNat (BitVec.ofNat 24 (bits v 24 8)))
    (exec_rdreg_eq s c i hx hbus) hruns ((guarded_of_none _ hchecks).trans (by rw [hread])) rfl hsig hregs hP

/-- WRREG of a slot whose write makes the device `e`, refused for ownership or not as `b` says; it accesses the Granary in no step of
its own (R97, R98). -/
theorem Leads.of_wrreg {s : State} {c : CtxId} {i : RRX} {e : Dev} {b : Bool} {fs : List Fld} {P : Dev → Prop}
    (hruns : s.dev.runs c 2 = true) (hx : i.x = true) (hchecks : firstFault (regChecks (s.dev.ctx c) i false) = none)
    (hbus : s.dev.busBlocked .core = false) (hreads : ∀ v, s.dev.slotReads (ctxPort c) (regSlot i) v = none)
    (hwrite : (s.dev.begun c).writeSlot (ctxPort c) (regSlot i) (wrregVal (s.dev.ctx c) i) = (e, b))
    (hsig : s.dev.begun c |>.Signals e) (hregs : regsKept (s.dev.begun c) e fs)
    (hP : ∀ E : Dev, E.regs = e.regs → E.pcie = e.pcie → P E) :
    Leads s (.wrreg c i) fun E => E.ctx c = ((s.dev.ctx c).setC b).onward 2 ∧ P E ∧ regsKept s.dev E fs ∧
      (∀ k, k ≠ c.val → E.ctx k = s.dev.ctx k) ∧ bytesKept s.dev E := by
  have hlive : (e.ctx c).state ≠ .free := by
    have hissue := ((s.dev.runs_iff c 2).mp hruns).1
    have hctx : e.ctx c = s.dev.ctx c := by simp only [Dev.ctx, hsig.ctxs_eq, Dev.begun_ctxs]
    simp only [Dev.canIssue, Bool.and_eq_true, beq_iff_eq] at hissue
    obtain ⟨⟨⟨hready, -⟩, -⟩, -⟩ := hissue
    rw [hctx, hready]; decide
  exact .of_issue_slot (f := (·.setC b)) (exec_wrreg_eq s c i hx hbus hreads) hruns
    ((guarded_of_none _ hchecks).trans (by simp only [hwrite, if_neg hlive])) rfl hsig hregs hP

end Sys2Proof.Machine
end

section
/-! PROOFS. Void accesses, from every master and through the REG instructions (R97, R99, R396, R397). -/
namespace Sys2Proof.Machine
open Sys2Proof

/-- A write to a slot that is not there; one of a part of it is refused for its size as well. -/
theorem Leads.registerWrite_absent (s : State) (p : Port) (addr : BitVec 20) (k a : Nat) (v : BitVec 32) (be : BitVec 4)
    (ha : wordSlot addr.toNat k = some a) (h : slotThere p a = false) (hbus : s.dev.busBlocked p.master = false) :
    Leads s (.registerWrite p addr k v be) fun e => e.rd Reg.GLB_STATUS.void_access = 1 ∧ (be ≠ 0xF → e.rd Reg.GLB_STATUS.size_reject = 1) ∧
      Keeps s.dev e ((if be = 0xF then [] else [Reg.GLB_STATUS.size_reject]) ++ [Reg.GLB_STATUS.void_access]) ∧
      e = { s.dev with regs := e.regs, pcie := e.pcie } := by
  have hexec := exec_registerWrite_eq s p addr k a v be ha (s.dev.slotReads_absent p a _ h) hbus
  rw [s.dev.busWrite_absent p _ k a _ _ ha h] at hexec
  by_cases hbe : be = 0xF
  · subst hbe
    have hvoid := s.dev.voidAccess_signals
    exact ⟨_, hexec, rfl, s.dev.voidAccess_rd_same, fun hne => absurd rfl hne, hvoid.keeps s.dev.voidAccess_regsKept, hvoid⟩
  · have hnat : be.toNat ≠ 15 := fun h => hbe (BitVec.eq_of_toNat_eq h)
    rw [if_neg hnat] at hexec
    rw [if_neg hbe]
    have hsig := (s.dev.flag_signals Reg.GLB_STATUS.size_reject (by decide)).trans (Dev.voidAccess_signals _)
    refine ⟨_, hexec, rfl, Dev.voidAccess_rd_same _, fun _ => ?_, hsig.keeps fun g hg hk => ?_, hsig⟩
    · rw [Dev.voidAccess_rd_other _ _ (by decide) (by decide), Dev.flag_rd_same _ _ (by decide) rfl]
    · rw [Dev.voidAccess_rd_other _ _ hg (hk _ (by simp)), Dev.flag_rd_other _ _ _ hg (hk _ (by simp))]

/-- After a void access the flag stands in every device with its registers. -/
theorem Dev.rd_void_access_of_regs (d E : Dev) (h : E.regs = d.voidAccess.regs) : E.rd Reg.GLB_STATUS.void_access = 1 := by
  rw [← d.voidAccess_rd_same, Dev.rd, Dev.rd, h]

/-- Settles O33: each access comes down to `Dev.voidAccess`, beside the refusal for its size or the words that RDREG fills with 0. -/
theorem voidAccess : Obligations.VoidAccess := by
  unfold Obligations.VoidAccess
  refine ⟨?write, ?read, ?low, ?rdreg, ?wrreg⟩
  case write => exact Leads.registerWrite_absent
  case read =>
    intro s p addr k a ha h hbus
    exact .of_busRead_absent p addr.toNat k a (exec_rcRegisterRead_eq s p addr k hbus) ha h
  case low =>
    intro s p addr h hbus
    exact .of_busRead_absent p addr.toNat 0 _ (exec_wideLowSlotRead_eq s p addr hbus) (wordSlot_zero _) h
  case rdreg =>
    intro s c i x hruns hx hds hgrant hext halign h hbus
    have hread := (s.dev.begun c).readSlot_absent (ctxPort c) (regSlot i) (by rw [regSlot_of_lt i hext]; exact h)
    have hzero : BitVec.ofNat 24 (bits 0 24 8) = 0 := by decide
    rw [← hzero]
    exact .of_rdreg hruns hx (firstFault_regChecks x i true hx (fun _ => hds) hgrant hext halign) hbus hread
      (Dev.voidAccess_signals _) (Dev.voidAccess_regsKept _) fun E hE _ => (s.dev.begun c).rd_void_access_of_regs E hE
  case wrreg =>
    intro s c i x hruns hx hgrant hext halign h hbus
    have hslot : slotThere (ctxPort c) (regSlot i) = false := by rw [regSlot_of_lt i hext]; exact h
    exact .of_wrreg hruns hx (firstFault_regChecks x i false hx (fun h => absurd h (by decide)) hgrant hext halign) hbus
      (fun v => s.dev.slotReads_absent _ _ v hslot) ((s.dev.begun c).writeSlot_absent _ _ _ hslot)
      (Dev.voidAccess_signals _) (Dev.voidAccess_regsKept _) fun E hE _ => (s.dev.begun c).rd_void_access_of_regs E hE

end Sys2Proof.Machine
end

section
/-! PROOFS. The software interrupts (R400, R402): a bit of GLB_IRQ_SW rises with its message, and the host clears it. -/
namespace Sys2Proof.Machine
open Sys2Proof

/-! A message on a vector. -/

section
variable (p : Pcie) (v w : Nat)

@[simp] theorem Pcie.request_mayPost : (p.request v).mayPost w = p.mayPost w := by
  unfold Pcie.request; split <;> rfl

theorem Pcie.request_sent :
    Tab.get 0 (p.request v).sent w = Tab.get 0 p.sent w + (if decide (w = v) && p.mayPost w then 1 else 0) := by
  unfold Pcie.request
  rcases Decidable.em (w = v) with rfl | hw
  · split <;> simp_all
  · split <;> simp [hw, Tab.get_set_other]

theorem Pcie.request_pba :
    Tab.get false (p.request v).pba w = (Tab.get false p.pba w || (decide (w = v) && !p.mayPost w)) := by
  unfold Pcie.request
  rcases Decidable.em (w = v) with rfl | hw
  · split <;> simp_all
  · split <;> simp [hw, Tab.get_set_other]

end

/-! One bit of GLB_IRQ_SW is set. -/

section
variable (d : Dev) (i : Nat)

theorem vectorOf_irqSw : vectorOf Reg.GLB_IRQ_SW.cause i = some (40 + i) := rfl

theorem causesOf_irqSw (hi : i < 24) : causesOf (40 + i) = [⟨Reg.GLB_IRQ_SW.cause, i, none⟩] := by
  revert i; decide

theorem Dev.setBit_irqSw_rd (b : Nat) (hb : b < 24) :
    bit ((d.setBit Reg.GLB_IRQ_SW.cause i).rd Reg.GLB_IRQ_SW.cause) b = (bit (d.rd Reg.GLB_IRQ_SW.cause) b || decide (b = i)) := by
  rw [Dev.setBit_rd_same _ _ _ (by decide), bit_mod_two_pow, bit_putBits_one]
  simp [hb, Reg.GLB_IRQ_SW.cause]

/-- These causes have no enable bit, so that every rise is signalled. -/
theorem Dev.setBit_irqSw_pcie (hi : i < 24) :
    (d.setBit Reg.GLB_IRQ_SW.cause i).pcie = if bit (d.rd Reg.GLB_IRQ_SW.cause) i then d.pcie else d.pcie.request (40 + i) := by
  unfold Dev.setBit
  simp only [vectorOf_irqSw, causesOf_irqSw i hi]
  cases bit (d.rd Reg.GLB_IRQ_SW.cause) i <;> simp [Dev.causeEn, Dev.message_pcie]

end

/-! The bits of a write to GLB_IRQ_SW_SET, one after another. -/

/-- From `d` to `e` the bits of `v` are raised and signalled, and nothing else changes. -/
structure Dev.Raises (d e : Dev) (v : Nat) : Prop where
  signals : d.Signals e
  regs : regsKept d e [Reg.GLB_IRQ_SW.cause]
  mayPost : ∀ k, e.pcie.mayPost k = d.pcie.mayPost k
  soft : softSignals d e v

/-- Only GLB_IRQ_SW, the PCIe function and the bits below 24 count. -/
theorem softSignals_congr {d d' e e' : Dev} {v w : Nat} (h : softSignals d e v) (hcause : d.rd Reg.GLB_IRQ_SW.cause = d'.rd Reg.GLB_IRQ_SW.cause)
    (hpcie : d.pcie = d'.pcie) (hregs : e'.regs = e.regs) (hpcie' : e'.pcie = e.pcie) (hbits : ∀ b < 24, bit v b = bit w b) :
    softSignals d' e' w := by
  intro b hb
  rw [Dev.rd, hregs, hpcie', ← hcause, ← hpcie, ← hbits b hb]; exact h b hb

theorem Dev.Raises.refl (d : Dev) : d.Raises d 0 where
  signals := .refl d
  regs := regsKept_refl d _
  mayPost _ := rfl
  soft b _ := by simp [bit]

theorem Dev.Raises.congr {d e : Dev} {v w : Nat} (h : d.Raises e v) (hbits : ∀ b < 24, bit v b = bit w b) : d.Raises e w :=
  { h with soft := softSignals_congr h.soft rfl rfl rfl rfl hbits }

/-- One more bit is raised. -/
theorem Dev.Raises.setBit {d e : Dev} {v w i : Nat} (h : d.Raises e v) (hi : i < 24) (hnew : bit v i = false)
    (hbits : ∀ b < 24, bit w b = (bit v b || decide (b = i))) : d.Raises (e.setBit Reg.GLB_IRQ_SW.cause i) w where
  signals := h.signals.trans (e.setBit_signals _ i (by decide))
  regs := regsKept_trans h.regs fun g hg hk => Dev.setBit_rd_other _ _ g i hg (hk _ List.mem_cons_self)
  mayPost k := by
    rw [e.setBit_irqSw_pcie i hi, ← h.mayPost]
    split
    · rfl
    · exact Pcie.request_mayPost _ _ _
  soft b hb := by
    obtain ⟨hcause, hsent, hpba⟩ := h.soft b hb
    have hrise : bit (e.rd Reg.GLB_IRQ_SW.cause) i = bit (d.rd Reg.GLB_IRQ_SW.cause) i := by rw [(h.soft i hi).1, hnew, Bool.or_false]
    rw [e.setBit_irqSw_rd i b hb, e.setBit_irqSw_pcie i hi, hrise, hcause, hbits b hb]
    refine ⟨Bool.or_assoc .., ?_⟩
    rcases Decidable.em (b = i) with rfl | hne
    · rw [hnew] at hsent hpba ⊢
      cases bit (d.rd Reg.GLB_IRQ_SW.cause) b <;> simp_all [Pcie.request_sent, Pcie.request_pba, h.mayPost]
    · split <;> simp_all [Pcie.request_sent, Pcie.request_pba]

/-- A write raises the bits that it sets (R402). -/
theorem Dev.irqSw_raises (d : Dev) (v : Nat) : d.Raises (d.irqSw v) v := by
  suffices hupto : ∀ n ≤ 24, d.Raises (iter (fun b d => if bit v b then d.setBit Reg.GLB_IRQ_SW.cause b else d) n d) (v % 2 ^ n) from
    (hupto 24 (Nat.le_refl _)).congr fun b hb => by rw [bit_mod_two_pow]; simp [hb]
  intro n hn
  induction n with
  | zero => rw [Nat.pow_zero, Nat.mod_one]; exact .refl d
  | succ n ih =>
    have hprev := ih (by omega)
    rw [iter]
    split
    · rename_i hbit
      refine hprev.setBit (by omega) (by simp [bit_mod_two_pow]) fun b _ => ?_
      rw [bit_mod_two_pow_succ]
      rcases Decidable.em (b = n) with rfl | hne
      · simp [hbit]
      · simp [hne]
    · rename_i hbit
      refine hprev.congr fun b _ => ?_
      rw [bit_mod_two_pow_succ]
      rcases Decidable.em (b = n) with rfl | hne
      · simp [hbit]
      · simp [hne]

/-! The two registers on the bus. -/

theorem Dev.Raises.judging {d e : Dev} {j : Option (Option Bool)} {v : Nat} (h : { d with judging := j }.Raises e v) :
    d.Raises { e with judging := d.judging } v where
  signals := by
    have hsig := h.signals
    unfold Dev.Signals at hsig ⊢
    rw [hsig]
  regs := h.regs
  mayPost := h.mayPost
  soft := h.soft

theorem implemented_irqSwSet (m : Master) : implemented (masterCode m) 0x20 = true := by
  cases m <;> decide +kernel

/-- A write to GLB_IRQ_SW_SET, from any port (R402). -/
theorem Dev.writeSlot_irqSwSet (d : Dev) (p : Port) (v : Nat) : ∃ e, d.writeSlot p 0x20 v = (e, false) ∧ d.Raises e v := by
  have hraises := Dev.irqSw_raises { d with judging := some none } v
  have hjudging : (Dev.irqSw { d with judging := some none } v).judging = some none := by rw [hraises.signals]
  refine ⟨_, ?_, hraises.judging⟩
  rw [d.writeSlot_there p 0x20 v (by simp [msixTable]) (by simp [msixPba]) (implemented_irqSwSet _)]
  have hwrite : ({ d with judging := some none } : Dev).writeAt p 0x20 v = Dev.irqSw { d with judging := some none } v := rfl
  have hvecs : irqVecs 0x20 = [] := by decide
  rw [hwrite, Dev.irqEdge, hvecs, List.foldl_nil, Dev.ownRefused, hjudging]
  rfl

theorem Dev.slotReads_irqSwSet (d : Dev) (p : Port) (v : Nat) : d.slotReads p 0x20 v = none := by
  unfold Dev.slotReads
  split
  · rfl
  · rfl

theorem Dev.clear1_bit (d : Dev) (f : Fld) (x i : Nat) (hi : i < f.w) : bit ((d.clear1 f x).rd f) i = (bit (d.rd f) i && !bit x i) := by
  unfold Dev.clear1; dsimp only
  split
  · rename_i heq
    rw [← bit_maskTo (fun i => bit (d.rd f) i && !bit x i) f.w i hi, ← heq]
  · rw [Dev.rd_wr_same, bit_mod_two_pow, bit_maskTo _ _ _ hi]; simp [hi]

theorem Dev.clear1_rd_other (d : Dev) (f g : Fld) (x : Nat) (hk : g.key ≠ f.key) : (d.clear1 f x).rd g = d.rd g := by
  unfold Dev.clear1; dsimp only
  split
  · rfl
  · exact d.rd_wr_other f g _ hk

theorem Dev.clear1_signals (d : Dev) (f : Fld) (x : Nat) : d.Signals (d.clear1 f x) := by
  unfold Dev.clear1; dsimp only
  split <;> rfl

/-- From `d` to `e` the bits of `v` are cleared, and nothing else but messages changes. -/
structure Dev.Clears (d e : Dev) (v : Nat) : Prop where
  bits : ∀ i < 24, bit (e.rd Reg.GLB_IRQ_SW.cause) i = (bit (d.rd Reg.GLB_IRQ_SW.cause) i && !bit v i)
  keeps : Keeps d e [Reg.GLB_IRQ_SW.cause]

/-- W1C bits written to GLB_IRQ_SW by one that may (R13, R617). -/
theorem Dev.putW1c_irqSw (d : Dev) (v : Nat) (no : Dev → Dev) : d.Clears (d.putW1c v [Reg.GLB_IRQ_SW.cause] true no) v := by
  have hpart : slotPart v Reg.GLB_IRQ_SW.cause = v % 2 ^ 24 := by
    simp only [slotPart, Machine.bits, Reg.GLB_IRQ_SW.cause, Nat.pow_zero, Nat.div_one]
  have hbit : ∀ i < 24, bit (v % 2 ^ 24) i = bit v i := fun i hi => by rw [bit_mod_two_pow]; simp [hi]
  have hput : d.putW1c v [Reg.GLB_IRQ_SW.cause] true no = if v % 2 ^ 24 = 0 then d else d.clear1 Reg.GLB_IRQ_SW.cause (v % 2 ^ 24) := by
    simp only [Dev.putW1c, List.all_cons, List.all_nil, Bool.and_true, beq_iff_eq, hpart, if_true, List.foldl_cons, List.foldl_nil]
  rw [hput]
  split
  · rename_i hzero
    refine ⟨fun i hi => ?_, (Dev.Signals.refl d).keeps (regsKept_refl d _)⟩
    rw [← hbit i hi, hzero]; simp [bit]
  · refine ⟨fun i hi => ?_, (d.clear1_signals _ _).keeps fun g _ hk => d.clear1_rd_other _ g _ (hk _ List.mem_cons_self)⟩
    rw [d.clear1_bit _ _ i hi, hbit i hi]

/-- A write of the host, the owner of block 0, to GLB_IRQ_SW (R402). -/
theorem Dev.writeSlot_irqSw (d : Dev) (v : Nat) (hown : d.owns .host 0 = true) : d.Clears (d.writeSlot .host 0x1C v).1 v := by
  have hfields : narrowAt (masterCode .host) 0x1C = [Reg.GLB_IRQ_SW.cause] := by decide +kernel
  have hw1c := Dev.putW1c_irqSw { d with judging := some none } v (·.ownerReject .host 0)
  have hwrite : Dev.writeAt { d with judging := some none } .host 0x1C v =
      Dev.putW1c { d with judging := some none } v [Reg.GLB_IRQ_SW.cause] true (·.ownerReject .host 0) := by
    show Dev.plain _ .host 0x1C v 0 _ = _
    rw [Dev.plain, Port.master, hfields, show Dev.owns { d with judging := some none } .host 0 = true from hown]
    rfl
  obtain ⟨hregs, hctxs, hbytes⟩ := hw1c.keeps
  rw [d.writeSlot_there .host 0x1C v (by decide) (by decide) (by decide +kernel), hwrite]
  refine ⟨fun i hi => ?_, fun g hg hk => ?_, fun k => ?_, fun a => ?_⟩
  · rw [Dev.irqEdge_rd _ _ _ _ (by decide)]; exact hw1c.bits i hi
  · rw [Dev.irqEdge_rd _ _ _ g hg]; exact hregs g hg hk
  · rw [Dev.ctx, Dev.irqEdge_ctxs]; exact hctxs k
  · rw [Dev.byte, Dev.irqEdge_gran]; exact hbytes a

/-- Of the 32 bits that WRREG writes, the low 24 are its w_d (R97). -/
theorem bit_wrregVal (x : Ctx) (i : RRX) (b : Nat) (hb : b < 24) : bit (wrregVal x i) b = bit (x.rw i.d.toNat).toNat b := by
  rw [wrregVal, Nat.mul_comm, bit_eq_testBit, Nat.testBit_two_pow_mul_add _ (x.rw i.d.toNat).isLt, if_pos hb, bit_eq_testBit]

/-- Settles O48: GLB_IRQ_SW_SET comes down to `Dev.irqSw` by every way to it, and the host's W1C to `Dev.clear1`. -/
theorem softwareInterrupts : Obligations.SoftwareInterrupts := by
  unfold Obligations.SoftwareInterrupts
  refine ⟨?command, ?slot, ?wrreg, ?clear⟩
  case command =>
    intro s m v
    have hraises := s.dev.irqSw_raises v.toNat
    exact ⟨_, rfl, rfl, hraises.signals, hraises.signals.keeps hraises.regs, hraises.soft⟩
  case slot =>
    intro s p v hbus
    obtain ⟨e, hwrite, hraises⟩ := s.dev.writeSlot_irqSwSet p v.toNat
    have hexec := exec_registerWrite_eq s p 0x20 0 0x20 v 0xF rfl (s.dev.slotReads_irqSwSet p _) hbus
    rw [show (0xF : BitVec 4).toNat = 15 from rfl, Dev.busWrite_full, show (0x20 : BitVec 20).toNat / 4 * 4 = 0x20 from rfl, hwrite] at hexec
    exact ⟨_, hexec, rfl, hraises.signals.keeps hraises.regs, hraises.soft⟩
  case wrreg =>
    intro s c i x hruns hbus hx hgrant hext
    have hslot : regSlot i = 0x20 := by rw [regSlot, hext]; rfl
    obtain ⟨e, hwrite, hraises⟩ := (s.dev.begun c).writeSlot_irqSwSet (ctxPort c) (wrregVal x i)
    exact .of_wrreg hruns hx (firstFault_regChecks x i false hx (fun h => absurd h (by decide)) hgrant (by rw [hext]; decide)
      (by rw [hext]; decide)) hbus (fun v => by rw [hslot, s.dev.slotReads_irqSwSet]) (by rw [hslot]; exact hwrite) hraises.signals hraises.regs
      fun E hregs hpcie => softSignals_congr hraises.soft (s.dev.begun_rd c _ (by decide)) (s.dev.begun_pcie c) hregs hpcie (bit_wrregVal x i)
  case clear =>
    intro s v hown hbus
    have hclears := s.dev.writeSlot_irqSw v.toNat hown
    have hexec := exec_registerWrite_eq s .host 0x1C 0 0x1C v 0xF rfl rfl hbus
    exact ⟨_, hexec, rfl, hclears.bits, hclears.keeps⟩

end Sys2Proof.Machine
end
